-- ==== Sys2Proof/Word.lean ====
section
/-! DEFINITION. The word types of the device: bytes, 64-bit words, granules. -/

namespace Sys2Proof

/-- One byte (00_scope.md R7: little-endian, bit 0 least significant). -/
abbrev Byte := BitVec 8

/-- A 64-bit scalar register, register-map word or semaphore. -/
abbrev Word := BitVec 64

/-- One vector register, 512 bytes (03_squares_boards.md R54). -/
abbrev VReg := BitVec 4096

/-- One predicate register (R54). -/
abbrev PReg := BitVec 256

/-- A granule codeword (R134): data byte `d_j` at bits `8j+7..8j`, check symbol `c_(32+i)` at bits `8i+7..8i`. -/
structure Granule where
  data  : BitVec 256
  check : BitVec 32
  deriving DecidableEq, Repr

/-- Errors that have touched a stored codeword: symbol position (0 to 35) and the pattern XORed into it. -/
abbrev Upset := List (Nat × Byte)

/-- The PASID prefix of a CXL.io request, if it carries one (12_host_interface.md R266). -/
abbrev Pasid := Option (BitVec 20)

end Sys2Proof
end

