-- ==== Sys2Proof/Syntax.lean ====
section
/-! DEFINITION. The commands of the block: one constructor of `Instr` per row of spec/opcode_table.json.
What a command carries beside its row's own name is what reaches the block from outside at that step: the fields
of a message or instruction word, a value a sensor or a peer supplied, errors that physics left in a codeword. -/

namespace Sys2Proof

/-- A context: logical square and context slot (R10, R60). -/
structure CtxRef where
  sq   : Nat
  slot : Nat
  deriving DecidableEq, Repr

/-- A context whose barrier is met, with the IDs at which the members of other devices wait (R67). -/
structure BarrierMet where
  ctx    : CtxRef
  remote : List Nat
  deriving DecidableEq, Repr

/-- A member whose next step of the tree has come (R75); `root` holds the OPC, OP, length and TAG of a root on another device (R68). -/
structure TreeStep where
  ctx  : CtxRef
  root : Option (Nat × Nat × Nat × Nat)
  deriving DecidableEq, Repr

/-- Burst-time counters that came with read data (R133, R152): `counter` with the first reply, `again` with the repeated read. -/
structure BurstTiming where
  counter : BitVec 16
  again   : BitVec 16
  deriving DecidableEq, Repr

/-- A write burst at its tower (R133, R152): the tag of its request and the burst-time counter the controller sent with it. -/
structure WriteBurst where
  id      : Nat
  counter : BitVec 16
  deriving DecidableEq, Repr

/-- Where a multicast store still goes (R165): its group, and each destination with its SEQ there. -/
structure McastDests where
  group : Nat
  l     : List (Nat × Nat)
  deriving DecidableEq, Repr

/-- Fields of a scalar instruction word (R62): [53:49] SD, [48:44] SA, [43:39] SB, [38:32] reserved, [31:0] IMM32. -/
structure ScalarF where
  sd  : BitVec 5
  sa  : BitVec 5
  sb  : BitVec 5
  rsv : BitVec 7
  imm : BitVec 32
  deriving DecidableEq, Repr

/-- Fields of a queue instruction word (R63). -/
structure QueueF where
  q     : BitVec 3
  sd    : BitVec 5
  sa    : BitVec 5
  count : BitVec 7
  rsv   : BitVec 34
  deriving DecidableEq, Repr

/-- Fields of a vector instruction word (R65). -/
structure VecF where
  fmt  : BitVec 3
  vd   : BitVec 6
  va   : BitVec 6
  vb   : BitVec 6
  vc   : BitVec 6
  sreg : BitVec 5
  rnd  : BitVec 2
  sat  : Bool
  pred : BitVec 3
  imm  : BitVec 16
  deriving DecidableEq, Repr

/-- Fields of a synchronisation instruction word (R67); `rsvHi` is [37:32], `rsvLo` is [15:0]. -/
structure SyncF where
  mode  : BitVec 3
  sa    : BitVec 5
  sb    : BitVec 5
  level : BitVec 3
  rsvHi : BitVec 6
  id    : BitVec 16
  rsvLo : BitVec 16
  deriving DecidableEq, Repr

/-- Fields of a reduction instruction word (R68). -/
structure ReduceF where
  op    : BitVec 3
  level : BitVec 3
  sa    : BitVec 5
  sb    : BitVec 5
  sl    : BitVec 5
  rsv   : BitVec 17
  tag   : BitVec 16
  deriving DecidableEq, Repr

/-- Fields of MMT (R90); `rsvHi` is [18:16], `rsvLo` is [7:0]. -/
structure MmtF where
  sdim  : BitVec 5
  sa    : BitVec 5
  sb    : BitVec 5
  sc    : BitVec 5
  sd    : BitVec 5
  sab   : BitVec 5
  rnd   : BitVec 2
  sat   : Bool
  seg   : BitVec 2
  rsvHi : BitVec 3
  wbase : BitVec 8
  rsvLo : BitVec 8
  deriving DecidableEq, Repr

/-- Fields of MMP (R91). -/
structure MmpF where
  srow  : BitVec 5
  sa    : BitVec 5
  sc    : BitVec 5
  sd    : BitVec 5
  sab   : BitVec 5
  shape : BitVec 3
  seg   : BitVec 2
  rnd   : BitVec 2
  sat   : Bool
  zero  : Bool
  flush : Bool
  rsvHi : BitVec 3
  wbase : BitVec 8
  rsvLo : BitVec 8
  deriving DecidableEq, Repr

/-- Fields of LOADW (R92). -/
structure LoadwF where
  sb    : BitVec 5
  skn   : BitVec 5
  shape : BitVec 3
  seg   : BitVec 2
  rsv   : BitVec 39
  deriving DecidableEq, Repr

/-- Fields of SWAP (R92). -/
structure SwapF where
  seg : BitVec 2
  rsv : BitVec 52
  deriving DecidableEq, Repr

/-- The SEQ and the tag of a message that takes its turn (R167, R170). -/
structure SeqTag where
  seq : Nat
  tag : Nat
  deriving DecidableEq, Repr

/-- Whose message of a sub-command it is (R77, R170): the device that sent it, the burgee, and its SEQ and tag. -/
structure SubFrom where
  device : Nat
  burgee : Nat
  turn    : SeqTag
  deriving DecidableEq, Repr

/-- A fabric request as it reaches its home (R160, R162, R167). `size` is SIZE + 1; `data` holds the operand bytes from
the first data byte on (compare-swap: the compare value, then the new value); `rsvZero` says that every reserved bit
is zero; `tie` that another member square's operation was ready for the same granule in the same cycle (R335). -/
structure FabReq where
  src     : Nat
  burgee  : Nat
  seq     : Nat
  retry   : Bool
  radio   : Bool
  rsvZero : Bool
  addr    : Word
  size    : Nat
  fmt     : Nat
  payload : List Granule
  tag     : Nat
  watch   : Bool
  tie     : Bool
  deriving DecidableEq, Repr

/-- A response as it reaches the source hub (R161, R167). `src` is the device that answers, `gen` the write generation that
comes with the data of a watched read (R127). -/
structure FabResp where
  src      : Nat
  tag      : Nat
  status   : Nat
  path     : Nat
  aflags   : Nat
  payload  : List Granule
  combined : Bool
  gen      : Option Nat
  deriving DecidableEq, Repr

/-- One constituent of a combined request (R167). `bad` says that the entry granule that carries it is poisoned. -/
structure CombinePart where
  src    : Nat
  burgee : Nat
  seq    : Nat
  tag    : Nat
  data   : List Byte
  bad    : Bool
  deriving DecidableEq, Repr

/-- A received flit (R182): the 32 control bytes and the 16 slots' codewords. -/
structure Flit where
  ctl   : List Byte
  slots : List Granule
  deriving DecidableEq, Repr

/-- What is measured of one wavelength (R200). -/
structure WaveRaw where
  rxPower   : Int
  margin    : Int
  bias      : Nat
  preFec    : Nat
  deriving DecidableEq, Repr

/-- One wavelength's figures (R200, R201). -/
structure WaveMeasure where
  rxPower   : Int
  margin    : Int
  bias      : Nat
  biasTrend : Int
  preFec    : Nat
  deriving DecidableEq, Repr

/-- A request or a response as it travels (R167): the fields of its header granule, its entries, and its payload granules. `size` is the SIZE field, `dests` the
multicast entries as (device, SEQ), `parts` the combine constituents. `watch` and `gen` are of watched reads, for which the header has no place (assumption 127).
`rsvZero` says that every reserved bit is zero. -/
structure Wire where
  opcode   : Nat
  vc       : Nat
  retry    : Bool := false
  held     : Nat := 0
  combined : Bool := false
  size     : Nat := 0
  fmt      : Nat := 0
  src      : Nat
  dst      : Nat
  burgee   : Nat := 0
  aflags   : Nat := 0
  seq      : Nat := 0
  addr     : Word := 0
  tag      : Nat := 0
  group    : Nat := 0
  dests    : List (Nat × Nat) := []
  parts    : List CombinePart := []
  payload  : List Granule := []
  watch    : Bool := false
  gen      : Option Nat := none
  rsvZero  : Bool := true
  deriving DecidableEq, Repr

/-- A level of a board tree as a square below it sees it (R74, R77): `me` is the member through which the way leads, `members` the
places of each member's squares in order, as (device, logical square). -/
structure Level where
  level        : Nat
  split        : Nat
  reduceRoot   : Nat
  reduceRemote : Bool
  me           : Nat
  members      : List (List (Nat × Nat))
  deriving DecidableEq, Repr

/-- A sub-command that a remote device's board receives (R77). `origin` is the device that issued the board command and its number there;
`m`, `n`, `k` are the ranges as (base, length) and `last` the split whose range s1 and s2 hold (R73); `above` are the levels above the board,
outermost first. What its message holds the spec does not lay out (assumption 111). -/
structure SubCmd where
  src       : Nat
  srcCmd    : Nat
  origin    : Nat × Nat
  board     : Nat
  burgee    : Nat
  cls       : Nat
  tag       : BitVec 32
  desc      : Nat
  m         : Nat × Nat
  n         : Nat × Nat
  k         : Nat × Nat
  last      : Nat
  isRoot    : Bool
  above     : List Level
  squares   : Nat
  energyUj  : Nat
  boundUs   : Nat
  deriving DecidableEq, Repr

/-- A sub-command as it arrives (R77): the SEQ and the tag of its message, and what it says. -/
structure SubArrival where
  turn : SeqTag
  sc  : SubCmd
  deriving DecidableEq, Repr

/-- What a remote member's end carries back (R79, R129, R335, R350). `streams` are the counts of its streams in the order of R320. -/
structure SubEnd where
  status   : Nat
  reason   : Nat
  aflags   : Nat
  sq       : Nat
  steals   : Nat
  combines : Nat
  ties     : Nat
  routes   : Nat
  falls    : Nat
  replay   : Bool
  energyUj : Nat
  streams  : List (Nat × List Nat)
  deriving DecidableEq, Repr

/-- What a sub-command message says (R77, R78, R79): a member's sub-command, its end, or that it is cancelled. -/
inductive SubMsg where
  | start (sc : SubCmd)
  | ended (cmd : Nat) (r : SubEnd)
  | cancel (cmd : Nat)
  deriving DecidableEq, Repr

/-- A PRACH format of TS 38.211: a long one by number, or a short one by letter and number (R204). -/
inductive PrachFormat where
  | long (n : Nat)
  | shortA (n : Nat)
  | shortB (n : Nat)
  | shortC (n : Nat)
  deriving DecidableEq, Repr

/-- What a CONFIG.request asks of the physical layer beyond the compared fields (R204): frequency range 2, extended cyclic prefix, supplementary uplink, the SSB
case (0 to 4 for A to E), and each PRACH format with its restricted set (0 none, 1 type A, 2 type B). -/
structure CellExtras where
  fr2     : Bool
  longCp  : Bool
  sul     : Bool
  ssbCase : Nat
  prach   : List (PrachFormat × Nat)
  deriving DecidableEq, Repr

/-- A CONFIG.request (R204, R211): the compared fields, the further ones that chapter 9 limits, and the vendor TLVs (tag, value). -/
structure ConfigReq where
  bwMhz  : Nat
  scs    : Nat
  tx     : Nat
  rx     : Nat
  duplex : Nat
  extras : CellExtras
  tlvs   : List (Nat × Int)
  deriving DecidableEq, Repr

/-- A codeword of a downlink PDU (R214, R215): bits of a modulation symbol, coded bits, the start of its scrambling sequence, its LDPC base graph and lifting
size, its redundancy version, and the limited buffer, if the PDU asks for one. -/
structure DlWord where
  qm    : Nat
  coded : Nat
  cInit : Nat
  graph : Nat
  zc    : Nat
  rv    : Nat
  nRef  : Option Nat
  deriving DecidableEq, Repr

/-- A PDU of a DL_TTI.request or UL_DCI.request (R204, R212, R214). A `pdsch` needs a TX_Data payload; any other, PDCCH and PBCH, carries its payload itself. -/
structure DlPdu where
  id       : Nat
  pdsch    : Bool
  words    : List DlWord
  layers   : Nat
  dmrsType : Nat
  dmrsPorts : Nat
  payload  : List Byte
  deriving DecidableEq, Repr

/-- A payload of a TX_Data.request: inline bytes, or a pointer (offset, bytes) (R209). -/
structure TxPdu where
  id      : Nat
  bytes   : List Byte
  pointer : Option (Nat × Nat)
  poison  : Bool
  deriving DecidableEq, Repr

/-- What an uplink allocation is for (R222). -/
inductive AllocKind where
  | pusch | pucch | srs | prach
  deriving DecidableEq, Repr

/-- One allocation of an UL_TTI.request. `needs` names, for each code block, the last symbol that its LLRs need, its DMRS symbols among them (R217); the last
symbol of the allocation where it is not listed. `qm`, `layers` and `dfts` are those of a PUSCH, `format` that of a PUCCH, `ports` and `comb` those of an SRS
(R204). -/
structure UlAlloc where
  id       : Nat
  kind     : AllocKind
  ue       : Nat
  harq     : Nat
  newData  : Bool
  blocks   : Nat
  needs    : List Nat
  qm       : Nat
  layers   : Nat
  dfts     : Bool
  format   : Nat
  ports    : Nat
  comb     : Nat
  prach    : PrachFormat
  ncb      : Nat
  rows     : Nat
  zc       : Nat
  firstSym : Nat
  lastSym  : Nat
  deriving DecidableEq, Repr

/-- One PRB of one symbol of one stream: 24 values, I and Q of 12 resource elements (R240). -/
structure Prb where
  vals   : List Int
  poison : Bool
  deriving DecidableEq, Repr

/-- A received fronthaul frame (R236, R238, R242). Each compressed PRB is its exponent and its mantissas; `power` is the symbol's RMS below full
scale in sixteenths of a dB, `whole` that the stream's symbol is complete with this frame, `prach` that it carries a PRACH occasion. -/
structure UplaneFrame where
  prach   : Bool
  port    : Nat
  sub     : Nat
  fcsOk   : Bool
  ecpri   : Bool
  frag    : Bool
  vid     : Nat
  pcp     : Nat
  eaxc    : Nat
  uplink  : Bool
  seqId   : Nat
  slot    : Nat
  symbol  : Nat
  gridOk  : Bool
  prbs    : List (Nat × List Int)
  poison  : List Nat
  power   : Nat
  whole   : Bool
  deriving DecidableEq, Repr

/-- A preamble that the PRACH engine found (R221): its index, timing advance, power, and level over the noise floor in 0.1 dB. -/
structure Preamble where
  index : Nat
  ta    : Int
  power : Int
  level : Int
  deriving DecidableEq, Repr

/-- What the SRS engine reports of one resource (R221): the channel matrix, I and Q in turn, and the timing advance. -/
structure SrsReport where
  alloc   : Nat
  channel : List Int
  ta      : Int
  deriving DecidableEq, Repr

/-- What the UCI engine reports of one PUCCH PDU (R221): the bits of HARQ-ACK, SR and CSI, timing advance and RSSI. -/
structure UciReport where
  alloc   : Nat
  harqAck : List Bool
  sr      : List Bool
  csi     : List Bool
  ta      : Int
  rssi    : Int
  deriving DecidableEq, Repr

/-- What a decoder hands over with a code block (R217, R219): the LLRs of this transmission, and the bits it decoded. -/
structure DecodedBits where
  llrs : List Byte
  data : List Byte
  deriving DecidableEq, Repr

/-- What a dedicated uplink engine has found in a slot (R221). -/
inductive EngineReport where
  | prach (found : List Preamble)
  | srs (l : List SrsReport)
  | uci (l : List UciReport)
  deriving DecidableEq, Repr

/-- What held a command that missed its latency target (R288, R293). -/
structure MissCause where
  cause   : Nat
  detail0 : Nat
  detail1 : Nat
  deriving DecidableEq, Repr

/-- A floor shortfall of one partition at one arbitration point over a 100 µs interval (R278). -/
structure Shortfall where
  part    : Nat
  point   : Nat
  bytes   : Nat
  byRadio : Bool
  waiting : List Nat
  deriving DecidableEq, Repr

/-- A host register access: BAR number, byte offset, bytes (R305, R306). -/
structure RegAccess where
  pasid  : Pasid
  bar    : Nat
  offset : Nat
  size   : Nat
  deriving DecidableEq, Repr

/-- Energy attributed to one command in a reconcile interval, in µJ, by the domains of R357 that it was spent in (R349, R354). -/
structure EnergyDraw where
  cmd    : Nat
  arrays : Nat
  towers : Nat
  links  : Nat
  deriving DecidableEq, Repr

/-- How a boot step ended (R452, R453). -/
inductive BootResult where
  | done (us : Nat)
  | imageInvalid
  | train (results : List (Nat × Bool))
  | engineFailed (engines : List Nat)
  | modules (up : Nat) (failed : List Nat)
  deriving DecidableEq, Repr

/-- The commands, in the order of the table. Each docstring is the row's summary and its rule. -/
inductive Instr where
  /-- LOAD: A write of LOAD to HLY_HOIST_CMD checks BUSY and life-cycle state, then starts copying the hoist image into the Halyard hoist buffer. (R41) -/
  | load (p : Pasid)
  /-- CLEAR: A write of CLEAR to HLY_HOIST_CMD, accepted only in ACTIVE with every tenant burgee FREE and every cell stopped, starts wiping all scratchpads and tower memory. (R44) -/
  | clear (p : Pasid)
  /-- CLEAR_WIPE_DONE: The CLEAR wipe completes, the configuration in force is discarded and the device returns to IDLE. (R44) -/
  | clearWipeDone
  /-- HOIST_COPY_DONE: The image copy into the hoist buffer completes, COPYING ends and verification begins. (R41) -/
  | hoistCopyDone (bytes : List Byte) (poison : List Nat)
  /-- HOIST_VERIFIED: Verification finishes the ordered checks and either refuses the image with a code and record index or begins the hold step. (R42) -/
  | hoistVerified
  /-- HOIST_HOLD_DRAINED: The last executing command on the held boards ends, so the switch step can begin. (R47) -/
  | hoistHoldDrained
  /-- HOIST_BOARD_SWITCH: An affected turn-table board reaches its cycle boundary and switches to the new configuration; the held boards switch once the last such board has switched. (R47) -/
  | hoistBoardSwitch (board : Nat)
  /-- HOIST_HOLD_TIMEOUT: The hold has not ended within 1 s, so the hoist is abandoned with ABANDONED and the held boards are released. (R49) -/
  | hoistHoldTimeout
  /-- NOP: Scalar no-operation. (R461) -/
  | nop (c : CtxRef) (f : ScalarF)
  /-- TRAP: Faults the context with USER and IMM32 as detail. (R462) -/
  | trap (c : CtxRef) (f : ScalarF)
  /-- END: Ends the member's sub-command after write streams have performed their popped writes and dirty data-cache lines are written back. (R118) -/
  | endK (c : CtxRef) (f : ScalarF) (steal : Nat)
  /-- RDCSR: Writes TIME_LO, CYCLE, SQ, SLOT or ROLL, as IMM32 selects, to SD. (R461) -/
  | rdcsr (c : CtxRef) (f : ScalarF) (cycle : BitVec 64)
  /-- LIL: Writes IMM32 to SD[31:0]. (R462) -/
  | lil (c : CtxRef) (f : ScalarF)
  /-- LIH: Writes IMM32 to SD[63:32]. (R462) -/
  | lih (c : CtxRef) (f : ScalarF)
  /-- LOOP: Starts a zero-overhead hardware loop of s[SA] iterations over IMM32 instructions. (R462) -/
  | loop (c : CtxRef) (f : ScalarF)
  /-- ADD: 64-bit wrapping add of two registers. (R462) -/
  | add (c : CtxRef) (f : ScalarF)
  /-- SUB: 64-bit wrapping subtract of two registers. (R462) -/
  | sub (c : CtxRef) (f : ScalarF)
  /-- MUL: Low 64 bits of the product of two registers. (R462) -/
  | mul (c : CtxRef) (f : ScalarF)
  /-- AND: Bitwise AND of two registers. (R462) -/
  | andR (c : CtxRef) (f : ScalarF)
  /-- OR: Bitwise OR of two registers. (R462) -/
  | orR (c : CtxRef) (f : ScalarF)
  /-- XOR: Bitwise XOR of two registers. (R462) -/
  | xorR (c : CtxRef) (f : ScalarF)
  /-- SHL: Left shift by the low 6 bits of the second register. (R462) -/
  | shl (c : CtxRef) (f : ScalarF)
  /-- SHR: Logical right shift by the low 6 bits of the second register. (R462) -/
  | shr (c : CtxRef) (f : ScalarF)
  /-- SRA: Arithmetic right shift by the low 6 bits of the second register. (R462) -/
  | sra (c : CtxRef) (f : ScalarF)
  /-- MIN: Signed minimum of two registers. (R462) -/
  | minR (c : CtxRef) (f : ScalarF)
  /-- MAX: Signed maximum of two registers. (R462) -/
  | maxR (c : CtxRef) (f : ScalarF)
  /-- SLT: Writes 1 if s[SA] is signed-less than s[SB], else 0. (R462) -/
  | slt (c : CtxRef) (f : ScalarF)
  /-- ADDI: Add with a sign-extended immediate. (R462) -/
  | addi (c : CtxRef) (f : ScalarF)
  /-- SUBI: Subtract with a sign-extended immediate. (R462) -/
  | subi (c : CtxRef) (f : ScalarF)
  /-- MULI: Multiply with a sign-extended immediate. (R462) -/
  | muli (c : CtxRef) (f : ScalarF)
  /-- ANDI: AND with a sign-extended immediate. (R462) -/
  | andi (c : CtxRef) (f : ScalarF)
  /-- ORI: OR with a sign-extended immediate. (R462) -/
  | ori (c : CtxRef) (f : ScalarF)
  /-- XORI: XOR with a sign-extended immediate. (R462) -/
  | xori (c : CtxRef) (f : ScalarF)
  /-- SHLI: Left shift by an immediate. (R462) -/
  | shli (c : CtxRef) (f : ScalarF)
  /-- SHRI: Logical right shift by an immediate. (R462) -/
  | shri (c : CtxRef) (f : ScalarF)
  /-- SRAI: Arithmetic right shift by an immediate. (R462) -/
  | srai (c : CtxRef) (f : ScalarF)
  /-- MINI: Signed minimum with an immediate. (R462) -/
  | mini (c : CtxRef) (f : ScalarF)
  /-- MAXI: Signed maximum with an immediate. (R462) -/
  | maxi (c : CtxRef) (f : ScalarF)
  /-- SLTI: Signed set-less-than with an immediate. (R462) -/
  | slti (c : CtxRef) (f : ScalarF)
  /-- LD8: Loads one byte from device memory through the data cache, zero-extended. (R462) -/
  | ld8 (c : CtxRef) (f : ScalarF)
  /-- LD16: Loads 16 bits from device memory through the data cache. (R462) -/
  | ld16 (c : CtxRef) (f : ScalarF)
  /-- LD32: Loads 32 bits from device memory through the data cache. (R462) -/
  | ld32 (c : CtxRef) (f : ScalarF)
  /-- LD64: Loads 64 bits from device memory through the data cache. (R462) -/
  | ld64 (c : CtxRef) (f : ScalarF)
  /-- ST8: Stores one byte to device memory through the data cache. (R462) -/
  | st8 (c : CtxRef) (f : ScalarF)
  /-- ST16: Stores 16 bits to device memory through the data cache. (R462) -/
  | st16 (c : CtxRef) (f : ScalarF)
  /-- ST32: Stores 32 bits to device memory through the data cache. (R462) -/
  | st32 (c : CtxRef) (f : ScalarF)
  /-- ST64: Stores 64 bits to device memory through the data cache. (R462) -/
  | st64 (c : CtxRef) (f : ScalarF)
  /-- DATA_CACHE_LINE_FILL: A data-cache miss's line arrives and is checked and corrected, with poisoned granules marked, and the waiting scalar load completes or faults. (R140) -/
  | dataCacheLineFill (c : CtxRef) (victim : Nat) (upset : List Upset)
  /-- BEQ: Branches if s[SA] equals s[SB]. (R462) -/
  | beq (c : CtxRef) (f : ScalarF)
  /-- BNE: Branches if s[SA] differs from s[SB]. (R462) -/
  | bne (c : CtxRef) (f : ScalarF)
  /-- BLT: Branches if s[SA] is signed-less than s[SB]. (R462) -/
  | blt (c : CtxRef) (f : ScalarF)
  /-- BGE: Branches if s[SA] is signed-greater-or-equal to s[SB]. (R462) -/
  | bge (c : CtxRef) (f : ScalarF)
  /-- J: Unconditional relative jump. (R462) -/
  | jump (c : CtxRef) (f : ScalarF)
  /-- CALL: Pushes the return offset onto the call stack and jumps. (R462) -/
  | call (c : CtxRef) (f : ScalarF)
  /-- RET: Pops the call stack and continues at that offset. (R462) -/
  | ret (c : CtxRef) (f : ScalarF)
  /-- QWAIT: Stalls until the inbound queue holds COUNT entries or the outbound queue has COUNT free. (R63) -/
  | qwait (c : CtxRef) (f : QueueF)
  /-- QDROP: Discards COUNT entries of an inbound queue. (R63) -/
  | qdrop (c : CtxRef) (f : QueueF)
  /-- QSTAT: Writes the queue occupancy, LAST presence and stream-closed bit to SD. (R63) -/
  | qstat (c : CtxRef) (f : QueueF)
  /-- QPUSH: Pushes COUNT granules from the share onto an outbound queue. (R63) -/
  | qpush (c : CtxRef) (f : QueueF)
  /-- QPOP: Pops COUNT granules from an inbound queue into the share. (R63) -/
  | qpop (c : CtxRef) (f : QueueF)
  /-- QUEUE_STALL_RESUME: A queue that a stalled instruction waits on gains the entries or room it needs, and the stalled instruction proceeds. (R64) -/
  | queueStallResume (c : CtxRef) (cycles : Nat)
  /-- VADD: Lane-wise add. (R65) -/
  | vadd (c : CtxRef) (f : VecF)
  /-- VSUB: Lane-wise subtract. (R65) -/
  | vsub (c : CtxRef) (f : VecF)
  /-- VMUL: Lane-wise multiply. (R65) -/
  | vmul (c : CtxRef) (f : VecF)
  /-- VFMA: Lane-wise fused multiply-add with one rounding. (R65) -/
  | vfma (c : CtxRef) (f : VecF)
  /-- VMAX: Lane-wise maximumNumber. (R66) -/
  | vmax (c : CtxRef) (f : VecF)
  /-- VMIN: Lane-wise minimumNumber. (R66) -/
  | vmin (c : CtxRef) (f : VecF)
  /-- VABS: Lane-wise absolute value. (R65) -/
  | vabs (c : CtxRef) (f : VecF)
  /-- VNEG: Lane-wise negation. (R65) -/
  | vneg (c : CtxRef) (f : VecF)
  /-- VCVT: Converts lanes between formats, saturating integer results. (R65) -/
  | vcvt (c : CtxRef) (f : VecF)
  /-- VCMP: Writes a lane-wise comparison into a predicate register. (R65) -/
  | vcmp (c : CtxRef) (f : VecF)
  /-- VSEL: Selects VA or VB per lane by predicate. (R65) -/
  | vsel (c : CtxRef) (f : VecF)
  /-- VEXP: Table-based exponential. (R66) -/
  | vexp (c : CtxRef) (f : VecF)
  /-- VLOG: Table-based logarithm. (R66) -/
  | vlog (c : CtxRef) (f : VecF)
  /-- VRCP: Table-based reciprocal. (R66) -/
  | vrcp (c : CtxRef) (f : VecF)
  /-- VRSQ: Table-based reciprocal square root. (R66) -/
  | vrsq (c : CtxRef) (f : VecF)
  /-- VTANH: Table-based hyperbolic tangent. (R66) -/
  | vtanh (c : CtxRef) (f : VecF)
  /-- VSIG: Table-based sigmoid. (R66) -/
  | vsig (c : CtxRef) (f : VecF)
  /-- VRSUM: Sums all lanes in a fixed pairwise tree into lane 0. (R66) -/
  | vrsum (c : CtxRef) (f : VecF)
  /-- VRMAX: Writes the largest lane to lane 0 and its index to s[SREG]. (R66) -/
  | vrmax (c : CtxRef) (f : VecF)
  /-- VPERM: Reverses, interleaves or rotates lanes. (R65) -/
  | vperm (c : CtxRef) (f : VecF)
  /-- VLD: Loads 512 bytes from the share into a vector register. (R65) -/
  | vld (c : CtxRef) (f : VecF)
  /-- VST: Stores predicated lanes to the share. (R65) -/
  | vst (c : CtxRef) (f : VecF)
  /-- VSHIFT: Integer lane shift. (R65) -/
  | vshift (c : CtxRef) (f : VecF)
  /-- VLOGIC: Integer lane bitwise logic. (R65) -/
  | vlogic (c : CtxRef) (f : VecF)
  /-- WAITSEM: Starts waiting until a 64-bit semaphore compares true with s[SB]. (R67) -/
  | waitsem (c : CtxRef) (f : SyncF)
  /-- WAITSEM_SATISFIED: The awaited semaphore compares true, the context's data-cache lines are invalidated and the context continues. (R57) -/
  | waitsemSatisfied (c : CtxRef)
  /-- SIGNALSEM: After every earlier write of the context is performed, writes or atomically adds to a semaphore. (R67) -/
  | signalsem (c : CtxRef) (f : SyncF)
  /-- BARRIER: Stalls until every member at LEVEL reaches a barrier with the same ID. (R67) -/
  | barrier (c : CtxRef) (f : SyncF)
  /-- BARRIER_COMPLETE: The last member arrives and all waiting members continue, or a mismatch faults. (R67) -/
  | barrierComplete (c : BarrierMet)
  /-- FENCE: Orders scratchpad writes, waits for device-memory writes, or waits for all earlier fabric operations, by MODE. (R67) -/
  | fence (c : CtxRef) (f : SyncF)
  /-- CHECKGEN: Waits for the stream's watched reads, then sends generation queries for every watched page. (R128) -/
  | checkgen (c : CtxRef) (f : SyncF)
  /-- GENERATION_QUERY: A home answers a query with a page's current write generation, after earlier stores of the same burgee. (R128) -/
  | generationQuery (src : Nat) (burgee : Nat) (tag : SeqTag) (page : Nat)
  /-- CHECKGEN_RESULT: All homes have answered, so CHECKGEN writes its result, bumps STALE, and clears the watch list. (R128) -/
  | checkgenResult (c : CtxRef) (remote : List (Nat × Nat))
  /-- REDUCE: Combines the members' tensors into the root by the binomial tree. (R74) -/
  | reduce (c : CtxRef) (f : ReduceF)
  /-- ALLREDUCE: Reduces to the root, then copies the result to every member. (R68) -/
  | allreduce (c : CtxRef) (f : ReduceF)
  /-- BCAST: Copies the root's source to every member. (R68) -/
  | bcast (c : CtxRef) (f : ReduceF)
  /-- REDUCE_TREE_STEP: Once all reductions sent to a receiver are acknowledged, it performs its own sending step of the tree. (R75) -/
  | reduceTreeStep (c : TreeStep)
  /-- MMT: Folds a logical tile onto the array as LOADW, SWAP and MMP steps in the chosen shape. (R95) -/
  | mmt (c : CtxRef) (f : MmtF)
  /-- MMP: Streams M rows of A through the front set into bank rows, with optional ZERO and FLUSH. (R91) -/
  | mmp (c : CtxRef) (f : MmpF)
  /-- MMP_TILE_COMPLETE: A tile's sums reach the accumulator bank and any FLUSH converts and writes its outputs. (R88) -/
  | mmpTileComplete (c : CtxRef)
  /-- LOADW: Fills the back stationary set with a block of B. (R92) -/
  | loadw (c : CtxRef) (f : LoadwF)
  /-- SWAP: Once the back set is complete, exchanges front and back sets in the context's columns. (R82) -/
  | swap (c : CtxRef) (f : SwapF)
  /-- SHAPE_SWITCH: The array has drained, so it switches shape in 8 cycles and zeroes both stationary sets and bank halves. (R84) -/
  | shapeSwitch (sq : Nat) (shape : Nat)
  /-- KERNEL_LAUNCH: A member square checks the kernel descriptor and stream table, sets launch registers and starts the context. (R463) -/
  | kernelLaunch (c : CtxRef) (cmd : Nat)
  /-- SHARE_WIPE_DONE: A torn-down context's share wipe completes, so its slot can take the burgee's next command. (R291) -/
  | shareWipeDone (c : CtxRef)
  /-- ACCESS_REQUEST_ISSUE: The access engine issues one ready request per cycle, rotating over contexts and streams, once every tag limit has room. (R123) -/
  | accessRequestIssue (psq : Nat)
  /-- STREAM_READ_REPLY: Read data arrives into a queue or share, freeing its tag and possibly closing the stream. (R126) -/
  | streamReadReply (psq : Nat) (tag : Nat) (upset : List Upset) (timing : BurstTiming)
  /-- STREAM_WRITE_ACK: A write acknowledgment frees its tag and possibly closes the write stream. (R118) -/
  | streamWriteAck (psq : Nat) (tag : WriteBurst)
  /-- HELD_REQUEST_ADMIT: An entry leaves a full bank queue and a held request is let in, rotating over squares and the hub. (R124) -/
  | heldRequestAdmit (bank : Nat)
  /-- CHANNEL_FRAME_START: A channel frame of 64 slots starts at every whole 8 µs of device time. (R144) -/
  | channelFrameStart
  /-- REFRESH_SLOT: Slot 62 of a frame carries refresh on every channel. (R144) -/
  | refreshSlot
  /-- CALIBRATION_SLOT: Slot 63 carries calibration with incremental retraining, or patrol scrub and a second refresh when hot. (R149) -/
  | calibrationSlot (lost : List Nat)
  /-- TOWER_PATROL_SCRUB: Every 200 µs per data channel, one granule is scrub-read and corrected or written back poisoned. (R146) -/
  | towerPatrolScrub (ch : Nat) (upset : Upset)
  /-- SCRATCHPAD_SCRUB: Every 1 ms per bank, one scratchpad granule is scrubbed. (R146) -/
  | scratchpadScrub (psq : Nat) (bank : Nat) (upset : Upset)
  /-- HALYARD_SRAM_SCRUB: Every 8 µs, one Halyard SRAM granule is scrubbed. (R146) -/
  | halyardSramScrub (upset : Upset)
  /-- DEMAND_SCRUB: A tower read with a non-zero syndrome causes that granule to be scrubbed at once, and the write-back is discarded if a write has since entered the bank queue. (R147) -/
  | demandScrub (ch : Nat) (granule : Nat) (upset : Upset)
  /-- CHANNEL_RETRAIN_DONE: A retrain attempt ends: the channel runs again, or after three failures MEM_TRAIN_FAIL halts the device. (R149) -/
  | channelRetrainDone (ch : Nat) (ok : Bool) (step : Nat)
  /-- MEM_CORR_SUMMARY: Every 60 s in which corrections occurred, a summary record is written. (R151) -/
  | memCorrSummary
  /-- MEM_DQ_DEGRADED: A DQ has exceeded 1,000 corrected symbols per second for 10 s. (R151) -/
  | memDqDegraded (ch : Nat) (dq : Nat)
  /-- MEM_STATUS: Mailbox request returning 42 channel status records. (R150) -/
  | memStatus (p : Pasid) (len : Nat)
  /-- OPERATION_WINDOW_WRITE: A granule written to a stream's operation-window address is assembled by the hub into an operation, which is sent once complete. (R159) -/
  | operationWindowWrite (c : CtxRef) (stream : Nat) (addr : Nat) (g : Granule)
  /-- FABRIC_REQUEST_SEND: The source hub sends a request, once it holds a credit, with the next SEQ toward the destination and a route choice. (R170) -/
  | fabricRequestSend (id : Nat)
  /-- FABRIC_LOAD: A LOAD request reaches its home, is checked and performed in SEQ order, and is answered with read data. (R162) -/
  | fabricLoad (r : FabReq)
  /-- FABRIC_STORE: A STORE request reaches its home and is performed and acknowledged. (R162) -/
  | fabricStore (r : FabReq)
  /-- MSTORE: A multicast store is forwarded per link and performed at each destination, each acknowledging to the source. (R165) -/
  | mstore (r : FabReq) (dests : McastDests)
  /-- FABRIC_SWAP: A SWAP atomic is performed at the home and returns the old value. (R163) -/
  | fabricSwap (r : FabReq)
  /-- CAS: A compare-swap atomic is performed at the home. (R163) -/
  | cas (r : FabReq)
  /-- FADD: A fetch-add atomic is performed at the home. (R163) -/
  | fadd (r : FabReq)
  /-- FMIN: A fetch-min atomic is performed at the home. (R163) -/
  | fmin (r : FabReq)
  /-- FMAX: A fetch-max atomic is performed at the home. (R163) -/
  | fmax (r : FabReq)
  /-- FAND: A fetch-AND atomic is performed at the home. (R163) -/
  | fand (r : FabReq)
  /-- FOR: A fetch-OR atomic is performed at the home. (R163) -/
  | forA (r : FabReq)
  /-- FXOR: A fetch-XOR atomic is performed at the home. (R163) -/
  | fxor (r : FabReq)
  /-- RADD: An add reduction is applied element-wise at the home and acknowledged. (R164) -/
  | radd (r : FabReq)
  /-- RMIN: A min reduction is applied at the home. (R164) -/
  | rmin (r : FabReq)
  /-- RMAX: A max reduction is applied at the home. (R164) -/
  | rmax (r : FabReq)
  /-- RLADD: A long-accumulator add reduction is applied at the home. (R164) -/
  | rladd (r : FabReq)
  /-- SUB_COMMAND: A remote device receives a board sub-command and runs admission steps 3 to 6 against its own hoist for the same-number burgee. (R77) -/
  | subCommand (sc : SubArrival)
  /-- SUB_COMMAND_END: A remote member's sub-command ends and its completion and roll counts reach the issuing device. (R335) -/
  | subCommandEnd (cmd : Nat) (device : SubFrom) (r : SubEnd)
  /-- READ_DATA: A read-data response reaches the source hub, returns its tag and credit, and delivers data or a reply area. (R161) -/
  | readData (r : FabResp)
  /-- ATOMIC_DATA: An atomic-data response reaches the source hub and writes the reply area. (R161) -/
  | atomicData (r : FabResp)
  /-- ACKNOWLEDGMENT: An acknowledgment reaches the source hub, returns the credit and ORs AFLAGS into the command. (R161) -/
  | acknowledgment (r : FabResp)
  /-- REQUEST_FORWARD: A router receives a message for another device and picks a live link, or opens or joins a combine entry. (R195) -/
  | requestForward (m : Wire)
  /-- COMBINE_WINDOW_CLOSE: A combine entry's window closes and the router forwards a combined request or the single request with HELD raised. (R172) -/
  | combineWindowClose (entry : Nat)
  /-- COMBINED_REQUEST: The home applies each constituent in order as one sequence, records replay entries and returns combined data. (R173) -/
  | combinedRequest (opcode : Nat) (r : FabReq) (parts : List CombinePart)
  /-- COMBINED_DATA: The combining router rebuilds and sends each constituent's reply with COMBINED set. (R173) -/
  | combinedData (entry : Nat) (r : FabResp)
  /-- REQUEST_RETRANSMIT: A request unanswered for 50 µs is resent with its SEQ and RETRY set. (R176) -/
  | requestRetransmit (id : Nat)
  /-- FLIT_RECEIVE: A flit is received and accepted or refused with NAK; credits and ACK are taken and its slots are forwarded. (R184) -/
  | flitReceive (link : Nat) (flit : Flit) (badCw : Nat)
  /-- LINK_PROBE: A DOWN link with a role lights all wavelengths for at most 2 ms, no sooner than 100 s after its last probe. (R190) -/
  | linkProbe (link : Nat)
  /-- PROBE_TIMEOUT: A probe sees no far-end return within 2 ms and the link returns to DOWN. (R187) -/
  | probeTimeout (link : Nat)
  /-- LIGHT_DETECTED: Light above −14 dBm for 100 µs moves a DOWN link to ANSWER. (R187) -/
  | lightDetected (link : Nat)
  /-- FAR_END_RETURN: Return light appears and the link enters TRAIN. (R187) -/
  | farEndReturn (link : Nat)
  /-- LINK_TRAINING_DONE: FEC lock and lane deskew complete and the link enters VERIFY. (R187) -/
  | linkTrainingDone (link : Nat)
  /-- LINK_IDENTITY: The peer's identity arrives in VERIFY, and the link enters UP on a match or FAILED on a mismatch. (R193) -/
  | linkIdentity (link : Nat) (serial : BitVec 64) (device : Nat) (peerLink : Nat)
  /-- AUTOMATIC_POWER_REDUCTION: No far-end light for 100 µs cuts every wavelength; the link leaves UP and is removed from route entries. (R189) -/
  | automaticPowerReduction (link : Nat)
  /-- ENGINE_FAILOVER: A fatal engine fault, or three links of one engine leaving UP within 1 s, fails the engine over to O8 and drives the selector balls. (R199) -/
  | engineFailover (engine : Nat) (fatal : Bool) (us : Nat)
  /-- SPARE_SELECTOR_SETTLED: The optical selector settles and O8's carrier links begin bring-up. (R198) -/
  | spareSelectorSettled
  /-- LINK_MARGIN_MEASURE: Once per second, each UP link measures power, margin, bias and pre-FEC error per wavelength. (R200) -/
  | linkMarginMeasure (link : Nat) (waves : List WaveRaw)
  /-- LINK_MARGIN: A wavelength's margin has been below 2.0 dB for 60 s. (R202) -/
  | linkMargin (link : Nat) (wave : Nat)
  /-- LINK_PRE_FEC: PRE_FEC has been below 500 for 10 s. (R202) -/
  | linkPreFec (link : Nat) (wave : Nat)
  /-- LINK_STATUS: Mailbox request returning 72 link records. (R201) -/
  | linkStatus (p : Pasid) (len : Nat)
  /-- CELL_DOORBELL: A TARGET 1 doorbell with a CELL_ID starts the cell's ring directory read the first time after a hoist. (R207) -/
  | cellDoorbell (p : Pasid) (page : Nat) (value : BitVec 32)
  /-- SLOT_BOUNDARY: At each slot boundary of a running cell, the device reads DL_WRITE, takes messages for slot m + 2 or later, discards late ones and writes SLOT.indication. (R212) -/
  | slotBoundary (cell : Nat) (slot : Nat)
  /-- CONFIG_REQUEST: CONFIG.request is checked against the RADIO entry and TLV limits and answered with CONFIG.response. (R211) -/
  | configRequest (cell : Nat) (r : ConfigReq)
  /-- START_REQUEST: START.request is accepted in CONFIGURED and not in FREERUN or ACQUIRING, and takes effect at the next even-SFN slot boundary. (R210) -/
  | startRequest (cell : Nat)
  /-- STOP_REQUEST: STOP.request stops the cell at the next slot boundary, delivers pending indications, then STOP.indication. (R233) -/
  | stopRequest (cell : Nat)
  /-- DL_TTI_REQUEST: A DL_TTI.request schedules downlink PDUs through the encode, map and precode chain for its slot. (R214) -/
  | dlTtiRequest (cell : Nat) (slot : Nat) (pdus : List DlPdu)
  /-- UL_TTI_REQUEST: An UL_TTI.request schedules uplink allocations for its slot. (R217) -/
  | ulTtiRequest (cell : Nat) (slot : Nat) (allocs : List UlAlloc)
  /-- UL_DCI_REQUEST: An UL_DCI.request supplies uplink DCI for its slot. (R209) -/
  | ulDciRequest (cell : Nat) (slot : Nat) (dcis : List DlPdu)
  /-- TX_DATA_REQUEST: A TX_Data.request supplies PDSCH payloads inline or by pointer. (R212) -/
  | txDataRequest (cell : Nat) (slot : Nat) (pdus : List TxPdu)
  /-- OTHER_DOWNLINK_MESSAGE: Any other downlink message type is answered with ERROR.indication MSG_INVALID_STATE. (R209) -/
  | otherDownlinkMessage (cell : Nat) (mtype : BitVec 16)
  /-- ECPRI_UPLANE_RECEIVE: An uplink U-plane frame is checked against flows and windows, decompressed and fed symbol by symbol into the uplink chain. (R242) -/
  | ecpriUplaneReceive (f : UplaneFrame)
  /-- UL_WINDOW_EXPIRY: UL_WINDOW_US passes after a symbol with its U-plane missing, so the symbol is taken as zeros and counted late. (R242) -/
  | ulWindowExpiry (cell : Nat) (slot : Nat) (symbol : Nat) (ant : Nat)
  /-- CODE_BLOCK_DECODED: An LDPC decoder ends a code block; HARQ buffers are combined or freed and indications follow when the transport block is complete. (R217) -/
  | codeBlockDecoded (die : Nat) (block : Nat) (crcOk : Bool) (iters : Nat) (bits : DecodedBits)
  /-- UPLINK_ENGINE_REPORT: A PRACH, SRS or UCI engine finishes its work for a slot and reports. (R221) -/
  | uplinkEngineReport (cell : Nat) (slot : Nat) (die : Nat) (report : EngineReport)
  /-- UPLINK_INDICATION_DEADLINE: The deadline one slot after the last covered symbol passes: unfinished blocks report CRC failure, and indications without ring room are dropped. (R213) -/
  | uplinkIndicationDeadline (cell : Nat) (slot : Nat)
  /-- FRAME_END: At each 10 ms frame end, noise floor and RSSI are measured and the cell status area is rewritten. (R223) -/
  | frameEnd (cell : Nat) (sfn : Nat) (noise : List (Nat × Int)) (rssi : List Int)
  /-- RADIO_STATUS: Mailbox request returning every cell's status records. (R224) -/
  | radioStatus (p : Pasid) (len : Nat)
  /-- DOWNLINK_CPLANE_SEND: The device sends a downlink C-plane message within its window before the symbol. (R241) -/
  | downlinkCplaneSend (cell : Nat) (slot : Nat) (symbol : Nat) (flow : Nat) (weights : List Granule)
  /-- DOWNLINK_UPLANE_SEND: The device compresses and sends downlink U-plane within its window, zeroing poisoned PRBs. (R241) -/
  | downlinkUplaneSend (cell : Nat) (slot : Nat) (symbol : Nat) (flow : Nat) (prbs : List Prb)
  /-- PA_CONTROL_SEND: For a time-domain cell, PA enable or disable is sent on the C-plane at least 250 µs before EVENT_TIME. (R244) -/
  | paControlSend (cell : Nat) (enable : Bool) (antennas : BitVec 4) (edgeTime : Nat)
  /-- ONE_WAY_DELAY_MEASUREMENT: An eCPRI one-way delay measurement request is stamped and answered. (R243) -/
  | oneWayDelayMeasurement (port : Nat) (sub : Nat) (rawPs : Nat)
  /-- PTP_SYNC: A received Sync message is stamped and feeds its domain's servo. (R251) -/
  | ptpSync (port : Nat) (sub : Nat) (domain : Nat) (rawPs : Nat) (origin : Int)
  /-- PTP_ANNOUNCE: A received Announce message feeds the BMCA and domain qualification. (R253) -/
  | ptpAnnounce (port : Nat) (sub : Nat) (domain : Nat) (clockClass : Nat) (best : Bool)
  /-- PTP_DELAY_REQ: A Delay_Req received on a master port is stamped and answered. (R251) -/
  | ptpDelayReq (port : Nat) (sub : Nat) (rawPs : Nat)
  /-- PTP_DELAY_RESP: A Delay_Resp completes an exchange for the slave servo. (R251) -/
  | ptpDelayResp (domain : Nat) (valid : Bool) (sent : Int) (received : Int)
  /-- PTP_MASTER_SEND: On master ports, Sync and Announce are sent at their rates. (R251) -/
  | ptpMasterSend (port : Nat) (sub : Nat) (sync : Bool)
  /-- ESMC_RECEIVE: A received ESMC updates the port's QL_RX. (R262) -/
  | esmcReceive (port : Nat) (sub : Nat) (ql : BitVec 8)
  /-- ESMC_SEND: Once per second, ESMC is sent on every sub-port with QL_TX. (R262) -/
  | esmcSend
  /-- FH_LINK_DOWN: A fronthaul sub-port loses link; its downlink frames are dropped. (R264) -/
  | fhLinkDown (port : Nat) (sub : Nat)
  /-- FH_LINK_UP: A fronthaul sub-port gains link. (R264) -/
  | fhLinkUp (port : Nat) (sub : Nat)
  /-- FH_CONFIG: Mailbox request setting port modes and O-RU peers, refused BUSY for ports of running cells. (R237) -/
  | fhConfig (p : Pasid) (len : Nat)
  /-- FH_STATUS: Mailbox request returning 8 port records. (R263) -/
  | fhStatus (p : Pasid) (len : Nat)
  /-- DOMAIN_ANNOUNCE_TIMEOUT: No Announce from the parent for 375 ms, so the domain loses qualification and the active domain switches or HOLDOVER begins. (R256) -/
  | domainAnnounceTimeout (d : Nat)
  /-- TIME_FIRST_LOCK: The active domain's estimates have spread by less than 1 µs over 16 s, so device time is stepped once and LOCKED is entered. (R255) -/
  | timeFirstLock
  /-- TIME_HOLDOVER: Record written on entering HOLDOVER and every hour while it lasts. (R264) -/
  | timeHoldover
  /-- RELOCK: TIME_CTRL.RELOCK returns time to ACQUIRING or FREERUN if every cell is stopped, otherwise it is refused. (R257) -/
  | relock (p : Pasid)
  /-- SELECT: TIME_CTRL.SELECT makes the named qualified domain active without a step. (R256) -/
  | select (p : Pasid) (d : Nat)
  /-- TIME_SET: A write steps device time in FREERUN with every cell stopped; otherwise it is ignored and REFUSED is set. (R257) -/
  | timeSet (p : Pasid) (value : BitVec 64)
  /-- TIME_FRAME_OFS_WRITE: A write changes the frame offset only while every cell is stopped; otherwise it sets REFUSED. (R250) -/
  | timeFrameOfsWrite (p : Pasid) (value : BitVec 64)
  /-- TIME_OUT_CFG_WRITE: A write of TIME_OUTn_CFG sets the mode, arming a one-shot or applying periodic changes at the next edge. (R260) -/
  | timeOutCfgWrite (p : Pasid) (n : Nat) (value : BitVec 64)
  /-- TIME_OUT_AT_WRITE: A write of AT re-arms an armed one-shot, firing at once and setting LATE if the time has passed. (R260) -/
  | timeOutAtWrite (p : Pasid) (n : Nat) (value : BitVec 64)
  /-- ONE_SHOT_FIRE: Device time reaches AT, so the pulse fires, MODE returns to 0 and OUT_DONE is set. (R260) -/
  | oneShotFire (n : Nat)
  /-- TIME_IN_EDGE: A selected edge on TIME_INn is stamped into its 16-entry queue, or dropped with OVERFLOW. (R261) -/
  | timeInEdge (n : Nat) (falling : Bool)
  /-- TIME_IN_CAP_READ: A read of TIME_INn_CAP returns and removes the oldest stamp. (R261) -/
  | timeInCapRead (p : Pasid) (n : Nat)
  /-- TIME_NOW_LOW_READ: A 32-bit read of TIME_NOW's low half latches the high half. (R249) -/
  | timeNowLowRead (p : Pasid)
  /-- TIME_SYNCE_WRITE: A change of SyncE source holds SYNCE_RCLK low for 100 µs. (R262) -/
  | timeSynceWrite (p : Pasid) (value : BitVec 64)
  /-- SYNCE_LOCK_LOSS: The SyncE source lane loses lock and SYNCE_RCLK is held low. (R262) -/
  | synceLockLoss
  /-- ENABLE: MGR_BGE_CTRL ENABLE moves a FREE burgee to ACTIVE. (R270) -/
  | enable (p : Pasid) (b : Nat)
  /-- QUIESCE: Dispatch stops reading an ACTIVE burgee's ring and it enters DRAINING. (R272) -/
  | quiesce (p : Pasid) (b : Nat)
  /-- BURGEE_QUIET: A DRAINING burgee has nothing in flight and enters QUIET, raising entry 1. (R272) -/
  | burgeeQuiet (b : Nat)
  /-- RESUME: A QUIET burgee returns to ACTIVE and dispatch reads from the kept doorbell value. (R272) -/
  | resume (p : Pasid) (b : Nat)
  /-- DISABLE: A QUIET burgee enters DISABLED. (R270) -/
  | disable (p : Pasid) (b : Nat)
  /-- FORCE: Discards unlaunched commands, cancels launched ones, stops streams and drops unsent fabric requests of the burgee. (R273) -/
  | force (p : Pasid) (b : Nat)
  /-- FORCE_DONE: Every square and hub step of a FORCE has ended and the burgee enters DISABLED. (R273) -/
  | forceDone (b : Nat)
  /-- WIPE: Starts writing the all-zero codeword over a DISABLED burgee's shares, regions, counters and forfeit ring. (R274) -/
  | wipe (p : Pasid) (b : Nat)
  /-- BURGEE_WIPE_DONE: Share and region wipes complete and the burgee enters WIPED. (R274) -/
  | burgeeWipeDone (b : Nat)
  /-- RELEASE: A WIPED burgee returns to FREE. (R270) -/
  | release (p : Pasid) (b : Nat)
  /-- TURN_START: Every 2 µs a turn begins; at a launch turn the board launches an eligible command and opens a window, or counts TURN_EMPTY. (R281) -/
  | turnStart (board : Nat)
  /-- SLICE_START: Dispatch picks the first waiting board-burgee pair and starts its slice once every reserved square is free. (R285) -/
  | sliceStart
  /-- SLICE_END: A slice's time runs out, or its running command ends past it, so passes and debts are updated. (R285) -/
  | sliceEnd (board : Nat)
  /-- PRIORITY_LAUNCH: At the next command boundary, a class 0 or reserve-slot class 1 command launches, pausing any slice. (R287) -/
  | priorityLaunch (cmd : Nat)
  /-- FALL_POINT: A flag-fall command's fall point is reached, so its fallback launches or the command is cancelled, or the classical path serves. (R284) -/
  | fallPoint (cmd : Nat)
  /-- COMMAND_PROMOTION: A command has waited LATENCY_US / 2 and becomes promoted. (R288) -/
  | commandPromotion (cmd : Nat)
  /-- LATENCY_TARGET_MISS: A command has not launched by LATENCY_US, so its burgee receives a rung-4 forfeit. (R288) -/
  | latencyTargetMiss (cmd : Nat) (cause : MissCause)
  /-- COMMAND_OVERRUN: A command's bound expires, so every member is cancelled and the command ends with OVERRUN. (R78) -/
  | commandOverrun (cmd : Nat)
  /-- FLOOR_INTERVAL: At the end of each 100 µs interval, floor shortfalls give rung-3 forfeits to partitions that were waiting. (R278) -/
  | floorInterval (shortfalls : List Shortfall)
  /-- CMD_RATE_MILLISECOND: A new millisecond lets commands held by CMD_RATE proceed. (R279) -/
  | cmdRateMillisecond
  /-- BGE_RING_CFG_WRITE: Enables the rings if the sizes and placement are valid, zeroing the indices, or sets RING_ERR. (R307) -/
  | bgeRingCfgWrite (p : Pasid) (page : Nat) (value : BitVec 64)
  /-- COMMAND_DOORBELL: A TARGET 0 doorbell, if within the ring and not behind, starts dispatch reading commands. (R311) -/
  | commandDoorbell (p : Pasid) (page : Nat) (value : BitVec 32)
  /-- COMMAND_READ: Dispatch reads the next command while fewer than 256 are outstanding and completion room exists, and checks it at step 3. (R313) -/
  | commandRead (b : Nat)
  /-- KERNEL: A KERNEL command is checked for form and rights against its board. (R310) -/
  | kernel (cmd : Nat)
  /-- COPY_IN: A COPY_IN command moves host bytes into device memory or the lease window. (R309) -/
  | copyIn (cmd : Nat)
  /-- COPY_OUT: A COPY_OUT command moves device bytes to the host. (R309) -/
  | copyOut (cmd : Nat)
  /-- SYNC: A SYNC command performs only its wait and signal. (R315) -/
  | sync (cmd : Nat)
  /-- COMMAND_WAIT_SATISFIED: A write to the wait semaphore's granule makes the comparison true and the command passes step 4. (R314) -/
  | commandWaitSatisfied (cmd : Nat)
  /-- COMMAND_ADMIT: The accountant admits a waiting command once every window's claim fits, or ends it with ENERGY if it can never fit. (R351) -/
  | commandAdmit (cmd : Nat)
  /-- COMMAND_COMPLETION: The last member ends and writes performed, so counter records, signal semaphore, completion record and MSI-X follow. (R315) -/
  | commandCompletion (cmd : Nat) (energyUj : Nat)
  /-- COPY_HOST_COMPLETION: A copy's host request completes, moving its granules or ending the copy with HOST_ERROR. (R309) -/
  | copyHostCompletion (cmd : Nat) (granules : List Granule) (failed : Bool)
  /-- MSIX_UNMASK: Unmasking an entry with its pending bit set sends the message. (R318) -/
  | msixUnmask (p : Pasid) (entry : Nat)
  /-- BGE_CPL_READ_WRITE: Sets records consumed, ignoring and counting a value ahead of BGE_CPL_WRITE. (R320) -/
  | bgeCplReadWrite (p : Pasid) (page : Nat) (value : BitVec 32)
  /-- HOST_MEM_READ: A host CXL.mem read of tower memory, returning poison where stored. (R303) -/
  | hostMemRead (addr : Nat) (len : Nat)
  /-- HOST_MEM_WRITE: A host CXL.mem write to tower memory, re-evaluating semaphore waits on the granule. (R303) -/
  | hostMemWrite (addr : Nat) (bytes : List Byte) (poison : Bool)
  /-- REGISTER_WRITE: Write to a register without a row of its own, subject to size, alignment, access type and PASID rules. (R306) -/
  | registerWrite (a : RegAccess) (value : BitVec 512)
  /-- RC_REGISTER_READ: A read of an RC field returns and clears it. (R8) -/
  | rcRegisterRead (a : RegAccess)
  /-- HLY_WDOG_FEED: A write sets feed-pending, which the core must clear and restart the timer within 1 ms. (R371) -/
  | hlyWdogFeed (p : Pasid)
  /-- HLY_WDOG_CTRL_WRITE: Arms the watchdog or changes TIMEOUT_MS; clearing EN in ACTIVE is ignored. (R372) -/
  | hlyWdogCtrlWrite (p : Pasid) (value : BitVec 64)
  /-- WDOG_HOST: The watchdog runs out with no feed pending; fatal. (R371) -/
  | wdogHost
  /-- WDOG_CORE: A feed stays pending for 1 ms; fatal. (R371) -/
  | wdogCore (pc : BitVec 64)
  /-- HLY_SRAM_UNCORR: The core fetches or loads an uncorrectable Halyard SRAM granule; fatal. (R369) -/
  | hlySramUncorr (offset : Nat) (upset : Upset)
  /-- HLY_SRAM_CORR: Every 60 s with corrections, a summary record is written. (R369) -/
  | hlySramCorr
  /-- ELOG_READ_WRITE: The manager advances ELOG_READ, accepted only between the current value and ELOG_WRITE. (R386) -/
  | elogReadWrite (p : Pasid) (value : BitVec 32)
  /-- SUPPRESSED: A code's bucket gains a token while occurrences are counted, so one SUPPRESSED record is written. (R391) -/
  | suppressed (code : Nat)
  /-- ANCHOR: Hourly, device time crossing a multiple of one hour writes an ANCHOR. (R384) -/
  | anchor
  /-- FLUSH_COMPLETE: The flush of the ring to MRAM completes; after a power fail the device holds itself in reset. (R388) -/
  | flushComplete
  /-- PWR_FAIL_N_FALL: PWR_FAIL_N falls, so issue stops, POWER_FAIL is written and a flush starts, unless before boot step 5. (R387) -/
  | pwrFailNFall
  /-- PWR_FAIL_N_RISE: PWR_FAIL_N rises with rails in tolerance and the device boots with cause 2. (R388) -/
  | pwrFailNRise (railsOk : Bool)
  /-- FW_STAGE: Mailbox request that reads and checks an image and keeps its digest. (R378) -/
  | fwStage (p : Pasid) (len : Nat)
  /-- FW_WRITE: Mailbox request that starts erasing and writing the staged image to SPI NOR. (R378) -/
  | fwWrite (p : Pasid) (len : Nat)
  /-- FW_WRITE_COMPLETE: The SPI NOR write and read-back finish, writing FW_WRITTEN or FW_WRITE_FAIL. (R378) -/
  | fwWriteComplete (readBack : List Byte)
  /-- FW_STATUS: Mailbox request returning the firmware update state. (R378) -/
  | fwStatus (p : Pasid) (len : Nat)
  /-- RECOVERY_BEGIN: Erases SPI NOR and starts the digest in recovery. (R380) -/
  | recoveryBegin (p : Pasid) (len : Nat)
  /-- RECOVERY_CHUNK: Writes image data at the next offset in recovery. (R380) -/
  | recoveryChunk (p : Pasid) (len : Nat)
  /-- RECOVERY_FINISH: Checks the written image and reboots with cause 5 if valid. (R380) -/
  | recoveryFinish (p : Pasid) (len : Nat)
  /-- LOG_INFO: Mailbox request returning log state. (R389) -/
  | logInfo (p : Pasid) (len : Nat)
  /-- LOG_READ: Mailbox request returning MRAM bytes. (R389) -/
  | logRead (p : Pasid) (len : Nat)
  /-- LOG_CLEAR: Zeroes the MRAM log area and resets LOG_WP. (R389) -/
  | logClear (p : Pasid) (len : Nat)
  /-- SENSORS: Mailbox request returning temperatures, voltages and canary minima. (R389) -/
  | sensors (p : Pasid) (len : Nat)
  /-- UNKNOWN_REQUEST: A mailbox request code not served in the current state is answered UNKNOWN. (R380) -/
  | unknownRequest (p : Pasid) (code : BitVec 16) (len : Nat)
  /-- SEC_NONCE: Returns a fresh nonce, invalidating the previous one. (R398) -/
  | secNonce (p : Pasid) (len : Nat)
  /-- ENROLL: A token that burns an owner key row for a slot. (R401) -/
  | enroll (p : Pasid) (len : Nat)
  /-- REVOKE: A token that burns a slot's revoke fuse. (R401) -/
  | revoke (p : Pasid) (len : Nat)
  /-- DEPLOY: A token that moves PROVISIONED to DEPLOYED through a reset. (R401) -/
  | deploy (p : Pasid) (len : Nat)
  /-- LIFECYCLE_RELEASE: A RELEASE token returns the device to PROVISIONED, voiding keys and zeroing the log and generation. (R401) -/
  | lifecycleRelease (p : Pasid) (len : Nat)
  /-- RETURN: A token that moves the device to RETURNED. (R401) -/
  | lcReturn (p : Pasid) (len : Nat)
  /-- SCRAP: A token that moves the device to SCRAPPED and destroys the identity key. (R401) -/
  | scrap (p : Pasid) (len : Nat)
  /-- EPOCH_COMMIT: A token that raises the fused epoch to the running image's epoch. (R401) -/
  | epochCommit (p : Pasid) (len : Nat)
  /-- SEC_OWNER_KEYS: Mailbox request returning live owner keys and counts. (R398) -/
  | secOwnerKeys (p : Pasid) (len : Nat)
  /-- GET_VERSION: SPDM GET_VERSION request. (R403) -/
  | getVersion (req : List Byte)
  /-- GET_CAPABILITIES: SPDM GET_CAPABILITIES request. (R403) -/
  | getCapabilities (req : List Byte)
  /-- NEGOTIATE_ALGORITHMS: SPDM NEGOTIATE_ALGORITHMS request. (R403) -/
  | negotiateAlgorithms (req : List Byte)
  /-- GET_DIGESTS: SPDM GET_DIGESTS request. (R403) -/
  | getDigests (req : List Byte)
  /-- GET_CERTIFICATE: SPDM GET_CERTIFICATE request returning the chain. (R394) -/
  | getCertificate (slot : Nat) (offset : Nat) (length : Nat)
  /-- CHALLENGE: SPDM CHALLENGE answered with an identity-key signature. (R403) -/
  | challenge (req : List Byte)
  /-- GET_MEASUREMENTS: SPDM GET_MEASUREMENTS returns the seven measurement blocks taken at one instant. (R404) -/
  | getMeasurements (req : List Byte) (signed : Bool)
  /-- ENERGY_WINDOW_START: Every 10,000,000 TIME cycles a window opens with its budget fixed and divided into pools. (R345) -/
  | energyWindowStart (measured : List Nat)
  /-- ENERGY_RECONCILE: Every 100 µs, measured rail energy is attributed and drawn from pools, with deficits carried. (R354) -/
  | energyReconcile (draws : List EnergyDraw) (device baseband : Nat)
  /-- PWR_CAP_WRITE: A write of PWR_CAP takes effect at the next window or is refused out of range. (R346) -/
  | pwrCapWrite (p : Pasid) (value : BitVec 64)
  /-- PWR_ALLOWANCE_WRITE: A write of PWR_ALLOWANCE takes effect at the next window or is refused out of range. (R346) -/
  | pwrAllowanceWrite (p : Pasid) (value : BitVec 64)
  /-- PEAK_PACE: A governor limit has paced work for more than 10 µs. (R358) -/
  | peakPace
  /-- SENSOR_SCAN: Every 100 µs, Halyard reads temperatures and voltages and applies or releases thermal pacing. (R361) -/
  | sensorScan (temps : List Int) (towers : List Int) (volts : List Nat)
  /-- CANARY_SCAN: Every 1 ms, timing-margin canaries are read. (R370) -/
  | canaryScan (minima : List Nat)
  /-- RAIL_FAULT: A rail has been out of tolerance for more than 10 µs. (R363) -/
  | railFault (rail : Nat) (mv : Nat)
  /-- AVS_UPDATE: At most once per millisecond, the VDD_CORE set point is adjusted over AVSBus. (R364) -/
  | avsUpdate (target : Nat)
  /-- THERMTRIP: A die reaches 120 °C, so THERMTRIP_N latches low, THERMAL_TRIP is written and the device stays in reset. (R450) -/
  | thermtrip (sensor : Nat)
  /-- HEARTBEAT_PERIOD: Every 20 µs, heartbeats are sent and silent periods counted; suspects are announced or renewed, and aged suspicions dropped. (R411) -/
  | heartbeatPeriod
  /-- HEARTBEAT: A heartbeat is received, clearing silence and withdrawing suspicion. (R410) -/
  | heartbeat (src : Nat) (bootCount : Nat) (health : Nat) (benched : Bool) (leaving : Bool)
  /-- SUSPECT: A SUSPECT message is received; a quorum of suspicions decides expulsion. (R412) -/
  | suspect (src : Nat) (target : Nat) (withdraw : Bool)
  /-- EXPEL: An EXPEL is applied and flooded: member set, outstanding requests, board commands, leases, fences and routes are updated. (R415) -/
  | expel (target : Nat) (cause : Nat) (decider : Nat)
  /-- DEPART: A DEPART is received and the peer floods EXPEL at once. (R413) -/
  | depart (src : Nat) (code : Nat)
  /-- JOIN: A JOIN is received and let in by flooding ADMIT, or refused and the link fenced. (R417) -/
  | join (link : Nat) (src : Nat) (bootCount : Nat) (serial : BitVec 64) (rejoin : Bool)
  /-- ADMIT: An ADMIT is applied and flooded, lifting fences and running SEQ_RESET. (R417) -/
  | musterAdmit (device : Nat)
  /-- SEQ_RESET: Clears SEQ state and replay tables for a device pair. (R178) -/
  | seqReset (device : Nat)
  /-- LEAVE: A LEAVE is received and granted if the ledger and ranking allow. (R424) -/
  | leave (src : Nat) (health : Nat)
  /-- GRANT: A GRANT is received; a quorum of grants makes the device flood its own EXPEL. (R424) -/
  | grant (src : Nat) (granted : Nat)
  /-- LEDGER: A LEDGER message adds a non-fatal expulsion to the rack ledger. (R423) -/
  | ledger (device : Nat) (time : Nat)
  /-- LEDGER_AGE_OUT: A ledger entry ages past 60 min and a benched device resends LEAVE. (R424) -/
  | ledgerAgeOut
  /-- ISOLATION_TIMEOUT: A member hearing from under half its quorum set for 2 ms becomes isolated and behaves as expelled. (R414) -/
  | isolationTimeout
  /-- FENCE_LIFT: 60 s after fencing a non-member, the fence lifts and the link returns to DOWN. (R418) -/
  | fenceLift (link : Nat)
  /-- LEAVE_TIMEOUT: A LEAVE gathers no quorum within 10 ms, so the device is benched. (R424) -/
  | leaveTimeout
  /-- BENCH_RECOVERY: H has stayed at 300 or above for 10 min and the device returns to member duty. (R424) -/
  | benchRecovery
  /-- HEALTH_SCORE: Once per second, Halyard computes the health score. (R419) -/
  | healthScore (m : Unit)
  /-- HEALTH_BAND: H has stayed past a band boundary for 60 s; the band changes and POOR requests leave. (R420) -/
  | healthBand
  /-- TELLTALE_START: Halyard starts a telltale on the eligible square whose cell has gone longest without a pass. (R421) -/
  | telltaleStart (psq : Nat) (patterns : List Nat)
  /-- TELLTALE_DONE: A telltale completes, recording a pass or a failure, with a rerun or retirement. (R422) -/
  | telltaleDone (pass : Bool) (sect : Nat)
  /-- CUT_BEGIN: Starts a checkpoint cut, stopping dispatch for the burgee. (R426) -/
  | cutBegin (p : Pasid) (len : Nat)
  /-- CUT_READY: The coordinator receives CUT_READY and, with all of them, sends CUT_HELD. (R426) -/
  | cutReady (src : Nat) (cut : BitVec 32)
  /-- CUT_HELD: A participant receives CUT_HELD, writes CUT_STATE and raises entry 5. (R426) -/
  | cutHeld (cut : BitVec 32)
  /-- CUT_FAIL: A CUT_FAIL ends the cut as FAILED and resumes dispatch. (R427) -/
  | cutFail (cut : BitVec 32)
  /-- CUT_TIMEOUT: TIMEOUT_MS passes before HELD, so the cut is ABANDONED. (R427) -/
  | cutTimeout (cut : BitVec 32)
  /-- CUT_RELEASE: Resumes dispatch of a held cut from the kept doorbell value. (R426) -/
  | cutRelease (p : Pasid) (len : Nat)
  /-- CUT_STATUS: Mailbox request returning a cut's state. (R428) -/
  | cutStatus (p : Pasid) (len : Nat)
  /-- MUSTER_STATUS: Mailbox request returning the member set and ledger. (R428) -/
  | musterStatus (p : Pasid) (len : Nat)
  /-- HEALTH_STATUS: Mailbox request returning H, penalties and telltale cells. (R428) -/
  | healthStatus (p : Pasid) (len : Nat)
  /-- MUSTER_LEAVE: Mailbox request to leave, or to withdraw a leave in WATCH or GOOD. (R424) -/
  | musterLeave (p : Pasid) (len : Nat)
  /-- MUSTER_REJOIN: Mailbox request setting REJOIN for the next JOIN. (R417) -/
  | musterRejoin (p : Pasid) (len : Nat)
  /-- POWER_ON: VDD_AUX rises or a main rail browns out, giving a cold reset. (R451) -/
  | powerOn (auxRose : Bool)
  /-- RESET_N_FALL: RESET_N low for 10 µs resets the dies, drops lasers and stops issue. (R448) -/
  | resetNFall (lowNs : Nat)
  /-- RESET_N_RISE: RESET_N rises with rails in tolerance and THERMTRIP_N high, so boot starts with its cause. (R452) -/
  | resetNRise (railsOk : Bool)
  /-- BOOT_STEP_COMPLETE: A boot step completes (firmware check, clocks, training, wipe, optics, UCIe) and the next begins, or boot fails under R453. (R452) -/
  | bootStepComplete (r : BootResult)
  /-- REFCLK_WAIT_TIMEOUT: No REFCLK for 10 s at boot step 3, so CLOCK_LOSS is written and the device halts. (R453) -/
  | refclkWaitTimeout (freq : Nat)
  /-- CLOCK_LOSS: REFCLK absent or off by more than 1,000 ppm for 10 µs moves Halyard to the internal oscillator and runs the fatal sequence without DEPART. (R445) -/
  | clockLoss (freq : Nat)
  /-- UCIE_MODULE_DOWN: A UCIe module fails and is disabled, and the link runs on the rest. (R302) -/
  | ucieModuleDown (module : Nat)
  /-- MAILBOX_REQUEST_DONE: A running Halyard mailbox request finishes, its response replaces the buffer and HLY_MBOX_STAT moves from RUNNING to DONE with its status and RESP_LEN. (R321) -/
  | mailboxRequestDone
  /-- LINK_TRAINING_FAILED: A link in TRAIN fails to reach FEC lock and lane deskew within 3 ms; the failure is counted, and 8 failures within 60 s send the link to FAILED. (R187) -/
  | linkTrainingFailed (link : Nat)
  /-- TIME_OUT_PERIODIC_EDGE: A periodic TIME_OUTn pin reaches a leading edge at a device time where (t − PHASE) mod PERIOD = 0, and any pending change to the pin takes effect there. (R260) -/
  | timeOutPeriodicEdge (n : Nat)
  /-- SYNCE_LOCK_REGAINED: The selected SyncE source lane regains lock, TIME_SYNCE.LOCK is set and SYNCE_RCLK stops being held low. (R262) -/
  | synceLockRegained
  /-- SYNCE_SOURCE_HOLD_END: 100 µs after a change of SyncE source, the hold on SYNCE_RCLK ends and the divided clock is output if the lane is locked. (R262) -/
  | synceSourceHoldEnd
  /-- HOIST_REGION_WIPE_DONE: The wipe of granules or units freed by a partial hoist that removed or shrank a share or region completes, and a new owner's accesses that waited on those units proceed. (R406) -/
  | hoistRegionWipeDone
  /-- HOST_SNOOP: A CXL.cache snoop from the host arrives and is answered RspIHitI, since no line is retained. (R303) -/
  | hostSnoop (addr : Nat)
  /-- SUB_COMMAND_CANCEL: A remote device receives the issuing hub's cancellation of a sub-command, after the bound expired or the issuing burgee was forced, and cancels its members. (R78) -/
  | subCommandCancel (src : SubFrom) (cmd : Nat)
  deriving DecidableEq, Repr

end Sys2Proof
end

