-- ==== Sys2Proof/Decode.lean ====
section
/-! DEFINITION. Words. The table gives its rows no bits, so no word of the table spells a command. The instructions that the execute engine fetches
are 64-bit words of their own, whose layouts the chapters give (R62, R63, R65, R67, R68, R90 to R92, R128, R461): here they are encoded and
decoded. -/

namespace Sys2Proof

/-- The command that a word spells by the table's bits: none, since no row gives bits. -/
def decodeTableWord (_nbits _w : Nat) : Option Instr := none

/-- An instruction word: class, opcode, and the 54 bits below them (R62). -/
def instrWord (cls opc : Nat) (low : BitVec 54) : Word := BitVec.ofNat 4 cls ++ BitVec.ofNat 6 opc ++ low

/-- CLASS, OPC and the rest of a word (R62). -/
def wordClass (w : Word) : Nat := (w.extractLsb' 60 4).toNat
def wordOpc (w : Word) : Nat := (w.extractLsb' 54 6).toNat
def wordLow (w : Word) : BitVec 54 := w.extractLsb' 0 54

-- ───────────────────────── layouts

/-- R62: [53:49] SD, [48:44] SA, [43:39] SB, [38:32] reserved, [31:0] IMM32. -/
def ScalarF.bits (f : ScalarF) : BitVec 54 := f.sd ++ f.sa ++ f.sb ++ f.rsv ++ f.imm
def ScalarF.of (l : BitVec 54) : ScalarF :=
  { sd := l.extractLsb' 49 5, sa := l.extractLsb' 44 5, sb := l.extractLsb' 39 5, rsv := l.extractLsb' 32 7, imm := l.extractLsb' 0 32 }

/-- R63: [53:51] Q, [50:46] SD, [45:41] SA, [40:34] COUNT, [33:0] reserved. -/
def QueueF.bits (f : QueueF) : BitVec 54 := f.q ++ f.sd ++ f.sa ++ f.count ++ f.rsv
def QueueF.of (l : BitVec 54) : QueueF :=
  { q := l.extractLsb' 51 3, sd := l.extractLsb' 46 5, sa := l.extractLsb' 41 5, count := l.extractLsb' 34 7, rsv := l.extractLsb' 0 34 }

/-- R65: [53:51] FMT, [50:45] VD, [44:39] VA, [38:33] VB, [32:27] VC, [26:22] SREG, [21:20] RND, [19] SAT, [18:16] PRED, [15:0] IMM16. -/
def VecF.bits (f : VecF) : BitVec 54 :=
  f.fmt ++ f.vd ++ f.va ++ f.vb ++ f.vc ++ f.sreg ++ f.rnd ++ BitVec.ofBool f.sat ++ f.pred ++ f.imm
def VecF.of (l : BitVec 54) : VecF :=
  { fmt := l.extractLsb' 51 3, vd := l.extractLsb' 45 6, va := l.extractLsb' 39 6, vb := l.extractLsb' 33 6, vc := l.extractLsb' 27 6
    sreg := l.extractLsb' 22 5, rnd := l.extractLsb' 20 2, sat := l.getLsbD 19, pred := l.extractLsb' 16 3, imm := l.extractLsb' 0 16 }

/-- R67: [53:51] MODE, [50:46] SA, [45:41] SB, [40:38] LEVEL, [37:32] reserved, [31:16] ID, [15:0] reserved. -/
def SyncF.bits (f : SyncF) : BitVec 54 := f.mode ++ f.sa ++ f.sb ++ f.level ++ f.rsvHi ++ f.id ++ f.rsvLo
def SyncF.of (l : BitVec 54) : SyncF :=
  { mode := l.extractLsb' 51 3, sa := l.extractLsb' 46 5, sb := l.extractLsb' 41 5, level := l.extractLsb' 38 3, rsvHi := l.extractLsb' 32 6
    id := l.extractLsb' 16 16, rsvLo := l.extractLsb' 0 16 }

/-- R68: [53:51] OP, [50:48] LEVEL, [47:43] SA, [42:38] SB, [37:33] SL, [32:16] reserved, [15:0] TAG. -/
def ReduceF.bits (f : ReduceF) : BitVec 54 := f.op ++ f.level ++ f.sa ++ f.sb ++ f.sl ++ f.rsv ++ f.tag
def ReduceF.of (l : BitVec 54) : ReduceF :=
  { op := l.extractLsb' 51 3, level := l.extractLsb' 48 3, sa := l.extractLsb' 43 5, sb := l.extractLsb' 38 5, sl := l.extractLsb' 33 5
    rsv := l.extractLsb' 16 17, tag := l.extractLsb' 0 16 }

/-- R90: [53:49] SDIM, [48:44] SA, [43:39] SB, [38:34] SC, [33:29] SD, [28:24] SAB, [23:22] RND, [21] SAT, [20:19] SEG, [18:16] reserved, [15:8]
WBASE, [7:0] reserved. -/
def MmtF.bits (f : MmtF) : BitVec 54 :=
  f.sdim ++ f.sa ++ f.sb ++ f.sc ++ f.sd ++ f.sab ++ f.rnd ++ BitVec.ofBool f.sat ++ f.seg ++ f.rsvHi ++ f.wbase ++ f.rsvLo
def MmtF.of (l : BitVec 54) : MmtF :=
  { sdim := l.extractLsb' 49 5, sa := l.extractLsb' 44 5, sb := l.extractLsb' 39 5, sc := l.extractLsb' 34 5, sd := l.extractLsb' 29 5
    sab := l.extractLsb' 24 5, rnd := l.extractLsb' 22 2, sat := l.getLsbD 21, seg := l.extractLsb' 19 2, rsvHi := l.extractLsb' 16 3
    wbase := l.extractLsb' 8 8, rsvLo := l.extractLsb' 0 8 }

/-- R91: [53:49] SROW, [48:44] SA, [43:39] SC, [38:34] SD, [33:29] SAB, [28:26] SHAPE, [25:24] SEG, [23:22] RND, [21] SAT, [20] ZERO, [19] FLUSH,
[18:16] reserved, [15:8] WBASE, [7:0] reserved. -/
def MmpF.bits (f : MmpF) : BitVec 54 :=
  f.srow ++ f.sa ++ f.sc ++ f.sd ++ f.sab ++ f.shape ++ f.seg ++ f.rnd ++ BitVec.ofBool f.sat ++ BitVec.ofBool f.zero ++ BitVec.ofBool f.flush ++
    f.rsvHi ++ f.wbase ++ f.rsvLo
def MmpF.of (l : BitVec 54) : MmpF :=
  { srow := l.extractLsb' 49 5, sa := l.extractLsb' 44 5, sc := l.extractLsb' 39 5, sd := l.extractLsb' 34 5, sab := l.extractLsb' 29 5
    shape := l.extractLsb' 26 3, seg := l.extractLsb' 24 2, rnd := l.extractLsb' 22 2, sat := l.getLsbD 21, zero := l.getLsbD 20, flush := l.getLsbD 19
    rsvHi := l.extractLsb' 16 3, wbase := l.extractLsb' 8 8, rsvLo := l.extractLsb' 0 8 }

/-- R92: [53:49] SB, [48:44] SKN, [43:41] SHAPE, [40:39] SEG, [38:0] reserved. -/
def LoadwF.bits (f : LoadwF) : BitVec 54 := f.sb ++ f.skn ++ f.shape ++ f.seg ++ f.rsv
def LoadwF.of (l : BitVec 54) : LoadwF :=
  { sb := l.extractLsb' 49 5, skn := l.extractLsb' 44 5, shape := l.extractLsb' 41 3, seg := l.extractLsb' 39 2, rsv := l.extractLsb' 0 39 }

/-- R92: [53:52] SEG, [51:0] reserved. -/
def SwapF.bits (f : SwapF) : BitVec 54 := f.seg ++ f.rsv
def SwapF.of (l : BitVec 54) : SwapF := { seg := l.extractLsb' 52 2, rsv := l.extractLsb' 0 52 }

-- ───────────────────────── words

/-- The word of an instruction (R62); none for a command that is no instruction. What END and RDCSR take from outside stands in no word. -/
def encodeWord : Instr → Option Word
  | .nop _ f => some (instrWord 0 0x00 f.bits)
  | .trap _ f => some (instrWord 0 0x01 f.bits)
  | .endK _ f _ => some (instrWord 0 0x02 f.bits)
  | .rdcsr _ f _ => some (instrWord 0 0x03 f.bits)
  | .lil _ f => some (instrWord 0 0x04 f.bits)
  | .lih _ f => some (instrWord 0 0x05 f.bits)
  | .loop _ f => some (instrWord 0 0x06 f.bits)
  | .add _ f => some (instrWord 0 0x08 f.bits)
  | .sub _ f => some (instrWord 0 0x09 f.bits)
  | .mul _ f => some (instrWord 0 0x0A f.bits)
  | .andR _ f => some (instrWord 0 0x0B f.bits)
  | .orR _ f => some (instrWord 0 0x0C f.bits)
  | .xorR _ f => some (instrWord 0 0x0D f.bits)
  | .shl _ f => some (instrWord 0 0x0E f.bits)
  | .shr _ f => some (instrWord 0 0x0F f.bits)
  | .sra _ f => some (instrWord 0 0x10 f.bits)
  | .minR _ f => some (instrWord 0 0x11 f.bits)
  | .maxR _ f => some (instrWord 0 0x12 f.bits)
  | .slt _ f => some (instrWord 0 0x13 f.bits)
  | .addi _ f => some (instrWord 0 0x18 f.bits)
  | .subi _ f => some (instrWord 0 0x19 f.bits)
  | .muli _ f => some (instrWord 0 0x1A f.bits)
  | .andi _ f => some (instrWord 0 0x1B f.bits)
  | .ori _ f => some (instrWord 0 0x1C f.bits)
  | .xori _ f => some (instrWord 0 0x1D f.bits)
  | .shli _ f => some (instrWord 0 0x1E f.bits)
  | .shri _ f => some (instrWord 0 0x1F f.bits)
  | .srai _ f => some (instrWord 0 0x20 f.bits)
  | .mini _ f => some (instrWord 0 0x21 f.bits)
  | .maxi _ f => some (instrWord 0 0x22 f.bits)
  | .slti _ f => some (instrWord 0 0x23 f.bits)
  | .ld8 _ f => some (instrWord 0 0x28 f.bits)
  | .ld16 _ f => some (instrWord 0 0x29 f.bits)
  | .ld32 _ f => some (instrWord 0 0x2A f.bits)
  | .ld64 _ f => some (instrWord 0 0x2B f.bits)
  | .st8 _ f => some (instrWord 0 0x2C f.bits)
  | .st16 _ f => some (instrWord 0 0x2D f.bits)
  | .st32 _ f => some (instrWord 0 0x2E f.bits)
  | .st64 _ f => some (instrWord 0 0x2F f.bits)
  | .beq _ f => some (instrWord 0 0x30 f.bits)
  | .bne _ f => some (instrWord 0 0x31 f.bits)
  | .blt _ f => some (instrWord 0 0x32 f.bits)
  | .bge _ f => some (instrWord 0 0x33 f.bits)
  | .jump _ f => some (instrWord 0 0x34 f.bits)
  | .call _ f => some (instrWord 0 0x35 f.bits)
  | .ret _ f => some (instrWord 0 0x36 f.bits)
  | .mmt _ f => some (instrWord 1 0x00 f.bits)
  | .mmp _ f => some (instrWord 1 0x01 f.bits)
  | .loadw _ f => some (instrWord 1 0x02 f.bits)
  | .swap _ f => some (instrWord 1 0x03 f.bits)
  | .vadd _ f => some (instrWord 2 0x00 f.bits)
  | .vsub _ f => some (instrWord 2 0x01 f.bits)
  | .vmul _ f => some (instrWord 2 0x02 f.bits)
  | .vfma _ f => some (instrWord 2 0x03 f.bits)
  | .vmax _ f => some (instrWord 2 0x04 f.bits)
  | .vmin _ f => some (instrWord 2 0x05 f.bits)
  | .vabs _ f => some (instrWord 2 0x06 f.bits)
  | .vneg _ f => some (instrWord 2 0x07 f.bits)
  | .vcvt _ f => some (instrWord 2 0x08 f.bits)
  | .vcmp _ f => some (instrWord 2 0x09 f.bits)
  | .vsel _ f => some (instrWord 2 0x0A f.bits)
  | .vexp _ f => some (instrWord 2 0x0B f.bits)
  | .vlog _ f => some (instrWord 2 0x0C f.bits)
  | .vrcp _ f => some (instrWord 2 0x0D f.bits)
  | .vrsq _ f => some (instrWord 2 0x0E f.bits)
  | .vtanh _ f => some (instrWord 2 0x0F f.bits)
  | .vsig _ f => some (instrWord 2 0x10 f.bits)
  | .vrsum _ f => some (instrWord 2 0x11 f.bits)
  | .vrmax _ f => some (instrWord 2 0x12 f.bits)
  | .vperm _ f => some (instrWord 2 0x13 f.bits)
  | .vld _ f => some (instrWord 2 0x14 f.bits)
  | .vst _ f => some (instrWord 2 0x15 f.bits)
  | .vshift _ f => some (instrWord 2 0x16 f.bits)
  | .vlogic _ f => some (instrWord 2 0x17 f.bits)
  | .reduce _ f => some (instrWord 3 0x00 f.bits)
  | .allreduce _ f => some (instrWord 3 0x01 f.bits)
  | .bcast _ f => some (instrWord 3 0x02 f.bits)
  | .qwait _ f => some (instrWord 4 0x00 f.bits)
  | .qdrop _ f => some (instrWord 4 0x01 f.bits)
  | .qstat _ f => some (instrWord 4 0x02 f.bits)
  | .qpush _ f => some (instrWord 4 0x03 f.bits)
  | .qpop _ f => some (instrWord 4 0x04 f.bits)
  | .waitsem _ f => some (instrWord 5 0x00 f.bits)
  | .signalsem _ f => some (instrWord 5 0x01 f.bits)
  | .barrier _ f => some (instrWord 5 0x02 f.bits)
  | .fence _ f => some (instrWord 5 0x03 f.bits)
  | .checkgen _ f => some (instrWord 5 0x04 f.bits)
  | _ => none

/-- Scalar control (R461); opcodes 0x07, 0x14 to 0x17, 0x24 to 0x27 and 0x37 to 0x3F are reserved. -/
def decodeScalar (c : CtxRef) (opc : Nat) (l : BitVec 54) : Option Instr :=
  let f := ScalarF.of l
  match opc with
  | 0x00 => some (.nop c f)
  | 0x01 => some (.trap c f)
  | 0x02 => some (.endK c f 0)
  | 0x03 => some (.rdcsr c f 0)
  | 0x04 => some (.lil c f)
  | 0x05 => some (.lih c f)
  | 0x06 => some (.loop c f)
  | 0x08 => some (.add c f)
  | 0x09 => some (.sub c f)
  | 0x0A => some (.mul c f)
  | 0x0B => some (.andR c f)
  | 0x0C => some (.orR c f)
  | 0x0D => some (.xorR c f)
  | 0x0E => some (.shl c f)
  | 0x0F => some (.shr c f)
  | 0x10 => some (.sra c f)
  | 0x11 => some (.minR c f)
  | 0x12 => some (.maxR c f)
  | 0x13 => some (.slt c f)
  | 0x18 => some (.addi c f)
  | 0x19 => some (.subi c f)
  | 0x1A => some (.muli c f)
  | 0x1B => some (.andi c f)
  | 0x1C => some (.ori c f)
  | 0x1D => some (.xori c f)
  | 0x1E => some (.shli c f)
  | 0x1F => some (.shri c f)
  | 0x20 => some (.srai c f)
  | 0x21 => some (.mini c f)
  | 0x22 => some (.maxi c f)
  | 0x23 => some (.slti c f)
  | 0x28 => some (.ld8 c f)
  | 0x29 => some (.ld16 c f)
  | 0x2A => some (.ld32 c f)
  | 0x2B => some (.ld64 c f)
  | 0x2C => some (.st8 c f)
  | 0x2D => some (.st16 c f)
  | 0x2E => some (.st32 c f)
  | 0x2F => some (.st64 c f)
  | 0x30 => some (.beq c f)
  | 0x31 => some (.bne c f)
  | 0x32 => some (.blt c f)
  | 0x33 => some (.bge c f)
  | 0x34 => some (.jump c f)
  | 0x35 => some (.call c f)
  | 0x36 => some (.ret c f)
  | _ => none

/-- The matrix class (R90 to R92). -/
def decodeMatrix (c : CtxRef) (opc : Nat) (l : BitVec 54) : Option Instr :=
  match opc with
  | 0x00 => some (.mmt c (MmtF.of l))
  | 0x01 => some (.mmp c (MmpF.of l))
  | 0x02 => some (.loadw c (LoadwF.of l))
  | 0x03 => some (.swap c (SwapF.of l))
  | _ => none

/-- The vector class (R65). -/
def decodeVector (c : CtxRef) (opc : Nat) (l : BitVec 54) : Option Instr :=
  let f := VecF.of l
  match opc with
  | 0x00 => some (.vadd c f)
  | 0x01 => some (.vsub c f)
  | 0x02 => some (.vmul c f)
  | 0x03 => some (.vfma c f)
  | 0x04 => some (.vmax c f)
  | 0x05 => some (.vmin c f)
  | 0x06 => some (.vabs c f)
  | 0x07 => some (.vneg c f)
  | 0x08 => some (.vcvt c f)
  | 0x09 => some (.vcmp c f)
  | 0x0A => some (.vsel c f)
  | 0x0B => some (.vexp c f)
  | 0x0C => some (.vlog c f)
  | 0x0D => some (.vrcp c f)
  | 0x0E => some (.vrsq c f)
  | 0x0F => some (.vtanh c f)
  | 0x10 => some (.vsig c f)
  | 0x11 => some (.vrsum c f)
  | 0x12 => some (.vrmax c f)
  | 0x13 => some (.vperm c f)
  | 0x14 => some (.vld c f)
  | 0x15 => some (.vst c f)
  | 0x16 => some (.vshift c f)
  | 0x17 => some (.vlogic c f)
  | _ => none

/-- The reduction class (R68). -/
def decodeReduce (c : CtxRef) (opc : Nat) (l : BitVec 54) : Option Instr :=
  let f := ReduceF.of l
  match opc with
  | 0x00 => some (.reduce c f)
  | 0x01 => some (.allreduce c f)
  | 0x02 => some (.bcast c f)
  | _ => none

/-- The queue class (R63). -/
def decodeQueue (c : CtxRef) (opc : Nat) (l : BitVec 54) : Option Instr :=
  let f := QueueF.of l
  match opc with
  | 0x00 => some (.qwait c f)
  | 0x01 => some (.qdrop c f)
  | 0x02 => some (.qstat c f)
  | 0x03 => some (.qpush c f)
  | 0x04 => some (.qpop c f)
  | _ => none

/-- The synchronisation class (R67, R128). -/
def decodeSync (c : CtxRef) (opc : Nat) (l : BitVec 54) : Option Instr :=
  let f := SyncF.of l
  match opc with
  | 0x00 => some (.waitsem c f)
  | 0x01 => some (.signalsem c f)
  | 0x02 => some (.barrier c f)
  | 0x03 => some (.fence c f)
  | 0x04 => some (.checkgen c f)
  | _ => none

/-- The instruction that a word spells for a context (R62); none where CLASS or OPC is reserved. -/
def decodeWord (c : CtxRef) (w : Word) : Option Instr :=
  match wordClass w with
  | 0 => decodeScalar c (wordOpc w) (wordLow w)
  | 1 => decodeMatrix c (wordOpc w) (wordLow w)
  | 2 => decodeVector c (wordOpc w) (wordLow w)
  | 3 => decodeReduce c (wordOpc w) (wordLow w)
  | 4 => decodeQueue c (wordOpc w) (wordLow w)
  | 5 => decodeSync c (wordOpc w) (wordLow w)
  | _ => none

end Sys2Proof
end

