-- ==== Sys2Proof/Config.lean ====
section
/-! DEFINITION. What the spec leaves to an implementation or leaves open: constants without a body, so that nothing can
be proved about their values. notes/assumptions names each one. -/

namespace Sys2Proof.Config

/-- A value that the spec leaves open, drawn at a count of the state (assumption 3). -/
opaque freeValue : Nat → Nat

/-- The bits of a table-based vector function (R66, R332): table version, opcode (0x0B–0x10), format, operand bits. -/
opaque vectorTable : BitVec 8 → Nat → Nat → Nat → Nat

/-- SHA-512 of a byte string (R40, R376, R393): a published function that the spec names and does not lay out. -/
opaque sha512 : List Byte → BitVec 512

/-- ECDSA P-521 verification: public key, digest, r, s (R40, R376, R399). -/
opaque ecdsaVerify : List Byte → BitVec 512 → List Byte → List Byte → Bool

/-- An ECDSA P-521 signature by the device identity key over a digest (R394, R404). -/
opaque identitySign : BitVec 512 → List Byte

/-- The Ulinte firmware keys F0 to F3 and the service key (R395). -/
opaque firmwareKey : Nat → List Byte
opaque serviceKey : List Byte

/-- Digests of the boot ROM and of the factory's firmware image (R404). -/
opaque romDigest : BitVec 512
opaque factoryDigest : BitVec 512

/-- Output of the random-number generator at a draw count (R393). -/
opaque randomDraw : Nat → BitVec 256

/-- SPDM responses (R403, R404): request, its bytes and what was measured. DMTF DSP0274 fixes the encoding, the spec names it only. -/
opaque spdmBody : Nat → List Byte → List (Nat × List Byte) → List Byte

/-- The certificate chain of the device identity (R394). -/
opaque certChain : List Byte

/-- The FAPI message type codes and bodies of SCF 222 (R209), which the spec names and does not lay out. -/
opaque fapiType : Nat → BitVec 16
opaque fapiBody : Nat → List Int → List Byte → List Byte
opaque fapiMsgCode : Nat → Nat

/-- The invalid value of the quality fields of a FAPI message (R221), by the index of its type. -/
opaque fapiInvalid : Nat → Int

/-- What the baseband measures of an allocation beside its data (R221): slot, allocation, 0 timing advance or 1 RSSI. -/
opaque uplinkMeasure : Nat → Nat → Nat → Int

/-- CRC attachment, LDPC encoding and rate matching of TS 38.212 (R214), whose tables the spec names and does not lay out: codeword and payload. -/
opaque ldpcCoded : DlWord → List Byte → List Bool

/-- Polar encoding and rate matching of TS 38.212 for PDCCH and PBCH (R214). -/
opaque polarCoded : DlWord → List Byte → List Bool

/-- The servo of a tracked domain (R253, R255): its filter of 0.1 Hz takes the estimate before, if any, and what an exchange measured, in ns; and the RATE that it
asks for takes the present RATE and the estimate. The spec gives neither law. -/
opaque servoFilter : Option Int → Int → Int
opaque servoRate : Int → Int → Int

/-- The factory's fronthaul base MAC address and path delays in ps (R237, R251). -/
opaque fhBaseMac : Nat
opaque txPathPs : Nat → Nat
opaque rxPathPs : Nat → Nat

/-- The power that a fronthaul lane receives, in 0.01 dBm (R263): uptime, port and lane. -/
opaque fhRxPower : Nat → Nat → Nat → Int

/-- Logical squares of a board on another device (R72, R77; assumption 38): the hoist of this device does not hold the number. -/
opaque remoteSquares : Nat → Nat → Nat

/-- The logical square at a position of a board on another device (R75; assumption 38). -/
opaque remoteSquareAt : Nat → Nat → Nat → Nat

/-- The energy estimate in µJ of a neural command by board (R225; assumption 43). -/
opaque neuralEnergy : Nat → Nat

/-- The code of a cause that a record carries where the spec numbers no causes (R202, R232; assumption 48). -/
opaque causeCode : Nat → Nat

/-- The OPCODE byte of a generation query (0x41) and of its answer (0x84), which R167 does not number; the other codes are their own (assumption 127). -/
opaque messageCode : Nat → Nat

/-- The payload granules of a sub-command message, at most 8 of which travel (R77, R167; assumption 111). -/
opaque subPayload : SubMsg → List Granule

/-- Whether a device holds a link in UP to another, as far as this device cannot know it (R409). -/
opaque linkHolder : Nat → Nat → Bool

/-- The fixed-point sample that a BF16 NaN becomes before compression (R240; assumption 3). -/
opaque nanSample : Nat → Int

/-- The signal-core programs of a firmware image, none for the factory's, by core (R229, R376). -/
opaque coreProgram : Option (List Byte) → Nat → List Byte

/-- The governor lets work that it paces go on at a moment (R357, R361): 0 arrays, 1 towers, 2 links, 3 tenant issue of a hot die; and the uptime. How it delays the
work the spec does not say. -/
opaque paceLets : Nat → Nat → Bool

end Sys2Proof.Config
end

