-- ==== Sys2Proof/Machine/Assoc.lean ====
section
/-! DEFINITION. Finite maps from natural-number keys, kept as lists with strictly rising keys, so that equal maps are
equal data. -/

namespace Sys2Proof.Machine.Assoc

/-- The entry of key `k`, if there is one. -/
def find {α : Type} : List (Nat × α) → Nat → Option α
  | [], _ => none
  | (k', v) :: t, k => if k' = k then some v else find t k

/-- The entry of key `k`, or `d` where there is none. -/
def get {α : Type} (m : List (Nat × α)) (k : Nat) (d : α) : α := (find m k).getD d

/-- Put `v` under key `k`, keeping the keys rising. -/
def set {α : Type} : List (Nat × α) → Nat → α → List (Nat × α)
  | [], k, v => [(k, v)]
  | (k', v') :: t, k, v =>
    if k < k' then (k, v) :: (k', v') :: t
    else if k' = k then (k, v) :: t
    else (k', v') :: set t k v

/-- Remove key `k`. -/
def erase {α : Type} : List (Nat × α) → Nat → List (Nat × α)
  | [], _ => []
  | (k', v') :: t, k => if k' = k then t else (k', v') :: erase t k

/-- Every key is at least `lo` and the keys rise strictly. -/
def risingFrom {α : Type} : Nat → List (Nat × α) → Bool
  | _, [] => true
  | lo, (k, _) :: t => decide (lo ≤ k) && risingFrom (k + 1) t

/-- Change the entry of `k` where there is one. -/
def modify {α : Type} (m : List (Nat × α)) (k : Nat) (f : α → α) : List (Nat × α) :=
  match find m k with
  | some v => set m k (f v)
  | none => m

/-- Drop every entry whose key lies in `[lo, hi)`. -/
def dropRange {α : Type} (m : List (Nat × α)) (lo hi : Nat) : List (Nat × α) :=
  m.filter fun e => !(decide (lo ≤ e.1) && decide (e.1 < hi))

end Sys2Proof.Machine.Assoc
end

