-- ==== Sys2Proof/Machine/Bits.lean ====
section
/-! DEFINITION. Byte order, bit fields and saturating counters: the helpers that the meanings share. -/

namespace Sys2Proof.Machine

/-- The number that a little-endian byte list spells (R7). -/
def leNat : List Byte → Nat
  | [] => 0
  | b :: t => b.toNat + 256 * leNat t

/-- `n` little-endian bytes of `v` (R7). -/
def leBytes : Nat → Nat → List Byte
  | 0, _ => []
  | n + 1, v => BitVec.ofNat 8 v :: leBytes n (v / 256)

/-- Bits `[hi:lo]` of a number. -/
def bits (v hi lo : Nat) : Nat := (v / 2 ^ lo) % 2 ^ (hi + 1 - lo)

/-- Bit `i` of a number. -/
def bit (v i : Nat) : Bool := v / 2 ^ i % 2 == 1

/-- A `w`-bit field read as two's complement. -/
def toSigned (w v : Nat) : Int := if v % 2 ^ w < 2 ^ (w - 1) then (v % 2 ^ w : Nat) else (v % 2 ^ w : Nat) - (2 ^ w : Nat)

/-- The two's complement encoding of `v` in `w` bits. -/
def ofSigned (w : Nat) (v : Int) : Nat := (v % (2 ^ w : Nat)).toNat

/-- A counter of `w` bits that stops at its largest value (R323, R150, R201, R224, R263). -/
def satAdd (w a b : Nat) : Nat := min (a + b) (2 ^ w - 1)

/-- `ceil (a / b)`. -/
def ceilDiv (a b : Nat) : Nat := (a + b - 1) / b

/-- Number of the bits of `v` that are set, among the low `n`. -/
def popcount : Nat → Nat → Nat
  | 0, _ => 0
  | n + 1, v => v % 2 + popcount n (v / 2)

/-- The positions of the set bits of `v` among the low `n`, ascending. -/
def bitList (n v : Nat) : List Nat := (List.range n).filter (bit v)

/-- The number whose set bits are the members of the list. -/
def ofBitList (l : List Nat) : Nat := l.foldl (fun a i => a ||| 2 ^ i) 0

/-- Bytes `off` to `off + n - 1` of a byte list, little-endian. Bytes past the end read as zero. -/
def fieldAt (l : List Byte) (off n : Nat) : Nat := leNat ((l.drop off).take n)

/-- The byte at an offset, zero past the end. -/
def byteAt (l : List Byte) (off : Nat) : Byte := l.getD off 0

/-- Every byte of the list is zero. -/
def allZero (l : List Byte) : Bool := l.all (· == 0)

/-- Pad with zero bytes to a multiple of `n`. -/
def padTo (n : Nat) (l : List Byte) : List Byte := l ++ List.replicate ((n - l.length % n) % n) 0

/-- Pad with zero bytes to `n` bytes, or cut there. -/
def fitTo (n : Nat) (l : List Byte) : List Byte := (l ++ List.replicate (n - l.length) 0).take n

/-- The granule's data as bytes d0 to d31. -/
def granuleBytes (v : BitVec 256) : List Byte := (List.range 32).map fun j => v.extractLsb' (8 * j) 8

/-- A granule's data from its bytes. -/
def bytesGranule (l : List Byte) : BitVec 256 := BitVec.ofNat 256 (leNat (fitTo 32 l))

/-- `l` split into pieces of `n` (fuel `k` pieces). -/
def chunksOf {α : Type} (n : Nat) : Nat → List α → List (List α)
  | 0, _ => []
  | k + 1, l => l.take n :: chunksOf n k (l.drop n)

end Sys2Proof.Machine
end

