-- ==== Sys2Proof/Machine/Code.lean ====
section
/-! DEFINITION. The granule code (06_memory_towers.md R134 to R137, R139): a shortened Reed–Solomon code over GF(2^8). -/

namespace Sys2Proof.Machine.Code

/-- Multiplication by α = 0x02 in GF(2^8) with field polynomial 0x11D (R134). -/
def xtime (a : Byte) : Byte := if a.getLsbD 7 then (a <<< 1) ^^^ 0x1D else a <<< 1

/-- Product in GF(2^8); the count runs over the bits of `b`. -/
def mulN : Nat → Byte → Byte → Byte
  | 0, _, _ => 0
  | n + 1, a, b => (if b.getLsbD 0 then a else 0) ^^^ mulN n (xtime a) (b >>> 1)

def mul (a b : Byte) : Byte := mulN 8 a b

/-- α to the power `n`. -/
def alphaPow : Nat → Byte
  | 0 => 1
  | n + 1 => xtime (alphaPow n)

/-- `a` to the power `n`. -/
def pow (a : Byte) : Nat → Byte
  | 0 => 1
  | n + 1 => mul a (pow a n)

/-- The multiplicative inverse (`a` to the power 254). -/
def inv (a : Byte) : Byte := pow a 254

/-- One step of the division of x^4·m(x) by g(x) = x^4 + 0x0F x^3 + 0x36 x^2 + 0x78 x + 0x40 (R134); the remainder so
far is (x^3, x^2, x, 1). -/
def remStep (r : Byte × Byte × Byte × Byte) (d : Byte) : Byte × Byte × Byte × Byte :=
  let f := d ^^^ r.1
  (r.2.1 ^^^ mul f 0x0F, r.2.2.1 ^^^ mul f 0x36, r.2.2.2 ^^^ mul f 0x78, mul f 0x40)

/-- The check symbols c32 to c35 of 32 data bytes (R134). -/
def checkOf (data : BitVec 256) : BitVec 32 :=
  if data = 0 then 0 else
  let r := (granuleBytes data).foldl remStep (0, 0, 0, 0)
  BitVec.ofNat 32 (leNat [r.1, r.2.1, r.2.2.1, r.2.2.2])

/-- The poison marker 0x50, 0x4F, 0x49, 0x53 in c32 to c35 (R136). -/
def marker : BitVec 32 := 0x53494F50

/-- The codeword of clean data (R134). -/
def clean (data : BitVec 256) : Granule := ⟨data, checkOf data⟩

/-- The codeword of poisoned data (R136). -/
def poisoned (data : BitVec 256) : Granule := ⟨data, checkOf data ^^^ marker⟩

/-- Form the code, clean or poisoned. -/
def form (data : BitVec 256) (poison : Bool) : Granule := if poison then poisoned data else clean data

/-- The 36 symbols of a codeword, d0 to d31 then c32 to c35. -/
def symbols (g : Granule) : List Byte :=
  granuleBytes g.data ++ (List.range 4).map fun j => g.check.extractLsb' (8 * j) 8

/-- The check burst of a tower (R133): the eight beats of each of the 32 check-channel DQ, for the granules that the six data channels transfer in a burst time
and the sender's burst-time counter. Beat i carries bit i (assumption 133). -/
def checkBurst (gs : List (Option Granule)) (counter : BitVec 16) : List Byte :=
  gs.flatMap (fun g => ((g.map symbols).getD (List.replicate 36 0)).drop 32) ++ gs.map (fun g => if g.isSome then 0xFF else 0) ++
    [counter.extractLsb' 0 8, counter.extractLsb' 8 8]

/-- The check symbols of channel `c` in a check burst. -/
def burstSymbols (b : List Byte) (c : Nat) : List Byte := (b.drop (4 * c)).take 4

/-- VALID of channel `c` in a check burst, by majority of its eight beats. -/
def burstValid (b : List Byte) (c : Nat) : Bool :=
  decide (4 < ((List.range 8).filter fun i => ((b.getD (24 + c) 0).getLsbD i)).length)

/-- The burst-time counter that a check burst carries. -/
def burstCounter (b : List Byte) : BitVec 16 := (b.getD 31 0) ++ (b.getD 30 0)

/-- A codeword from its 36 symbols. -/
def ofSymbols (l : List Byte) : Granule := ⟨bytesGranule (l.take 32), BitVec.ofNat 32 (leNat (l.drop 32))⟩

/-- Put an error into a codeword. -/
def disturb (g : Granule) (u : Upset) : Granule :=
  if u.isEmpty then g
  else ofSymbols (u.foldl (fun l e => l.modify e.1 (· ^^^ e.2)) (symbols g))

/-- The remainder form of the syndrome: the received check symbols XORed with those of the received data. It is zero
exactly when S0 to S3 of R134 are. -/
def residue (g : Granule) : BitVec 32 := checkOf g.data ^^^ g.check

/-- The residue of an error of value `e` in symbol `i`. -/
def residueOf (i : Nat) (e : Byte) : BitVec 32 :=
  residue (disturb ⟨0, 0⟩ [(i, e)])

/-- The syndrome S_i = c(α^i) of the codeword polynomial whose top coefficient is d0 (R134). -/
def syndrome (g : Granule) (i : Nat) : Byte :=
  (symbols g).foldl (fun a c => mul a (alphaPow i) ^^^ c) 0

/-- What the decoder finds (R136): steps 1 to 5. `fixed` lists the corrected symbols. -/
inductive Result where
  | clean (data : BitVec 256) (fixed : Upset)
  | poisoned (data : BitVec 256) (fixed : Upset)
  | uncorrectable
  deriving DecidableEq, Repr

/-- An error in one symbol that explains the syndromes `s0..s3`, searching the positions below `n`: the symbol at
position i weighs x^(35-i). -/
def single (s0 s1 s2 s3 : Byte) : Nat → Option (Nat × Byte)
  | 0 => none
  | n + 1 =>
    let a := alphaPow (35 - n)
    if s0 ≠ 0 ∧ mul s0 a = s1 ∧ mul s1 a = s2 ∧ mul s2 a = s3 then some (n, s0) else single s0 s1 s2 s3 n

/-- Two symbol values at positions i < j that explain s0 and s1, tested against s2 and s3. -/
def pairAt (s0 s1 s2 s3 : Byte) (i j : Nat) : Option Upset :=
  let a := alphaPow (35 - i)
  let b := alphaPow (35 - j)
  -- e + f = s0 and e a + f b = s1 give f = (s1 + a s0) / (a + b)
  let f := mul (s1 ^^^ mul a s0) (inv (a ^^^ b))
  let e := s0 ^^^ f
  if e ≠ 0 ∧ f ≠ 0 ∧ mul e (mul a a) ^^^ mul f (mul b b) = s2 ∧
      mul e (mul a (mul a a)) ^^^ mul f (mul b (mul b b)) = s3 then some [(i, e), (j, f)] else none

/-- The first pair of positions, in order, that explains the syndromes. -/
def double (s0 s1 s2 s3 : Byte) : Option Upset :=
  (List.range 36).findSome? fun j => (List.range j).findSome? fun i => pairAt s0 s1 s2 s3 i j

/-- The syndromes of the poison marker. -/
def markerSyn (i : Nat) : Byte := syndrome ⟨0, marker⟩ i

/-- The decoder of R136. -/
def decode (g : Granule) : Result :=
  let r := residue g
  if r = 0 then .clean g.data []
  else if r = marker then .poisoned g.data []
  else
    let s := fun i => syndrome g i
    match single (s 0 ^^^ markerSyn 0) (s 1 ^^^ markerSyn 1) (s 2 ^^^ markerSyn 2) (s 3 ^^^ markerSyn 3) 36 with
    | some (i, e) => .poisoned (disturb g [(i, e)]).data [(i, e)]
    | none =>
      match single (s 0) (s 1) (s 2) (s 3) 36 with
      | some (i, e) => .clean (disturb g [(i, e)]).data [(i, e)]
      | none =>
        match double (s 0) (s 1) (s 2) (s 3) with
        | some u => .clean (disturb g u).data u
        | none => .uncorrectable

/-- The value a consumer takes and whether it is poisoned: an uncorrectable granule is handled as poisoned (R136). -/
def value (g : Granule) : BitVec 256 × Bool :=
  match decode g with
  | .clean d _ => (d, false)
  | .poisoned d _ => (d, true)
  | .uncorrectable => (g.data, true)

/-- What a scrub writes back (R136, R146): corrected, poisoned with the marker kept, or an uncorrectable granule written
back poisoned. -/
def scrubbed (g : Granule) : Granule := form (value g).1 (value g).2

end Sys2Proof.Machine.Code
end

