-- ==== Sys2Proof/Machine/State.lean ====
section
/-! DEFINITION. The state of the device as plain data: every register, memory, queue, counter, mode and pin that the
spec names, and the queue of waiting commands. A field's default is its value right after a reset (the Reset column of
12_host_interface.md, R405, R247); where the spec gives none, notes/assumptions names the value. -/

namespace Sys2Proof.Machine

/-- A memory that holds granule codewords (R134): data bytes by address and check symbols by 4 × granule + i. A cell that
is not listed holds zero: a wipe writes the all-zero codeword (R134, R405). -/
structure Mem where
  data  : List Host.Cell := []
  check : List Host.Cell := []
  deriving DecidableEq, Repr

/-- The orderable parts (R1), in the code order of MGR_ID.PART (R319). -/
inductive Part where
  | a40c | a40e | b40c
  deriving DecidableEq, Repr

/-- What the factory and the running firmware fix: part, stepping, serial (R319), HLY_FW (R321), MIN_STEPPING (R376) and the image that
booted, none for the factory's. -/
structure Ident where
  part      : Part := .a40c
  stepping  : BitVec 8 := 0x01
  serial    : Word := 0
  numlib    : BitVec 16 := 0
  vtab      : BitVec 8 := 0
  build     : BitVec 24 := 0
  minStep   : BitVec 8 := 0
  fwBytes   : Option (List Byte) := none
  deriving DecidableEq, Repr

/-- Power states (R446) with the code MGR_STATE.POWER gives (OFF has none and reads 0 here). -/
inductive PowerState where
  | off | boot | idle | active | halted
  deriving DecidableEq, Repr

/-- Life-cycle states (R400). -/
inductive LifeCycle where
  | blank | provisioned | deployed | returned | scrapped
  deriving DecidableEq, Repr

/-- Pins, power, reset and boot (18_package_clocks_reset.md). `step` is the boot step in progress (R452), 8 after boot; `held` the
cause of the boot that must follow (R451), `refWait` the uptime at which step 3 began, `clockLost` that REFCLK is lost (R445),
`spareAt` the uptime at which a failover that is not complete began (R199, R202). -/
structure Power where
  state      : PowerState := .boot
  inReset    : Bool := false
  resetN     : Bool := true
  pwrFailN   : Bool := true
  thermtripN : Bool := true
  step       : Nat := 1
  cause      : Nat := 0
  held       : Option Nat := none
  recovery   : Bool := false
  issueStop  : Bool := false
  clockLost  : Bool := false
  refWait    : Nat := 0
  modules    : Nat := 4
  disabledModules : List Nat := []
  internalOsc : Bool := true
  spareSel   : Nat := 0
  spareEn    : Bool := false
  spareAt    : Option Nat := none
  lasersOff  : Bool := true
  deriving DecidableEq, Repr

-- ───────────────────────── the configuration that a hoist declares (02_hoist.md)

/-- DEVICE record (R26). -/
structure DeviceRec where
  id          : Nat := 0
  shapePolicy : Nat := 0
  accum       : Nat := 0
  cmdCapUs    : Nat := 200
  srSeed      : BitVec 32 := 0
  balance     : Nat := 0
  deriving DecidableEq, Repr

/-- A member of a BOARD record: kind 0 square, 1 local board, 2 remote board (R28). -/
structure Member where
  kind   : Nat
  device : Nat
  id     : Nat
  level  : Nat
  deriving DecidableEq, Repr

/-- BOARD record. -/
structure Board where
  id         : Nat
  part       : Nat
  split      : Nat
  shapePin   : Nat
  tempo      : Bool
  balanceOk  : Bool
  reduceRemote : Bool
  reduceRoot : Nat
  members    : List Member
  deriving DecidableEq, Repr

/-- An entry of a SHARE record (R29); `blocks` is the share-block count. -/
structure Share where
  part    : Nat
  sq      : Nat
  slot    : Nat
  first   : Nat
  blocks  : Nat
  burgee  : Nat
  reserve : Bool
  deriving DecidableEq, Repr

/-- An entry of a REGION record (R30). -/
structure Region where
  part    : Nat
  id      : Nat
  mode    : Nat
  mask    : Nat
  harq    : Bool
  watchOk : Bool
  exposed : Bool
  first   : Nat
  units   : Nat
  burgee  : Nat
  deriving DecidableEq, Repr

/-- PARTITION record (R31). -/
structure Partition where
  id         : Nat
  cls        : Nat
  latencyUs  : Nat
  maxBurgees : Nat
  deriving DecidableEq, Repr

/-- REGULATOR record (R32, R275). -/
structure Regulator where
  part        : Nat
  towerFloor  : Nat
  towerCeil   : Nat
  fabricFloor : Nat
  fabricCeil  : Nat
  hostFloor   : Nat
  hostCeil    : Nat
  channels    : Nat
  slots       : Nat
  deriving DecidableEq, Repr

/-- An entry of a BURGEE record (R33). -/
structure BurgeeRec where
  part       : Nat
  burgee     : Nat
  maxClass   : Nat
  weight     : Nat
  pasid      : BitVec 20
  cmdRate    : Nat
  byteRate   : Nat
  maxDurUs   : Nat
  vectors    : Nat
  vectorBase : Nat
  needGib    : Nat
  deriving DecidableEq, Repr

/-- One turn of a TURNTABLE record (R34). -/
structure Turn where
  slot       : Nat
  action     : Nat
  kernelSlot : Nat
  held       : Nat
  deriving DecidableEq, Repr

/-- TURNTABLE record (R34). -/
structure TurnTable where
  board   : Nat
  align   : Nat
  guardUs : Nat
  turns   : List Turn
  deriving DecidableEq, Repr

/-- FLAGFALL record (R35): entries are (primary, fallback) descriptor addresses. -/
structure FlagFall where
  board      : Nat
  defaultUs  : Nat
  minUs      : Nat
  entries    : List (Nat × Nat)
  deriving DecidableEq, Repr

/-- A cell entry of the RADIO record. -/
structure CellRec where
  id     : Nat
  scs    : Nat
  bwMhz  : Nat
  tx     : Nat
  rx     : Nat
  split  : Nat
  units  : Nat
  bDie   : Nat
  duplex : Nat
  board  : Nat
  deriving DecidableEq, Repr

/-- A flow entry of the RADIO record. -/
structure FlowRec where
  cell   : Nat
  eaxc   : Nat
  vid    : Nat
  pcp    : Nat
  port   : Nat
  uplink : Bool
  cplane : Bool
  comp   : Nat
  deriving DecidableEq, Repr

/-- RADIO record (R36). -/
structure RadioRec where
  cells : List CellRec
  flows : List FlowRec
  deriving DecidableEq, Repr

/-- ROUTE record: MODE and (destination, mask of L00–L71) entries (R37, R194). -/
structure RouteRec where
  mode    : Nat
  entries : List (Nat × Nat)
  deriving DecidableEq, Repr

/-- A group of an MCAST record (R165). -/
structure McastGroup where
  part  : Nat
  id    : Nat
  base  : Nat
  dests : List Nat
  deriving DecidableEq, Repr

/-- An entry of a LINK record (R37). -/
structure LinkRec where
  link     : Nat
  role     : Nat
  peer     : Nat
  peerLink : Nat
  deriving DecidableEq, Repr

/-- An entry of a LEASE record (R38). -/
structure LeaseRec where
  part    : Nat
  id      : Nat
  peer    : Nat
  burgee  : Nat
  offset  : Nat
  sizeGib : Nat
  rate    : Nat
  deriving DecidableEq, Repr

/-- POWER record (R39): the radio reserve and the tenant reserves in mJ. -/
structure PowerRec where
  mode     : Nat := 0
  radioMj  : Nat := 0
  reserves : List (Nat × Nat) := []
  deriving DecidableEq, Repr

/-- An entry of an ELOGRATE record (R391). -/
structure ElogRate where
  code  : Nat
  burst : Nat
  rate  : Nat
  deriving DecidableEq, Repr

/-- The configuration in force (R45): the merged content of every record. `map` holds only the entries that differ from
the default map of R10; `units` lists the units of replacement present, as (TYPE, SCOPE ID) (R24). -/
structure HoistCfg where
  device     : DeviceRec := {}
  map        : List (Nat × Nat) := []
  gates      : List Nat := []
  boards     : List Board := []
  shares     : List Share := []
  regions    : List Region := []
  partitions : List Partition := []
  regulators : List Regulator := []
  burgees    : List BurgeeRec := []
  turntables : List TurnTable := []
  flagfalls  : List FlagFall := []
  radio      : Option RadioRec := none
  route      : Option RouteRec := none
  mcast      : List McastGroup := []
  links      : List LinkRec := []
  leases     : List LeaseRec := []
  power      : PowerRec := {}
  elogRates  : List ElogRate := []
  pennant    : Option (Word × Word) := none
  units      : List (Nat × Nat) := []
  deriving DecidableEq, Repr

/-- HLY_HOIST_STAT.STATE (R321). -/
inductive HoistStat where
  | none | copying | verifying | staging | done | refused
  deriving DecidableEq, Repr

/-- The hoist operation and its registers (R41 to R49, R321). `image` is what the hoist buffer holds, `bufPoison` that an
uncorrectable or poisoned granule lies in it. During STAGING, `staged` is the merged configuration that will result,
`held` the held boards, `toSwitch` the turn-table boards still to switch, `switched` the boards that run under it, `prior` the configuration that
the other boards still read, `ungated` the squares powered up for it. `allow` is PWR_ALLOWANCE as verification began (R39). -/
structure Hoist where
  addr      : Word := 0
  len       : BitVec 22 := 0
  stat      : HoistStat := .none
  code      : Nat := 0
  index     : Nat := 0
  busySeen  : Bool := false
  clearing  : Bool := false
  image     : List Byte := []
  bufPoison : Bool := false
  staged    : HoistCfg := {}
  full      : Bool := false
  newGen    : Word := 0
  held      : List Nat := []
  toSwitch  : List Nat := []
  switched  : List Nat := []
  holdSince : Nat := 0
  switching : Bool := false
  wiping    : List (Nat × Nat) := []
  allow     : Nat := 0
  prior     : HoistCfg := {}
  ungated   : List Nat := []
  deriving DecidableEq, Repr

-- ───────────────────────── squares (03 to 05)

/-- One entry of a hardware queue: a granule and its LAST bit, the stream that brought it, and whether it arrived while the
consumer waited for it (R63, R129). -/
structure QEntry where
  g      : Granule
  last   : Bool
  stream : Nat
  late   : Bool := false
  deriving DecidableEq, Repr

/-- A data-cache line (R54, R57, R140): slot, device address of the line, its 64 bytes, dirty, poison per granule. -/
structure CacheLine where
  slot   : Nat
  addr   : Nat
  bytes  : List Byte
  dirty  : Bool
  poison : List Bool
  deriving DecidableEq, Repr

/-- An instruction-cache line (R54, R56): slot, device address of the line, its 64 bytes, poison per granule. -/
structure CodeLine where
  slot   : Nat
  addr   : Nat
  bytes  : List Byte
  poison : List Bool
  deriving DecidableEq, Repr

/-- A level of the hardware loop stack (R462): body start and end offsets and the iterations left, this one included. -/
structure LoopLevel where
  start : Nat
  stop  : Nat
  left  : Nat
  deriving DecidableEq, Repr

/-- The per-stream counters of R129. -/
structure StreamCnt where
  fetched   : Nat := 0
  used      : Nat := 0
  early     : Nat := 0
  late      : Nat := 0
  unused    : Nat := 0
  empty     : Nat := 0
  full      : Nat := 0
  stale     : Nat := 0
  watchLost : Nat := 0
  held      : Nat := 0
  deriving DecidableEq, Repr

/-- An access stream of a context (R115 to R118): its descriptor's fields and how far it has come. `blocked` says what has kept its next request back: 1 its
full queue, 2 a limit or a regulator (R129). -/
structure Stream where
  base     : Nat
  endpoint : Nat
  dir      : Nat
  queue    : Nat
  indexed  : Bool
  indexQ   : Nat
  watch    : Bool
  circ     : Bool
  start    : Nat
  chain    : Nat
  elem     : Nat
  stepSel  : Nat
  counts   : List Nat
  strides  : List Int
  circLen  : Nat
  shareAddr : Nat
  maxTags  : Nat
  started  : Bool := false
  stopped  : Bool := false
  closed   : Bool := false
  issued   : Nat := 0
  part     : Nat := 0
  moved    : Nat := 0
  indices  : List Nat := []
  watchList : List (Nat × Nat) := []
  watchLost : Bool := false
  doneLate : Bool := false
  blocked  : Nat := 0
  cnt      : StreamCnt := {}
  deriving DecidableEq, Repr

/-- A tag of an access engine (R122). `kind`: 0 local tower, 1 own share, 3 a fabric address or a multicast group, 4 a lease, 5 the
operation window; `dests` the devices it goes to. `addrs` are its granules' addresses at its endpoint, `place` the share address of its first granule
under DIR 2 and 3, `first` the number of its first granule in its stream. `held` marks a request that a full bank queue or the
hub turned away (R124, R125); `hub` names the hub's operation. `back` are granules that travel: those to write, or those that
arrived; `ready` that they arrived and wait for earlier ones, when the tag itself is free again. -/
structure Tag where
  id      : Nat
  slot    : Nat
  stream  : Nat
  write   : Bool
  kind    : Nat
  dests   : List Nat
  addrs   : List Nat
  place   : Nat
  first   : Nat
  bank    : Nat
  held    : Bool
  hub     : Option Nat
  last    : Bool
  dead    : Bool
  back    : List Granule
  ready   : Bool
  deriving DecidableEq, Repr

/-- What a context waits for (R62 to R68). `asked` of a semaphore says that the hub has the load of a remote one, `asked` of a CHECKGEN that its queries
have gone out; `signalHub` waits for the hub alone, its writes are performed; `writes` are the burgee's writes to this device's towers that come before them, by square and tag (R128). -/
inductive Wait where
  | none
  | queue (i : Instr)
  | line (i : Instr) (addr : Nat)
  | sem (addr : Nat) (value : Word) (mode : Nat) (asked : Bool)
  | semSeen
  | barrier (level id : Nat)
  | fence (mode : Nat)
  | signal (addr : Nat) (value : Word) (add : Bool)
  | signalHub (addr : Nat) (value : Word) (add : Bool)
  | gen (stream sb : Nat) (asked : Bool) (writes : List (Nat × Nat))
  | reduce (opc op level src dst len tag : Nat)
  | array (i : Instr)
  | ending
  deriving DecidableEq, Repr

/-- A context slot of a physical square (R54, R60). -/
structure Ctx where
  cmd      : Nat := 0
  active   : Bool := false
  wiping   : Bool := false
  burgee   : Nat := 0
  pc       : Nat := 0
  codeAddr : Nat := 0
  codeLen  : Nat := 0
  entry    : Nat := 0
  regs     : Vector Word 32 := Vector.replicate 32 0
  vregs    : List (Nat × VReg) := []
  preds    : List (Nat × PReg) := []
  queues   : List (Nat × List QEntry) := []
  qdir     : Nat := 0
  calls    : List Nat := []
  loops    : List LoopLevel := []
  sr       : Word := 0
  accum    : Nat := 0
  wait     : Wait := .none
  offsets  : List Int := []
  streams  : List Stream := []
  lastStream : Nat := 15
  rangeBase : Nat := 0
  seedSq    : Nat := 0
  rangeLen : Nat := 0
  redStep  : Nat := 0
  redGot   : Bool := false
  tensor   : List Granule := []
  aflags   : Nat := 0
  unread   : List Nat := []
  launched : Nat := 0
  shareBase : Nat := 0
  shareLen : Nat := 0
  sqLogical : Nat := 0
  ksplit   : Bool := false
  deriving DecidableEq, Repr

/-- An accumulator entry of the bank (R81, R101 to R105): a running FP32 sum, an INT32 sum, a complex pair or long
accumulators. `v` and `im` hold FP32 or INT32 bits, or V as a signed value; `wb`, `hi`, `lo`, `nan`, `pinf`, `ninf`
are those of R105. -/
structure Acc where
  v    : Int := 0
  im   : Int := 0
  any  : Bool := false
  anyIm : Bool := false
  wb   : Int := 0
  hi   : Bool := false
  lo   : Bool := false
  nan  : Bool := false
  pinf : Bool := false
  ninf : Bool := false
  deriving DecidableEq, Repr

/-- An operand word of the matrix instructions, decoded (R89). -/
structure OpWord where
  kind  : Nat
  fmt   : Nat
  stride : Nat
  scale : Nat
  addr  : Nat
  deriving DecidableEq, Repr

/-- Kinds of array work (R82, R91, R95). -/
inductive MatKind where
  | mmt | mmp | loadw
  deriving DecidableEq, Repr

/-- A stationary set of one segment (or of the whole array): format, loaded extent and raw elements by
(row × 1024 + column); a position not listed is exact zero padding (R92, R101). Scale codes by the same key. -/
structure StatSet where
  fmt    : Nat := 0
  loaded : Bool := false
  kr     : Nat := 0
  nc     : Nat := 0
  elems  : List (Nat × Nat) := []
  scales : List (Nat × Nat) := []
  deriving DecidableEq, Repr

/-- Work of one matrix instruction in the array (R81, R91, R92, R95). `m`, `n`, `k` are its extents (MMP: rows, columns written,
depth of the front set), `m0`, `n0`, `k0` the tile it has come to, `base` the first bank row, `front` the stationary set that an
MMP took at its issue. `bufA`, `bufB`, `bufC` hold granules popped for queue operands, `out` granules still to push; `holds` says
that the sequencer waits for it, `done` that only `out` is left. -/
structure MatOp where
  kind  : MatKind
  slot  : Nat
  seg   : Nat
  segIx : Nat
  shape : Nat
  a     : OpWord
  b     : OpWord
  c     : OpWord
  d     : OpWord
  m     : Nat
  n     : Nat
  k     : Nat
  m0    : Nat
  n0    : Nat
  k0    : Nat
  base  : Nat
  alpha : Nat
  beta  : Nat
  addC  : Bool
  shift : Nat
  rnd   : Nat
  sat   : Bool
  zero  : Bool
  flush : Bool
  wbase : Int
  long  : Bool
  front : StatSet
  bufA  : List (BitVec 256)
  bufB  : List (BitVec 256)
  bufC  : List (BitVec 256)
  out   : List (BitVec 256)
  holds : Bool
  done  : Bool
  deriving DecidableEq, Repr

/-- One segment's stationary sets and bank columns (R97); index 0 also serves the undivided array. -/
structure SegState where
  front : StatSet := {}
  back  : StatSet := {}
  bank  : List (Nat × Acc) := []
  owner : Option Nat := none
  deriving DecidableEq, Repr

/-- The matrix array of a square (R81 to R84, R97 to R100). Shape code 4 is Square. `half` alternates under MMT. -/
structure ArrayState where
  shape : Nat := 4
  segs  : List (Nat × SegState) := []
  tiles : List MatOp := []
  half  : Nat := 0
  segCount : Nat := 0
  want  : Option Nat := none
  deriving DecidableEq, Repr

/-- A physical square apart from its contexts (R54, R56, R122, R123, R447). `icache` and `cache` are its instruction and data caches; `locked`
lists the TEMPO kernels whose code is locked, as (slot, code address, length), oldest first. -/
structure Square where
  gated    : Bool := true
  arr      : ArrayState := {}
  icache   : List CodeLine := []
  cache    : List CacheLine := []
  locked   : List (Nat × Nat × Nat) := []
  tags     : List Tag := []
  nextTag  : Nat := 0
  lastSlot : Nat := 7
  scrubRow : List (Nat × Nat) := []
  scrubDue : List (Nat × Nat) := []
  deriving DecidableEq, Repr

-- ───────────────────────── commands and burgees (11, 12)

/-- Where a command stands on the way through R17. -/
inductive Stage where
  | read | waiting | energy | eligible | launched | copying | ended
  deriving DecidableEq, Repr

/-- A member square of a launched command: physical square, logical square, slot, range, state. -/
structure MemberRun where
  psq     : Nat
  sq      : Nat
  slot    : Nat
  index   : Nat
  base    : Nat
  len     : Nat
  root    : Bool
  started : Bool := false
  ended   : Bool := false
  steals  : Nat := 0
  deriving DecidableEq, Repr

/-- A remote member of a launched command (R77). -/
structure RemoteRun where
  device  : Nat
  board   : Nat
  base    : Nat
  len     : Nat
  squares : Nat
  ended   : Bool := false
  deriving DecidableEq, Repr

/-- The roll counts of a command (R335). -/
structure Rolls where
  steals   : Nat := 0
  combines : Nat := 0
  ties     : Nat := 0
  routes   : Nat := 0
  falls    : Nat := 0
  deriving DecidableEq, Repr

/-- A command that dispatch has read and that has not been completed (R308, R313). `claims` are (window, from the
partition's reserve, from the common pool) in µJ (R351, R352). `sub` names the device that sent a sub-command and its command there, `origin` the
board command it belongs to, `ranges` its M, N and K, `above` the levels above its board (R77). `haltAt` is the uptime of the context fault that
cancels the members at their next instruction (R79, R80), `holdNs` how long partial hoists have held the command back and `holdGen` the generation
of the last (R50). -/
structure Cmd where
  id        : Nat := 0
  burgee    : Nat := 0
  index     : Nat := 0
  opcode    : Nat := 0
  cls       : Nat := 0
  flags     : Nat := 0
  rsvBad    : Bool := false
  board     : Nat := 0
  fallback  : Nat := 0
  tag       : BitVec 32 := 0
  energyUj  : Nat := 0
  maxDurUs  : Nat := 0
  deadlineUs : Nat := 0
  desc      : Nat := 0
  waitAddr  : Nat := 0
  waitValue : Word := 0
  signalAddr : Nat := 0
  signalValue : Word := 0
  stage     : Stage := .read
  readAt    : Nat := 0
  waitedSince : Nat := 0
  launchAt  : Nat := 0
  startStamp : Nat := 0
  deadline  : Option Nat := none
  promoted  : Bool := false
  missed    : Bool := false
  heldSince : Option Nat := none
  members   : List MemberRun := []
  remotes   : List RemoteRun := []
  status    : Option Nat := none
  reason    : Nat := 0
  faultSq   : Nat := 0xFFFF
  faultDev  : Nat := 0
  aflags    : Nat := 0
  rolls     : Rolls := {}
  replay    : Bool := true
  tempoHeld : Bool := false
  claims    : List (Nat × Nat × Nat) := []
  usedUj    : Nat := 0
  remoteUj  : Nat := 0
  crossed   : Bool := false
  owed      : Bool := false
  isFallback : Bool := false
  boundUs   : Nat := 0
  copyPos   : Nat := 0
  copyBusy  : Nat := 0
  hostAddr  : Nat := 0
  devAddr   : Nat := 0
  copyLen   : Nat := 0
  copyOut   : Bool := false
  pennant   : Word := 0
  generation : Word := 0
  countAddr : Nat := 0
  cnts      : List (Nat × StreamCnt) := []
  sub       : Option (Nat × Nat) := none
  forced    : Bool := false
  priority  : Bool := false
  neural    : Option (Nat × Nat × Nat) := none
  squares   : Nat := 0
  ranges    : List (Nat × Nat) := []
  subLast   : Nat := 0
  subRoot   : Bool := true
  origin    : Option (Nat × Nat) := none
  above     : List Level := []
  haltAt    : Option Nat := none
  holdNs    : Nat := 0
  holdGen   : Nat := 0
  deriving DecidableEq, Repr

/-- Burgee states (R269). -/
inductive BState where
  | free | active | draining | quiet | disabled | wiped
  deriving DecidableEq, Repr

/-- A forfeit record (R293). -/
structure Forfeit where
  rung    : Nat
  cause   : Nat
  part    : Nat
  burgee  : Nat
  stamp   : BitVec 32
  detail0 : Nat
  detail1 : Nat
  count   : Nat
  deriving DecidableEq, Repr

/-- A burgee page (R320) and what the hub keeps for the burgee. -/
structure Burgee where
  state     : BState := .free
  pasid     : Option (BitVec 20) := none
  opPending : Bool := false
  ringErr   : Bool := false
  en        : Bool := false
  ringBase  : BitVec 38 := 0
  cplBase   : BitVec 39 := 0
  cplLog2   : BitVec 5 := 0
  cmdLog2   : BitVec 5 := 0
  doorbell  : BitVec 32 := 0
  cmdRead   : BitVec 32 := 0
  cplWrite  : BitVec 32 := 0
  cplRead   : BitVec 32 := 0
  dbErr     : Nat := 0
  forfeitCnt : BitVec 32 := 0
  energyUj  : Nat := 0
  cmdDone   : Nat := 0
  totals    : List Nat := [0, 0, 0, 0, 0, 0, 0, 0, 0, 0]
  forfeits  : List (Nat × Forfeit) := []
  merging   : List (Nat × Nat × Option Nat) := []
  lastRung5 : Option Nat := none
  under     : List Bool := []
  clean     : Nat := 0
  penalty   : Bool := false
  pass      : Nat := 0
  msLaunches : Nat := 0
  replyDrops : Nat := 0
  wiping    : Bool := false
  forcing   : Bool := false
  cutHold   : Bool := false
  deriving DecidableEq, Repr

/-- A byte bucket of R276: bytes held and the uptime of the last refill. -/
structure Bucket where
  bytes : Nat := 0
  since : Nat := 0
  deriving DecidableEq, Repr

/-- An open slice (R285); `taken` names the burgee whose slice a promotion took, and how many of its squares. -/
structure Slice where
  board   : Nat
  burgee  : Nat
  opened  : Nat
  length  : Nat
  paused  : Nat
  pausedAt : Option Nat
  taken   : Option (Nat × Nat)
  deriving DecidableEq, Repr

/-- Fill on a TEMPO board's squares (R359, R360): it rises toward 12 A per square, or is withdrawn from there, since an uptime. -/
structure Fill where
  rises : Bool
  since : Nat
  deriving DecidableEq, Repr

/-- A turn-table board's run state (R281 to R283): next entry, when its turn is due, the window's context slot, its scheduled
end and the command it launched, each slot's debt in µs, a delayed launch (entry, scheduled end), and the two counters. -/
structure TurnRun where
  pos       : Nat := 0
  due       : Nat := 0
  owner     : Option Nat := none
  windowEnd : Nat := 0
  cmd       : Option Nat := none
  delayed   : Option (Nat × Nat) := none
  debts     : List (Nat × Nat) := []
  empty     : Nat := 0
  late      : Nat := 0
  fill      : Option Fill := none
  reserved  : Nat := 0
  deriving DecidableEq, Repr

/-- Dispatch and the schedulers (R280 to R289). `lost` lists boards under MEMBER_LOST with the device lost (R79);
`debts` is keyed by burgee × 4096 + board; `served` is the partition served last at each arbitration point (R277). -/
structure Sched where
  cmds     : List (Nat × Cmd) := []
  nextCmd  : Nat := 1
  slices   : List Slice := []
  turns    : List (Nat × TurnRun) := []
  passes   : List (Nat × Nat) := []
  debts    : List (Nat × Nat) := []
  lost     : List (Nat × Nat) := []
  nextMs   : Nat := 0
  nextFloor : Nat := 0
  ceilings : List (Nat × Bucket) := []
  floors   : List (Nat × Bucket) := []
  served   : List (Nat × Nat) := []
  stopped  : Bool := false
  mgrBurgee : Nat := 0
  mgrStatus : Nat := 0
  bindErr  : Nat := 0
  lastPasid : BitVec 20 := 0
  deriving DecidableEq, Repr

-- ───────────────────────── fabric (07, 08)

/-- A fabric operation of this device that has not been answered (R170, R176). `kind`: 0 stream, 1 operation window, 2 semaphore,
3 reduction step, 4 copy, 5 a fence (R166), 6 a sub-command message, 7 a generation query (R128). `dests` are the destinations still to acknowledge, each with its SEQ; `status` the first
status other than OK so far. `cmd`, `psq`, `slot`, `sqTag` and `stream` say who waits for it, `ret` where its reply area lies. `sub` is what a sub-command message says. -/
structure FabOut where
  id      : Nat
  kind    : Nat
  opcode  : Nat
  dests   : List (Nat × Nat)
  burgee  : Nat
  radio   : Bool
  addr    : Nat
  size    : Nat
  fmt     : Nat
  payload : List Granule
  noCombine : Bool
  watch   : Bool
  sent    : Bool
  sentAt  : Nat
  retries : Nat
  cmd     : Nat
  psq     : Nat
  slot    : Nat
  sqTag   : Option Nat
  stream  : Nat
  ret     : Option Nat
  discard : Bool
  group   : Nat
  lease   : Option Nat
  status  : Nat
  sub     : Option SubMsg := none
  deriving DecidableEq, Repr

/-- A replay-table entry (R177). -/
structure ReplayEntry where
  burgee : Nat
  seq    : Nat
  value  : List Granule
  status : Nat
  aflags : Nat
  deriving DecidableEq, Repr

/-- A combine entry of this device's router (R172). `sent` marks one whose combined request has left. -/
structure CombineEntry where
  id     : Nat
  opcode : Nat
  dst    : Nat
  addr   : Word
  size   : Nat
  fmt    : Nat
  held   : Nat
  openAt : Nat
  parts  : List CombinePart
  first  : Wire
  sent   : Bool
  deriving DecidableEq, Repr

/-- A request waiting at the home for its predecessor (R170), with the constituents of a combined one (R173). -/
structure HomeWait where
  opcode : Nat
  req    : FabReq
  parts  : List CombinePart
  deriving DecidableEq, Repr

/-- The receiver at one end of a die-to-die link (R13, R138, R184): the last flit accepted, and the slots of one that it refused with their residues. -/
structure DieRx where
  fseq   : BitVec 12 := 0xFFF
  badSyn : List (Nat × BitVec 32) := []
  deriving DecidableEq, Repr

/-- The hub's fabric state. Keys are device × 256 + burgee; `seqNext` is the next SEQ to give, `homeNext` the next SEQ
to perform. `windows` holds the operation-window assembly, keyed (psq × 8 + slot) × 16 + stream (R159); `writeWaits` counts hub writes that waited
for a free bank cycle (R80, R113, R130). -/
structure Hub where
  dieRx     : List (Nat × DieRx) := []
  outs      : List FabOut := []
  seqNext   : List (Nat × Nat) := []
  homeNext  : List (Nat × Nat) := []
  homeWait  : List HomeWait := []
  replay    : List (Nat × List ReplayEntry) := []
  combines  : List CombineEntry := []
  combineNs : BitVec 10 := 64
  combineCnt : Nat := 0
  routeAdapt : Nat := 0
  cnt       : List Nat := [0, 0, 0, 0, 0, 0, 0, 0]
  tagPeak   : Nat := 0
  windows   : List (Nat × List Granule) := []
  waiting   : List Wire := []
  lostLeases : List (Nat × Nat) := []
  writeWaits : Nat := 0
  deriving DecidableEq, Repr

/-- Link states (R187) in the code order of R201. -/
inductive LinkSt where
  | off | down | probe | answer | train | verify | up | failed
  deriving DecidableEq, Repr

/-- A message that a link sends (R183): its virtual channel, its destination, and the granules that have not left. -/
structure TxMsg where
  vc   : Nat
  dst  : Nat
  left : List Granule
  deriving DecidableEq, Repr

/-- A logical link (R187, R190, R201) and the two sides of its carrier (R183 to R185). `lastProbe` is the uptime of the last
probe start; `fails` the uptimes of failed trainings. Of the receiver: `fseq` the last flit accepted, `refusals` those of the flit now due, `badSyn` the
refused slots with their residues, `rx` the granules in its buffers by virtual channel, `freed` those freed since the last flit sent, `nakDue` that the next flit carries
NAK. Of the transmitter: `txq` the messages, `credits` the link credits held per virtual channel, `sendSeq` the FSEQ of the next new flit, `retryBuf` the flits not yet
acknowledged, oldest first, `sentTo` how many of those have been sent since the last NAK, `acked` the last ACK received, `flitDue` when the next flit leaves,
in 10 ps. `lowMargin` and `lowFec` since when a wavelength has been out of its margin; `biasLog` the laser
bias of its wavelengths over the last 30 days with the uptimes of its measurements, newest first; `downAt` when the link left UP with light; `failover` that O8 takes it over. -/
structure Link where
  st        : LinkSt := .down
  carrier   : Option Nat := none
  retry     : Nat := 0
  uncorr    : Nat := 0
  apr       : Nat := 0
  waves     : List WaveMeasure := []
  lastProbe : Option Nat := none
  stateAt   : Nat := 0
  fails     : List Nat := []
  fseq      : BitVec 12 := 0xFFF
  refusals  : Nat := 0
  badSyn    : List (Nat × BitVec 32) := []
  rx        : List (List Granule) := [[], [], [], []]
  freed     : List Nat := [0, 0, 0, 0]
  nakDue    : Bool := false
  txq       : List TxMsg := []
  credits   : List Nat := [4096, 4096, 1024, 256]
  sendSeq   : BitVec 12 := 0
  retryBuf  : List Flit := []
  sentTo    : Nat := 0
  acked     : BitVec 12 := 0xFFF
  flitDue   : Nat := 0
  lowMargin : List (Nat × Nat) := []
  lowFec    : List (Nat × Nat) := []
  biasLog   : List (Nat × List Nat) := []
  downAt    : Option Nat := none
  fencedAt  : Option Nat := none
  failover  : Bool := false
  deriving DecidableEq, Repr

-- ───────────────────────── towers (06)

/-- A tower channel (R149 to R151). Key 7t + c. `dq` counts corrected symbols by DQ; `rate` holds by DQ the second last counted in, the symbols in
it and how many seconds in a row had more than 1,000; `dqHot` the DQs reported. `since` is the uptime at which a training or retraining attempt began, `lostFrom` the device
time from which reserved slots lost to it have not been reported, `trained` the training steps done at boot and `tries` the tries of the next one (R148). -/
structure Chan where
  corr1   : Nat := 0
  corr2   : Nat := 0
  uncorr  : Nat := 0
  poisonWr : Nat := 0
  align   : Nat := 0
  dq      : List (Nat × Nat) := []
  scrub   : Nat := 0
  temp    : Int := 0
  st      : Nat := 0
  fails   : Nat := 0
  alignAt : List Nat := []
  nextScrub : Nat := 0
  sum1    : Nat := 0
  sum2    : Nat := 0
  rate    : List (Nat × Nat × Nat × Nat) := []
  dqHot   : List Nat := []
  since   : Nat := 0
  lostFrom : Nat := 0
  trained : Nat := 0
  tries   : Nat := 0
  deriving DecidableEq, Repr

/-- A request in a bank queue (R124, R145): its square and tag, and whether it has one of the 16 entries kept for reserved slots. -/
structure BankEntry where
  sq   : Nat
  tag  : Nat
  kept : Bool
  deriving DecidableEq, Repr

/-- A scrub that a read with a syndrome has caused (R147, R152): tower key of the granule, the granule that the scrub read, and whether a write to it has
entered the bank queue since. -/
structure ScrubWait where
  key  : Nat
  g    : Granule
  stale : Bool
  deriving DecidableEq, Repr

/-- A host access to tower memory that waits for its channel (R124, R145, R149, R303). -/
inductive HostAcc where
  | read (addr len : Nat)
  | write (addr : Nat) (bytes : List Byte) (poison : Bool)
  deriving DecidableEq, Repr

/-- The memory controllers (R124, R127, R144 to R147). `banks` holds the queued requests per bank (channel × 16 + bank), oldest first,
`rotor` the last requester served per bank, `gens` the write generations by 4 KiB page, `scrubs` the scrubs that reads have caused, `hostWait` host
accesses that a channel holds back, `refreshRow` the next row that each tower refreshes. -/
structure Towers where
  chans    : List (Nat × Chan) := []
  banks    : List (Nat × List BankEntry) := []
  scrubs   : List ScrubWait := []
  hostWait : List HostAcc := []
  refreshRow : List (Nat × Nat) := []
  rotor    : List (Nat × Nat) := []
  gens     : List (Nat × BitVec 16) := []
  frameDue : Nat := 0
  frameNo  : Nat := 0
  refreshed : Bool := false
  calibrated : Bool := false
  sumDue   : Nat := 60000000000
  sramScrub : Nat := 0
  sramDue  : Nat := 0
  sramCorr : Nat := 0
  deriving DecidableEq, Repr

-- ───────────────────────── radio (09, 10)

/-- Cell states (R210). -/
inductive CellSt where
  | hoisted | configured | running
  deriving DecidableEq, Repr

/-- The TLVs of R211 at their values in force. -/
structure Tlvs where
  neuralBoard  : Nat := 0
  neuralMode   : Nat := 0
  neuralBudget : Nat := 150
  maxIter      : Nat := 8
  ulWindow     : Nat := 50
  agcTarget    : Int := -18
  rampSamples  : Nat := 0
  paLead       : Nat := 1000
  paLag        : Nat := 1000
  prachThresh  : Nat := 150
  deriving DecidableEq, Repr

/-- The counters of the status area (R224). -/
structure CellCnt where
  sfn       : Nat := 0
  slots     : Nat := 0
  dlLate    : Nat := 0
  txErr     : Nat := 0
  ulLate    : Nat := 0
  ringFull  : Nat := 0
  neuralRun : Nat := 0
  neuralFb  : Nat := 0
  iterCap   : Nat := 0
  noStore   : Nat := 0
  crcOk     : Nat := 0
  crcFail   : Nat := 0
  clip      : Nat := 0
  noise     : List (Nat × Int) := []
  rssi      : List Int := []
  deriving DecidableEq, Repr

/-- An uplink message of R209, R213, R221. -/
inductive UlMsg where
  | configResponse (ok : Bool)
  | stopIndication
  | slotIndication (slot : Nat)
  | rxData (slot alloc : Nat) (block : List Byte)
  | crc (slot alloc : Nat) (ok : Bool)
  | uci (slot : Nat) (l : List UciReport)
  | srs (slot : Nat) (l : List SrsReport)
  | rach (slot : Nat) (l : List Preamble)
  | error (code mtype slot : Nat)
  deriving DecidableEq, Repr

/-- An uplink message that waits for ring room, with the device time after which it is dropped (R213). -/
structure UlWait where
  msg : UlMsg
  due : Option Nat
  deriving DecidableEq, Repr

/-- A HARQ buffer (R219, R220): its place in the cell's slices, its length in LLRs, and whether it holds those of a first transmission. -/
structure HarqBuf where
  off    : Nat
  len    : Nat
  filled : Bool
  deriving DecidableEq, Repr

/-- A PDU of a slot as the mapping engine puts it out (R214, R215): for each layer its points, real and imaginary part in the cell's sample format. -/
structure Mapped where
  pdu    : Nat
  layers : List (List (BitVec 16 × BitVec 16))
  deriving DecidableEq, Repr

/-- An uplink allocation being served (R217, R219, R225): the symbols that have arrived, keyed by symbol × 256 + antenna; the code blocks that have been
queued, how many are decoded, whether all passed, whether its buffers have been asked for and whether it got none, what its blocks decoded to, and its neural
command. -/
structure AllocRun where
  slot     : Nat
  alloc    : UlAlloc
  arrived  : List (Nat × Bool) := []
  queued   : List Nat := []
  done     : Nat := 0
  ok       : Bool := true
  begun    : Bool := false
  noStore  : Bool := false
  data     : List (Nat × List Byte) := []
  neural   : Option Nat := none
  deriving DecidableEq, Repr

/-- A code block in a die's decoder queue (R217, R218). -/
structure Block where
  id     : Nat
  cell   : Nat
  slot   : Nat
  alloc  : Nat
  number : Nat
  rows   : Nat
  zc     : Nat
  limit  : Nat
  capped : Bool
  due    : Nat
  deriving DecidableEq, Repr

/-- A cell of the RADIO record (R207 to R213, R219, R222). `dirDue` says that a hoist has been applied since its directory entry was read; `slotNow` is the slot
whose boundary was read last, `stopSlot` the one at which the cell stops, `stopped` the one at which it last did; `waiting` the messages that wait for ring room;
`grid` what the mapping engine puts out for the slot last begun; `freezes` the first and last symbols of gain freezes, counted from the slot number × 14; `gains`
the frozen gain in 1/16 dB by freeze × 256 + antenna; `harq` the LLR buffers by process × 1024 + code block; `seqIds` the last seqId of each uplink flow and
`sentIds` the next of each downlink flow. -/
structure Cell where
  st        : CellSt := .hoisted
  dirRead   : Bool := false
  dirDue    : Bool := false
  dirIndex  : Nat := 0
  dlSize    : Nat := 0
  dlBase    : Nat := 0
  ulBase    : Nat := 0
  ulSize    : Nat := 0
  statusAddr : Nat := 0
  dlWrite   : Nat := 0
  dlRead    : Nat := 0
  ulWrite   : Nat := 0
  ulSeq     : Nat := 0
  tlv       : Tlvs := {}
  cnt       : CellCnt := {}
  starting  : Bool := false
  stopping  : Bool := false
  stopSlot  : Option Nat := none
  stopped   : Option Nat := none
  slotNow   : Option Nat := none
  lateSlots : List Nat := []
  dl        : List (Nat × List DlPdu) := []
  tx        : List (Nat × List TxPdu) := []
  dci       : List (Nat × List DlPdu) := []
  grid      : List Mapped := []
  allocs    : List AllocRun := []
  waiting   : List UlWait := []
  seqIds    : List (Nat × Nat) := []
  sentIds   : List (Nat × Nat) := []
  freezes   : List (Nat × Nat) := []
  gains     : List (Nat × Int) := []
  clips     : List (Nat × Bool) := []
  harq      : List (Nat × HarqBuf) := []
  iterSlot  : Option Nat := none
  deriving DecidableEq, Repr

/-- An address generator of a signal core (R229): its address, and the base and length of its circular buffer (0: none). -/
structure AddrGen where
  addr : Nat := 0
  base : Nat := 0
  len  : Nat := 0
  deriving DecidableEq, Repr

/-- A signal core (R229): its 8 complex accumulators as real and imaginary parts (a position not listed is 0), its sticky SAT, its
granule-coded data memory of 128 KiB, its 4 address generators and their 8 offset registers. Its program memory is
`signalProgram`. -/
structure SignalCore where
  acc  : List (Int × Int) := []
  sat  : Bool := false
  data : Mem := {}
  gens : List AddrGen := []
  offs : List Int := []
  deriving DecidableEq, Repr

/-- The baseband: cells by CELL_ID, each die's decoder queue, signal cores by die × 64 + core. -/
structure Radio where
  cells    : List (Nat × Cell) := []
  queues   : List (Nat × List Block) := []
  nextBlk  : Nat := 0
  cores    : List (Nat × SignalCore) := []
  deriving DecidableEq, Repr

/-- A fronthaul port (R234, R237, R263). -/
structure Port where
  breakout : Bool := false
  jumbo    : Bool := false
  link     : Nat := 0
  tx       : Nat := 0
  rx       : Nat := 0
  fcsErr   : Nat := 0
  discard  : Nat := 0
  seqGap   : Nat := 0
  early    : Nat := 0
  late     : Nat := 0
  txPoison : Nat := 0
  qlRx     : BitVec 8 := 0
  deriving DecidableEq, Repr

/-- A peer entry of FH_CONFIG (R237). -/
structure FhPeer where
  cell : Nat
  port : Nat
  sub  : Nat
  mac  : Nat
  deriving DecidableEq, Repr

/-- The fronthaul of the hub. -/
structure Fronthaul where
  ports : List (Nat × Port) := []
  peers : List FhPeer := []
  deriving DecidableEq, Repr

/-- Time states (R254). -/
inductive TimeSt where
  | freerun | acquiring | locked | holdover
  deriving DecidableEq, Repr

/-- A tracked PTP domain (R252, R253): parameters; the parent as (clockClass, sub-port 4p + s) and the uptime of its last Announce; the
servo: consecutive valid exchanges, the estimate, the last Sync, and the estimates of the last 16 s with their uptimes, newest first. -/
structure Domain where
  en        : Bool := false
  num       : Nat := 24
  prio      : Nat := 128
  asym      : Int := 0
  master    : BitVec 32 := 0
  slave     : BitVec 32 := 0
  parent    : Option (Nat × Nat) := none
  lastAnn   : Nat := 0
  valid     : Nat := 0
  offset    : Int := 0
  lastSync  : Option Int := none
  estimates : List (Nat × Int) := []
  deriving DecidableEq, Repr

/-- A pulse pin (R260): its registers; `run` the polarity, period, width and phase that a running periodic pin goes by, and `last` the device
time of its last leading edge; `armed` a one-shot that has not fired. -/
structure TimeOut where
  mode     : Nat := 0
  polarity : Bool := false
  aT       : Word := 0
  period   : Nat := 1000000000
  width    : Nat := 100000000
  phase    : Nat := 0
  run      : Option (Bool × Nat × Nat × Nat) := none
  armed    : Bool := false
  last     : Nat := 0
  deriving DecidableEq, Repr

/-- The time unit (R247 to R262, R322). `acc` is the 96-bit accumulator, `rates` RATE's changes with their uptimes, newest first. -/
structure TimeUnit where
  acc      : BitVec 96 := 0
  rate     : Int := 0
  st       : TimeSt := .freerun
  active   : Nat := 0
  refused  : Bool := false
  outDone  : BitVec 4 := 0
  outLate  : BitVec 4 := 0
  capOvf   : BitVec 2 := 0
  latch    : BitVec 32 := 0
  alpha    : Nat := 0
  qlTx     : BitVec 4 := 0xF
  synceLock : Bool := false
  synceEn  : Bool := false
  synceLane : BitVec 2 := 0
  syncePort : BitVec 3 := 0
  rclkHold : Bool := true
  holdUntil : Option Nat := none
  inCfg    : BitVec 2 := 0
  caps     : List (Nat × List (BitVec 32)) := []
  doms     : List (Nat × Domain) := [(0, {}), (1, { num := 25 })]
  outs     : List (Nat × TimeOut) := []
  holdoverAt : Nat := 0
  rates    : List (Nat × Int) := []
  esmcDue  : Nat := 0
  deriving DecidableEq, Repr

-- ───────────────────────── host interface, Halyard (12, 15)

/-- An MSI-X table entry (R303, R318). -/
structure Msix where
  addr   : Word := 0
  data   : BitVec 32 := 0
  masked : Bool := true
  pend   : Bool := false
  deriving DecidableEq, Repr

/-- HLY_MBOX_STAT.STATE (R321). -/
inductive MboxSt where
  | idle | running | done
  deriving DecidableEq, Repr

/-- The Halyard mailbox (R321): status registers, the buffer's bytes, and the answer of the running request. -/
structure Mbox where
  st      : MboxSt := .idle
  status  : Nat := 0
  respLen : Nat := 0
  buf     : List Host.Cell := []
  answer  : Nat × List Byte := (0, [])
  deriving DecidableEq, Repr

/-- The token bucket and suppression count of an event code (R391). Tokens are counted in units of 1/10^9 record. -/
structure LogBucket where
  tokens : Nat
  at_    : Nat
  burst  : Nat
  rate   : Nat
  count  : Nat
  first  : Nat
  last   : Nat
  deriving DecidableEq, Repr

/-- The event recorder (R381 to R388) and the Halyard side of the MRAM. `starts` lists the ring byte counts at which the
unread records begin, oldest first, each with whether it is a PAD. -/
structure Elog where
  ring     : List Host.Cell := []
  write    : Nat := 0
  read     : Nat := 0
  lost     : Nat := 0
  thresh   : Nat := 16384
  seq      : Nat := 0
  starts   : List (Nat × Bool) := []
  buckets  : List (Nat × LogBucket) := []
  flush    : Option (Nat × Nat) := none
  flushed  : Nat := 0
  nextHour : Nat := 0
  firstFatal : Option Nat := none
  deriving DecidableEq, Repr

/-- Firmware update states (R378). -/
inductive FwSt where
  | none | staged | writing | written | failed
  deriving DecidableEq, Repr

/-- Watchdog, firmware update, recovery, sensors and non-volatile memories of Halyard (R368 to R380). `canaryLow` holds the canary minima of the last 60 s
that no later one undercuts, `voltOut` when each monitor last read outside 80 % of its band (R419). `feedPend` is when the feed-pending bit was set, and after how many
ns the core clears it (assumption 85). -/
structure Halyard where
  wdogEn   : Bool := false
  wdogMs   : Nat := 10000
  wdogNext : Nat := 10000
  feedPend : Option (Nat × Nat) := none
  wdogAt   : Nat := 0
  norFactory : Bool := true
  nor      : List Host.Cell := []
  fw       : FwSt := .none
  fwAddr   : Nat := 0
  fwLen    : Nat := 0
  fwDigest : BitVec 512 := 0
  fwBuild  : BitVec 24 := 0
  fwBytes  : Nat := 0
  recGot   : Nat := 0
  recLen   : Nat := 0
  recBegun : Bool := false
  mram     : List Host.Cell := [(0x105, 0x02)]
  temps    : List Int := []
  volts    : List Nat := []
  canaries : List Nat := []
  corrDue  : Nat := 60000000000
  scanDue  : Nat := 0
  canaryDue : Nat := 0
  canaryLow : List (Nat × Nat) := []
  voltOut  : List (Nat × Nat) := []
  deriving DecidableEq, Repr

/-- An owner key row (R397). -/
structure KeyRow where
  slot    : Nat
  key     : List Byte
  release : Nat
  revoked : Bool
  deriving DecidableEq, Repr

/-- The security engine (R393 to R405). -/
structure Security where
  lc       : LifeCycle := .provisioned
  release  : Nat := 0
  epoch    : Nat := 0
  rows     : List KeyRow := []
  identity : Bool := true
  nonce    : Option (BitVec 256 × Nat) := none
  draws    : Nat := 0
  chain    : BitVec 512 := 0
  wipeRun  : Bool := false
  wipeUs   : Nat := 0
  fwRevoked : BitVec 4 := 0
  transition : Option (Nat × Nat × Nat) := none
  mramCopy : Nat × Nat := (1, 0)
  deriving DecidableEq, Repr

/-- The energy accountant, governor and thermal state (14). Energies in mJ unless the name says µJ. -/
structure Energy where
  cap      : Nat := 1500
  capReg   : Nat := 1500
  allow    : Nat := 15000
  allowReg : Nat := 15000
  window   : Nat := 0
  due      : Nat := 0
  budget   : Nat := 0
  started  : Bool := false
  history  : List Nat := []
  poolRes  : List (Nat × Nat) := []
  common   : Nat := 0
  deficit  : Nat := 0
  mode     : Nat := 0
  power    : PowerRec := {}
  refused  : Bool := false
  admittedUj : Nat := 0
  usedAdm  : Nat := 0
  usedMeas : Nat := 0
  railMj   : List Nat := [0, 0, 0, 0, 0, 0, 0, 0, 0]
  railMv   : List Nat := [0, 0, 0, 0, 0, 0, 0, 0, 0]
  recDue   : Nat := 0
  paced    : List Nat := []
  pace75   : List Nat := []
  pace50   : List Nat := []
  halved   : List Nat := []
  coreMv   : Nat := 750
  avsAt    : Option Nat := none
  deriving DecidableEq, Repr

-- ───────────────────────── muster (17)

/-- What muster knows of a peer (R410, R411, R417): a heartbeat in the present period, silent periods, when SUSPECT was last sent, what its last
heartbeat or JOIN carried, and the cause of its expulsion with the BOOT_COUNT then. -/
structure Peer where
  heard     : Bool := false
  silent    : Nat := 0
  suspectAt : Option Nat := none
  bootCount : Nat := 0
  health    : Nat := 0
  benched   : Bool := false
  leaving   : Bool := false
  expelled  : Option Nat := none
  expelBoot : Nat := 0
  deriving DecidableEq, Repr

/-- This device's own standing (R414, R415, R417, R424). -/
inductive MusterSt where
  | member | benched | expelled | isolated | notAdmitted
  deriving DecidableEq, Repr

/-- A checkpoint cut (R426, R427). `status` has the codes of CUT_STATUS (R428). -/
structure Cut where
  burgee  : Nat
  timeout : Nat
  devices : List Nat
  ready   : List Nat
  begun   : Nat
  status  : Nat
  deriving DecidableEq, Repr

/-- A telltale cell (R421): uptime of the last pass, times of the failures of the last 24 h. -/
structure TellCell where
  pass  : Option Nat := none
  fails : List Nat := []
  deriving DecidableEq, Repr

/-- A telltale in progress (R421, R422): square, cell, whether it is the rerun after a failure, its start. -/
structure Telltale where
  psq   : Nat
  cell  : Nat
  rerun : Bool
  start : Nat
  deriving DecidableEq, Repr

/-- Muster, health, telltales and cuts. `suspicions` are (target, sender, uptime), `ledger` (device, device time), `leaves` the LEAVEs held as
(device, H), `grants` who granted this device's own; `since700` and `since300` when H last came to its present side of a band boundary; `dqBad`
(channel, uptime); `linkErrs` the link errors counted at each of the last 60 scores; `earlyReady` (cut, device) of CUT_READYs that came before CUT_BEGIN; `dieFails` (die × 5 + band, square, uptime), `dieFault` (die × 5 + band, uptime); cells by square × 20 + band × 4 + pattern. -/
structure Muster where
  members   : List Nat := []
  peers     : List (Nat × Peer) := []
  suspicions : List (Nat × Nat × Nat) := []
  ledger    : List (Nat × Nat) := []
  st        : MusterSt := .notAdmitted
  rejoin    : Bool := false
  leaving   : Bool := false
  leaveAt   : Option Nat := none
  byManager : Bool := false
  grants    : List Nat := []
  leaves    : List (Nat × Nat) := []
  changes   : Nat := 0
  hbDue     : Nat := 0
  lowSince  : Option Nat := none
  health    : Nat := 1000
  healthDue : Nat := 0
  penalties : List Nat := [0, 0, 0, 0, 0, 0, 0, 0, 0]
  band      : Nat := 0
  since700  : Nat := 0
  since300  : Nat := 0
  linkErrs  : List Nat := []
  dqBad     : List (Nat × Nat) := []
  uncorrAt  : List Nat := []
  sramAt    : List Nat := []
  dieFault  : List (Nat × Nat) := []
  dieFails  : List (Nat × Nat × Nat) := []
  cells     : List (Nat × TellCell) := []
  telltale  : Option Telltale := none
  cuts      : List (Nat × Cut) := []
  earlyReady : List (Nat × Nat) := []
  deriving DecidableEq, Repr

/-- What leaves the device, newest first: answers, messages and frames, so that statements can speak of them. -/
inductive Out where
  | msix (entry : Nat) (addr : Word) (data : BitVec 32)
  | unsupported
  | readValue (v : Word)
  | memData (bytes : List Byte) (poison : Bool)
  | snoop
  | hostRead (pasid : Pasid) (addr len : Nat)
  | hostWrite (pasid : Pasid) (addr : Nat) (g : Granule)
  | message (link : Nat) (w : Wire)
  | sub (dst : Nat) (m : SubMsg)
  | flit (link : Nat) (f : Flit)
  | dieNak (link : Nat)
  | dieForward (link : Nat) (slots : List (Nat × Granule))
  | linkId (link : Nat) (serial : Word) (device : Nat)
  | muster (opcode : Nat) (dst : Option Nat) (payload : List Nat)
  | uplane (port sub mac vid pcp eaxc seq : Nat) (prbs : List (Nat × List Int))
  | cplane (port sub mac vid pcp eaxc seq : Nat) (compHdr : Nat) (weights : Nat × List Int)
  | paControl (port sub mac vid pcp eaxc : Nat) (payload : List Byte)
  | delayResponse (port sub : Nat) (ps : Int)
  | ptp (port sub kind : Nat) (value : Int)
  | esmc (port sub : Nat) (ql : BitVec 4)
  | pulse (n : Nat) (width : Nat)
  | spdm (code : Nat) (payload : List Byte)
  | spdmError (code : Nat)
  | measurements (blocks : List (Nat × List Byte)) (signature : List Byte)
  | i3cInterrupt
  | mgrRead (s0 s1 : Nat)
  deriving DecidableEq, Repr

/-- The whole device and its queue of waiting commands. `up` counts TIME cycles since VDD_AUX rose. -/
structure State where
  pending : List Instr := []
  up      : Nat := 0
  free    : Nat := 0
  ident   : Ident := {}
  pwr     : Power := {}
  tower   : Mem := {}
  scratch : Mem := {}
  sram    : Mem := {}
  cfg     : HoistCfg := {}
  gen     : Word := 0
  hoist   : Hoist := {}
  squares : List (Nat × Square) := []
  ctxs    : List (Nat × Ctx) := []
  burgees : List (Nat × Burgee) := [(0, { state := .active })]
  sched   : Sched := {}
  hub     : Hub := {}
  links   : List (Nat × Link) := []
  tow     : Towers := {}
  radio   : Radio := {}
  fh      : Fronthaul := {}
  time    : TimeUnit := {}
  msix    : List (Nat × Msix) := []
  irqStat : BitVec 8 := 0
  mbox    : Mbox := {}
  elog    : Elog := {}
  hly     : Halyard := {}
  sec     : Security := {}
  energy  : Energy := {}
  muster  : Muster := {}
  out     : List Out := []
  deriving DecidableEq, Repr

/-- The device right after a cold reset: boot step 1 in progress (R451, R452). -/
def State.reset : State := {}

/-- Why a command's step stops. -/
inductive Fault where
  /-- Raised by the meaning of an event that the rules cannot bring about in the present state (a reply to a tag that is
  not held, a deadline that has not passed, a step of a context that does not run). Safe: the spec gives no such event. -/
  | impossible (why : String)
  deriving DecidableEq, Repr

/-- Why a command has no meaning here. -/
inductive Refusal where
  /-- Raised by `exec` alone, for a row that has no meaning yet. Safe: nothing is claimed about it. -/
  | notModelled (mnemonic : String)
  deriving DecidableEq, Repr

/-- What a meaning answers. -/
abbrev Result := Host.Outcome State Fault Refusal

end Sys2Proof.Machine
end

