-- ==== Sys2Proof/Machine/Mem.lean ====
section
/-! DEFINITION. Granule memories (R134, R139): cells that are not listed hold zero. -/

namespace Sys2Proof.Machine

/-- Read one cell of a byte list. -/
def cellAt (l : List Host.Cell) (a : Nat) : Byte := Assoc.get l a 0

/-- Write one cell and keep the list canonical: zero is what an unlisted cell holds. -/
def putCell (l : List Host.Cell) (a : Nat) (b : Byte) : List Host.Cell :=
  if b = 0 then Assoc.erase l a else Assoc.set l a b

/-- Write consecutive cells from `a` on. -/
def putCells : List Host.Cell → Nat → List Byte → List Host.Cell
  | l, _, [] => l
  | l, a, b :: t => putCells (putCell l a b) (a + 1) t

/-- Read `n` consecutive cells. -/
def cellsAt (l : List Host.Cell) (a n : Nat) : List Byte := (List.range n).map fun i => cellAt l (a + i)

/-- A cell list is canonical: addresses strictly rising, no listed zero. -/
def cellsWf (l : List Host.Cell) : Bool := Assoc.risingFrom 0 l && l.all fun c => c.2 != 0

/-- The canonical form of a granule memory. -/
def Mem.wf (m : Mem) : Bool := cellsWf m.data && cellsWf m.check

/-- One data byte as stored. -/
def Mem.byte (m : Mem) (a : Nat) : Byte := cellAt m.data a

/-- The codeword of the granule that holds address `a`. -/
def Mem.granule (m : Mem) (a : Nat) : Granule :=
  let g := a / 32
  ⟨bytesGranule (cellsAt m.data (32 * g) 32), BitVec.ofNat 32 (leNat (cellsAt m.check (4 * g) 4))⟩

/-- Store a codeword as received in the granule that holds address `a`. -/
def Mem.put (m : Mem) (a : Nat) (w : Granule) : Mem :=
  let g := a / 32
  { data := putCells m.data (32 * g) (granuleBytes w.data)
    check := putCells m.check (4 * g) (leBytes 4 w.check.toNat) }

/-- Write the all-zero codeword over `[lo, hi)`, both granule aligned (R134). -/
def Mem.wipe (m : Mem) (lo hi : Nat) : Mem :=
  { data := Assoc.dropRange m.data lo hi, check := Assoc.dropRange m.check (lo / 8) (hi / 8) }

/-- Put `bs` over `l` from offset `lo`. -/
def overlay (l : List Byte) (lo : Nat) (bs : List Byte) : List Byte := l.take lo ++ bs ++ l.drop (lo + bs.length)

/-- The codeword after bytes are written at offset `lo` of a granule (R139): a whole granule is formed anew, a part is
merged into the corrected data, and poison on either side poisons the result. -/
def mergeGranule (old : Granule) (lo : Nat) (bs : List Byte) (poison : Bool) : Granule :=
  if lo = 0 ∧ bs.length = 32 then Code.form (bytesGranule bs) poison
  else
    let v := Code.value old
    Code.form (bytesGranule (overlay (granuleBytes v.1) lo bs)) (v.2 || poison)

/-- Write bytes inside one granule (R139). -/
def Mem.merge (m : Mem) (a : Nat) (bs : List Byte) (poison : Bool) : Mem :=
  m.put a (mergeGranule (m.granule a) (a % 32) bs poison)

/-- Cut a byte span at granule boundaries: (address, bytes) pieces; the count bounds the pieces. -/
def pieces : Nat → Nat → List Byte → List (Nat × List Byte)
  | 0, _, _ => []
  | k + 1, a, bs =>
    if bs.isEmpty then [] else
    let n := 32 - a % 32
    (a, bs.take n) :: pieces k (a + n) (bs.drop n)

/-- The granule-sized reads of a span: (address, bytes wanted). -/
def spans : Nat → Nat → Nat → List (Nat × Nat)
  | 0, _, _ => []
  | k + 1, a, n =>
    if n = 0 then [] else
    let m := min n (32 - a % 32)
    (a, m) :: spans k (a + m) (n - m)

/-- Write a span through an address map that keeps granules whole. -/
def Mem.write (m : Mem) (key : Nat → Nat) (a : Nat) (bs : List Byte) (poison : Bool) : Mem :=
  (pieces (bs.length + 1) a bs).foldl (fun m p => m.merge (key p.1) p.2 poison) m

/-- The values of a span, corrected in the copy consumed, and whether any granule of it is poisoned (R137). -/
def Mem.read (m : Mem) (key : Nat → Nat) (a n : Nat) : List Byte × Bool :=
  (spans (n + 1) a n).foldl (fun r p =>
    let v := Code.value (m.granule (key p.1))
    (r.1 ++ ((granuleBytes v.1).drop (p.1 % 32)).take p.2, r.2 || v.2)) ([], false)

end Sys2Proof.Machine
end

