-- ==== Sys2Proof/Machine/Wire.lean ====
section
/-! DEFINITION. Messages and flits as they travel: the header granule, its entries and its payload (R167), the flit with its control block (R182), how a link
fills flits from its messages (R183), resends them (R184), and keeps what arrives (R185). -/

namespace Sys2Proof.Machine

-- ───────────────────────── messages (R167)

/-- The OPCODE byte of a message: the spec numbers neither a generation query nor its answer. -/
def codeByte (op : Nat) : Nat := if op = 0x41 ∨ op = 0x84 then Config.messageCode op else op

/-- Entries of a message: multicast destinations, or combine constituents. -/
def wireEntries (w : Wire) : Nat := w.dests.length + w.parts.length

/-- The 32 bytes of the header granule. -/
def wireHeader (w : Wire) : List Byte :=
  leBytes 1 (codeByte w.opcode) ++ leBytes 1 (w.vc % 4 + (if w.retry then 4 else 0) + w.held % 4 * 8 + (if w.combined then 32 else 0)) ++ leBytes 1 w.size ++
    leBytes 1 w.fmt ++ leBytes 1 w.payload.length ++ leBytes 1 (wireEntries w) ++ leBytes 2 (w.src % 1024) ++ leBytes 2 (w.dst % 1024) ++ leBytes 1 w.burgee ++
    leBytes 1 w.aflags ++ leBytes 3 w.seq ++ leBytes 1 0 ++ leBytes 8 w.addr.toNat ++ leBytes 2 (w.tag % 16384) ++ leBytes 2 w.group ++ leBytes 4 0

/-- A multicast entry is 8 bytes: [9:0] the device, [33:10] its SEQ. -/
def destEntry (d : Nat × Nat) : List Byte := leBytes 8 (d.1 % 1024 + d.2 % 2 ^ 24 * 2 ^ 10)

/-- A combine constituent is 16 bytes: [9:0] source, [17:10] burgee, [41:18] SEQ, [55:42] tag, [127:64] operand. -/
def partEntry (q : CombinePart) : List Byte :=
  leBytes 8 (q.src % 1024 + q.burgee % 256 * 2 ^ 10 + q.seq % 2 ^ 24 * 2 ^ 18 + q.tag % 16384 * 2 ^ 42) ++ fitTo 8 q.data

/-- The entry granules: entries are packed, and a partly filled granule is padded with zero bytes. -/
def entryGranules (w : Wire) : List Granule :=
  let pack := fun (n k : Nat) (l : List (List Byte × Bool)) =>
    (chunksOf k n l).map fun g => Code.form (bytesGranule (g.flatMap (·.1))) (g.any (·.2))
  pack (ceilDiv w.dests.length 4) 4 (w.dests.map fun d => (destEntry d, false)) ++ pack (ceilDiv w.parts.length 2) 2 (w.parts.map fun q => (partEntry q, q.bad))

/-- A message's granules, in the order in which they travel. -/
def wireGranules (w : Wire) : List Granule := Code.clean (bytesGranule (wireHeader w)) :: entryGranules w ++ w.payload

/-- The bytes of a granule as a receiver reads them. -/
def readBytes (g : Granule) : List Byte := granuleBytes (Code.value g).1

/-- A multicast entry, read. -/
def readDest (l : List Byte) : Nat × Nat :=
  let v := fieldAt l 0 8
  (bits v 9 0, bits v 33 10)

/-- A combine constituent, read. -/
def readPart (l : List Byte) (bad : Bool) : CombinePart :=
  let v := fieldAt l 0 8
  { src := bits v 9 0, burgee := bits v 17 10, seq := bits v 41 18, tag := bits v 55 42, data := fitTo 8 (l.drop 8), bad := bad }

/-- The message that a run of granules begins with, once all of it is there, and what follows it. A header of opcode 0x03 has multicast entries, any other that has
entries is a combined request. -/
def parseWire (l : List Granule) : Option (Wire × List Granule) := match l with
  | [] => none
  | g :: t =>
    let h := readBytes g
    let op := fieldAt h 0 1
    let ctl := fieldAt h 1 1
    let n := fieldAt h 5 1
    let per := if op = 0x03 then 4 else 2
    let k := ceilDiv n per
    let pay := fieldAt h 4 1
    if t.length < k + pay then none
    else
      let cells := ((t.take k).flatMap fun e => (List.range per).map fun i => ((readBytes e).drop (32 / per * i), (Code.value e).2)).take n
      some ({ opcode := op, vc := bits ctl 1 0, retry := bit ctl 2, held := bits ctl 4 3, combined := bit ctl 5, size := fieldAt h 2 1, fmt := fieldAt h 3 1
              src := fieldAt h 6 2 % 1024, dst := fieldAt h 8 2 % 1024, burgee := fieldAt h 10 1, aflags := fieldAt h 11 1, seq := fieldAt h 12 3
              addr := BitVec.ofNat 64 (fieldAt h 16 8), tag := fieldAt h 24 2 % 16384, group := fieldAt h 26 2
              dests := if op = 0x03 then cells.map fun c => readDest c.1 else []
              parts := if op = 0x03 then [] else cells.map fun c => readPart c.1 c.2
              payload := (t.drop k).take pay
              rsvZero := ctl / 64 == 0 && fieldAt h 6 2 / 1024 == 0 && fieldAt h 8 2 / 1024 == 0 && fieldAt h 15 1 == 0 && fieldAt h 24 2 / 16384 == 0 &&
                allZero ((h.drop 28).take 4) },
            t.drop (k + pay))

/-- The payload granule of a management message, from its items (R410): an item of several bits lies where the table puts it. -/
def musterBits (op : Nat) (l : List Nat) : Nat :=
  let x := fun i => l.getD i 0
  if op = 0x50 then x 0 % 2 ^ 32 + x 1 % 2 ^ 16 * 2 ^ 32 + x 2 % 2 * 2 ^ 48 + x 3 % 2 * 2 ^ 49
  else if op = 0x51 then x 0 % 1024 + x 1 % 2 * 2 ^ 16
  else if op = 0x52 then x 0 % 1024 + x 1 % 16 * 2 ^ 16 + x 2 % 1024 * 2 ^ 32
  else if op = 0x53 ∨ op = 0x56 then x 0 % 2 ^ 16
  else if op = 0x54 then x 0 % 2 ^ 32 + x 1 % 2 ^ 64 * 2 ^ 32 + x 2 % 2 * 2 ^ 96
  else if op = 0x58 then x 0 % 1024 + x 1 % 2 ^ 64 * 2 ^ 64
  else if 0x59 ≤ op ∧ op ≤ 0x5B then x 0 % 2 ^ 32
  else x 0 % 1024

/-- A management message (R168, R410). -/
def musterWire (op src dst : Nat) (l : List Nat) : Wire :=
  { opcode := op, vc := 3, src := src, dst := dst, payload := [Code.clean (BitVec.ofNat 256 (musterBits op l))] }

-- ───────────────────────── flits (R182)

/-- One bit of CRC-16 with polynomial 0x1021, most significant bit first (assumption 49). -/
def crcBits : Nat → BitVec 16 → BitVec 16
  | 0, c => c
  | n + 1, c => crcBits n (if c.getLsbD 15 then (c <<< 1) ^^^ 0x1021 else c <<< 1)

/-- CRC-16, initial value 0xFFFF (R182). -/
def crc16 (l : List Byte) : BitVec 16 :=
  l.foldl (fun c b => crcBits 8 (c ^^^ ((b.setWidth 16 : BitVec 16) <<< (8 : Nat)))) 0xFFFF

/-- Close a control block: its first 30 bytes and their CRC. -/
def sealCtl (l : List Byte) : List Byte := l ++ leBytes 2 (crc16 l).toNat

/-- ACK and NAK of a control block. -/
def ackField (ack : BitVec 12) (nak : Bool) : List Byte := leBytes 2 (ack.toNat + if nak then 0x8000 else 0)

/-- The control block of a flit whose first slots carry granules of the virtual channels `vcs`. -/
def flitCtl (fseq ack : BitVec 12) (nak : Bool) (vcs freed : List Nat) : List Byte :=
  sealCtl (leBytes 2 fseq.toNat ++ ackField ack nak ++ leBytes 2 (2 ^ vcs.length - 1) ++ leBytes 2 0 ++
    leBytes 4 (((List.range vcs.length).zip vcs).map fun e => e.2 * 4 ^ e.1).sum ++ (freed.flatMap fun n => leBytes 2 (min n 0xFFFF)) ++ leBytes 10 0)

/-- A flit that is sent again carries the ACK of the time at which it leaves (assumption 121). -/
def restamp (f : Flit) (ack : BitVec 12) (nak : Bool) : Flit :=
  { f with ctl := sealCtl (f.ctl.take 2 ++ ackField ack nak ++ (f.ctl.drop 4).take 26) }

/-- The granules of a flit's slots with their virtual channels. -/
def flitGranules (f : Flit) : List (Nat × Granule) :=
  (bitList 16 (fieldAt f.ctl 4 2)).filterMap fun i => (f.slots[i]?).map fun g => (bits (fieldAt f.ctl 8 4) (2 * i + 1) (2 * i), g)

-- ───────────────────────── a link's transmitter (R168, R183 to R185)

/-- The receive buffers of R185. -/
def linkBuffers : List Nat := [4096, 4096, 1024, 256]

/-- Granules of a virtual channel that wait on a link. -/
def Link.queued (k : Link) (vc : Nat) : Nat := ((k.txq.filter (·.vc == vc)).map (·.left.length)).sum

/-- Link credit of a virtual channel that no waiting granule will use (R195). -/
def Link.freeCredit (k : Link) (vc : Nat) : Nat := k.credits.getD vc 0 - k.queued vc

/-- A message joins those that a link sends. -/
def Link.push (k : Link) (w : Wire) : Link := { k with txq := k.txq ++ [{ vc := w.vc, dst := w.dst, left := wireGranules w }] }

/-- The first granule that a virtual channel sends: two messages of one channel never interleave (R183). -/
def takeGranule (vc : Nat) : List TxMsg → Option (Granule × List TxMsg)
  | [] => none
  | m :: t =>
    if m.vc = vc then match m.left with
      | [] => takeGranule vc t
      | g :: l => some (g, if l.isEmpty then t else { m with left := l } :: t)
    else (takeGranule vc t).map fun x => (x.1, m :: x.2)

/-- The next slot: the highest-priority virtual channel that has a granule and a link credit for it (R168, R183). -/
def Link.nextSlot (k : Link) : Option ((Nat × Granule) × Link) :=
  [3, 2, 1, 0].findSome? fun v =>
    if k.credits.getD v 0 = 0 then none
    else (takeGranule v k.txq).map fun x => ((v, x.1), { k with txq := x.2, credits := k.credits.modify v (· - 1) })

/-- Fill up to `n` slots. -/
def Link.fill : Nat → Link → List (Nat × Granule) × Link
  | 0, k => ([], k)
  | n + 1, k => match k.nextSlot with
    | none => ([], k)
    | some (g, k) =>
      let r := Link.fill n k
      (g :: r.1, r.2)

/-- Flits that a link keeps until they are acknowledged (R184). -/
def retryFlits : Nat := 512

/-- The flit that leaves next, if one may: one that a NAK asks for again, or a new one; with no granule ready its VALID is zero (R183, R184). -/
def Link.nextFlit (k : Link) : Option (Flit × Link) := match k.retryBuf[k.sentTo]? with
  | some f => some (restamp f k.fseq k.nakDue, { k with sentTo := k.sentTo + 1, retry := satAdd 32 k.retry 1, nakDue := false })
  | none =>
    if retryFlits ≤ k.retryBuf.length then none
    else
      let x := k.fill 16
      let f : Flit := { ctl := flitCtl k.sendSeq k.fseq k.nakDue (x.1.map (·.1)) k.freed
                        slots := x.1.map (·.2) ++ List.replicate (16 - x.1.length) (Code.clean 0) }
      some (f, { x.2 with retryBuf := k.retryBuf ++ [f], sentTo := k.sentTo + 1, sendSeq := k.sendSeq + 1, nakDue := false, freed := [0, 0, 0, 0] })

/-- An ACK takes the flits that it covers out of the retry buffer; a NAK has the rest sent again from ACK + 1 on (R184). -/
def Link.takeAck (k : Link) (ack : BitVec 12) (nak : Bool) : Link :=
  let oldest := k.sendSeq - BitVec.ofNat 12 k.retryBuf.length
  let n := (ack + 1 - oldest).toNat
  let n := if n ≤ k.retryBuf.length then n else 0
  { k with acked := ack, retryBuf := k.retryBuf.drop n, sentTo := if nak then 0 else k.sentTo - n }

/-- Both sides of a link as they are when it comes UP (R184, R185). -/
def Link.fresh (k : Link) : Link :=
  { k with fseq := 0xFFF, refusals := 0, badSyn := [], rx := [[], [], [], []], freed := [0, 0, 0, 0], nakDue := false, txq := [], credits := linkBuffers
           sendSeq := 0, retryBuf := [], sentTo := 0, acked := 0xFFF }

/-- Slots of an accepted flit go into the receive buffers of their virtual channels (R185). -/
def Link.receive (k : Link) (l : List (Nat × Granule)) : Link :=
  { k with rx := (List.range 4).map fun v => k.rx.getD v [] ++ ((l.filter (·.1 == v)).map (·.2)) }

/-- Take a message out of the front of a receive buffer, if it is one that `p` looks for: its granules are freed (R182, R185). -/
def Link.takeMessage (k : Link) (p : Wire → Bool) : Option Link :=
  (List.range 4).findSome? fun v => match parseWire (k.rx.getD v []) with
    | some (w, rest) =>
      if p w then some { k with rx := k.rx.modify v fun _ => rest, freed := k.freed.modify v (· + ((k.rx.getD v []).length - rest.length)) } else none
    | none => none

/-- Messages of the management channel toward a device that have not left a link (R169). -/
def Link.management (k : Link) (d : Nat) : Nat := (k.txq.filter fun m => m.vc == 3 && m.dst == d).length

end Sys2Proof.Machine
end

