-- ==== Sys2Proof/Machine/Ops.lean ====
section
/-! DEFINITION. The named operations over the state that the meanings share: entries of the tables, device time, the
event recorder, interrupts, fatal records, forfeits and free values. -/

namespace Sys2Proof.Machine

/-- An event that the rules cannot bring about in this state. -/
def impossible (why : String) : Result := .fault (.impossible why)

/-- Send something out of the device. -/
def emit (o : Out) (s : State) : State := { s with out := o :: s.out }

/-- A fresh free value: the state's counter moves on and nothing is known of the value (assumption 3). -/
def drawFree (s : State) : Nat × State := (Config.freeValue s.free, { s with free := s.free + 1 })

/-- Apply `f` for each member of a list, in order. -/
def forAll {α : Type} (l : List α) (f : α → State → State) (s : State) : State := l.foldl (fun s x => f x s) s

-- ───────────────────────── table entries

def State.square (s : State) (p : Nat) : Square := Assoc.get s.squares p {}
def State.setSquare (p : Nat) (q : Square) (s : State) : State := { s with squares := Assoc.set s.squares p q }

/-- The key of a physical square's context slot. -/
def ctxKey (p slot : Nat) : Nat := p * 8 + slot

def State.ctx (s : State) (p slot : Nat) : Ctx := Assoc.get s.ctxs (ctxKey p slot) {}
def State.setCtx (p slot : Nat) (c : Ctx) (s : State) : State := { s with ctxs := Assoc.set s.ctxs (ctxKey p slot) c }

def State.burgee (s : State) (b : Nat) : Burgee := Assoc.get s.burgees b {}
def State.setBurgee (b : Nat) (v : Burgee) (s : State) : State := { s with burgees := Assoc.set s.burgees b v }
def State.modBurgee (b : Nat) (f : Burgee → Burgee) (s : State) : State := s.setBurgee b (f (s.burgee b))

def State.cmd (s : State) (n : Nat) : Option Cmd := Assoc.find s.sched.cmds n
def State.setCmd (n : Nat) (c : Cmd) (s : State) : State :=
  { s with sched := { s.sched with cmds := Assoc.set s.sched.cmds n c } }
def State.modCmd (n : Nat) (f : Cmd → Cmd) (s : State) : State :=
  { s with sched := { s.sched with cmds := Assoc.modify s.sched.cmds n f } }
def State.dropCmd (n : Nat) (s : State) : State :=
  { s with sched := { s.sched with cmds := Assoc.erase s.sched.cmds n } }

def State.chan (s : State) (c : Nat) : Chan := Assoc.get s.tow.chans c {}
def State.setChan (c : Nat) (v : Chan) (s : State) : State :=
  { s with tow := { s.tow with chans := Assoc.set s.tow.chans c v } }

def State.link (s : State) (l : Nat) : Link := Assoc.get s.links l {}
def State.setLink (l : Nat) (v : Link) (s : State) : State := { s with links := Assoc.set s.links l v }

def State.cell (s : State) (c : Nat) : Option Cell := Assoc.find s.radio.cells c
def State.setCell (c : Nat) (v : Cell) (s : State) : State :=
  { s with radio := { s.radio with cells := Assoc.set s.radio.cells c v } }

def State.port (s : State) (p : Nat) : Port := Assoc.get s.fh.ports p {}
def State.setPort (p : Nat) (v : Port) (s : State) : State := { s with fh := { s.fh with ports := Assoc.set s.fh.ports p v } }

def State.peer (s : State) (d : Nat) : Peer := Assoc.get s.muster.peers d {}
def State.setPeer (d : Nat) (v : Peer) (s : State) : State :=
  { s with muster := { s.muster with peers := Assoc.set s.muster.peers d v } }

-- ───────────────────────── identity and time

/-- Number of logical squares (R2, MGR_ID.SQUARES). -/
def State.numSquares (s : State) : Nat := match s.ident.part with
  | .b40c => 140
  | _ => 160

/-- The default map of R10. -/
def defaultPhys (part : Part) (sq : Nat) : Nat := match part with
  | .b40c => 9 * (sq / 7) + sq % 7
  | _ => 9 * (sq / 8) + sq % 8

/-- The physical square of a logical square under a configuration (R10, R27). -/
def HoistCfg.physOf (cfg : HoistCfg) (part : Part) (sq : Nat) : Nat := Assoc.get cfg.map sq (defaultPhys part sq)

/-- The physical square of a logical square in the part's range. -/
def State.physOf (s : State) (sq : Nat) : Option Nat :=
  if sq < s.numSquares then some (s.cfg.physOf s.ident.part sq) else none

/-- The logical square that a physical square carries, if any (R27). -/
def State.logicalOf (s : State) (p : Nat) : Option Nat :=
  (List.range s.numSquares).find? fun sq => s.cfg.physOf s.ident.part sq == p

/-- Device time in ns, bits [95:32] of the accumulator (R247). -/
def State.devTime (s : State) : Nat := s.time.acc.toNat / 2 ^ 32

/-- Device time bits [31:0] (R248, R381). -/
def State.stamp (s : State) : Nat := s.devTime % 2 ^ 32

/-- The device's fabric ID (R26): zero while none is in force. -/
def State.deviceId (s : State) : Nat := s.cfg.device.id

/-- Code of MGR_STATE.POWER (R319, R446): OFF has no code and the hub does not answer then. -/
def PowerState.code : PowerState → Nat
  | .off => 0
  | .boot => 1
  | .idle => 2
  | .active => 3
  | .halted => 4

def LifeCycle.code : LifeCycle → Nat
  | .blank => 0
  | .provisioned => 1
  | .deployed => 2
  | .returned => 3
  | .scrapped => 4

def TimeSt.code : TimeSt → Nat
  | .freerun => 0
  | .acquiring => 1
  | .locked => 2
  | .holdover => 3

def BState.code : BState → Nat
  | .free => 0
  | .active => 1
  | .draining => 2
  | .quiet => 3
  | .disabled => 4
  | .wiped => 5

/-- A field of the MRAM's Halyard area (R374). -/
def State.mram (s : State) (off n : Nat) : Nat := leNat (cellsAt s.hly.mram off n)
def State.setMram (off n v : Nat) (s : State) : State :=
  { s with hly := { s.hly with mram := putCells s.hly.mram off (leBytes n v) } }

def mramGeneration : Nat := 0x0
def mramBootCount : Nat := 0x100
def mramLogWp : Nat := 0x104
def mramFlushSeq : Nat := 0x108
def mramLastFatal : Nat := 0x10C
def mramRetired : Nat := 0x110
def mramO8 : Nat := 0x128

/-- A square is retired in the retirement map (R374, R422). -/
def State.retired (s : State) (p : Nat) : Bool := bit (s.mram mramRetired 24) p

-- ───────────────────────── interrupts (R317, R318)

/-- Fire an MSI-X entry: a masked entry sets its pending bit; entries 0 to 7 set their MGR_IRQ_STAT bit. -/
def fire (entry : Nat) (s : State) : State :=
  let e := Assoc.get s.msix entry {}
  let s := if entry < 8 then { s with irqStat := s.irqStat ||| BitVec.ofNat 8 (2 ^ entry) } else s
  if e.masked then { s with msix := Assoc.set s.msix entry { e with pend := true } }
  else emit (.msix entry e.addr e.data) s

-- ───────────────────────── the event recorder (R381 to R391)

/-- Severity by code (R382): 0 Information, 1 Warning, 2 Error, 3 Fatal. An undefined code has none. -/
def severity : Nat → Option Nat
  | 0x0000 => some 0 | 0x0001 => some 0 | 0x0002 => some 0
  | 0x1000 => some 0 | 0x1001 => some 3 | 0x1002 => some 3 | 0x1003 => some 2 | 0x1004 => some 0
  | 0x1005 => some 3 | 0x1006 => some 0 | 0x1007 => some 2 | 0x1010 => some 0 | 0x1011 => some 1
  | 0x2000 => some 3 | 0x2001 => some 1
  | 0x2400 => some 2 | 0x2401 => some 0 | 0x2402 => some 2 | 0x2403 => some 1 | 0x2404 => some 1
  | 0x2405 => some 1 | 0x2406 => some 3 | 0x2407 => some 0
  | 0x2800 => some 1 | 0x2801 => some 0 | 0x2802 => some 2 | 0x2803 => some 1 | 0x2804 => some 1
  | 0x2805 => some 1 | 0x2806 => some 2 | 0x2807 => some 2
  | 0x2C00 => some 2 | 0x2C01 => some 2
  | 0x3000 => some 0 | 0x3001 => some 1 | 0x3002 => some 1 | 0x3003 => some 2 | 0x3004 => some 0
  | 0x3005 => some 1 | 0x3006 => some 1 | 0x3007 => some 2
  | 0x3100 => some 1 | 0x3101 => some 0 | 0x3102 => some 2
  | 0x3200 => some 0 | 0x3201 => some 1 | 0x3202 => some 0 | 0x3203 => some 1 | 0x3204 => some 1 | 0x3205 => some 0
  | 0x4000 => some 0 | 0x4001 => some 1 | 0x4002 => some 0 | 0x4003 => some 0 | 0x4004 => some 2
  | 0x5000 => some 1 | 0x5001 => some 1 | 0x5002 => some 0 | 0x5003 => some 1 | 0x5004 => some 3
  | 0x5005 => some 0 | 0x5006 => some 2
  | 0x6000 => some 1 | 0x6001 => some 2 | 0x6002 => some 0 | 0x6003 => some 1 | 0x6004 => some 2
  | 0x6005 => some 1 | 0x6006 => some 1 | 0x6007 => some 1 | 0x6008 => some 0
  | 0x7000 => some 2 | 0x7001 => some 1
  | 0x8000 => some 1 | 0x8001 => some 0 | 0x8002 => some 1 | 0x8003 => some 0 | 0x8004 => some 0
  | _ => none

/-- Codes that R391 never limits. -/
def unlimited (code : Nat) : Bool := severity code == some 3 || code == 0x0000 || code == 0x0001 || code == 0x0002 || code == 0x1000

/-- Unit of a record from a source that has no number of its own. -/
def noUnit : Nat := 0xFFFF

/-- Die codes of R381. -/
def dieHub : Nat := 0x00
def dieCompute (p : Nat) : Nat := 0x10 + p / 9
def dieBase (b : Nat) : Nat := 0x30 + b
def dieMem (t : Nat) : Nat := 0x40 + t / 2
def dieOptical (n : Nat) : Nat := 0x50 + n

/-- One 8-byte little-endian item of a body (R465); signed values are sign-extended. -/
def item (v : Nat) : List Byte := leBytes 8 v
def itemS (v : Int) : List Byte := leBytes 8 (ofSigned 64 v)

/-- Drop the oldest records that a write ending at ring count `e` overwrites (R386): an unread one moves ELOG_READ past
it and counts in ELOG_LOST unless it is a PAD. -/
def Elog.makeRoom (e : Nat) : Nat → Elog → Elog
  | 0, l => l
  | n + 1, l =>
    match l.starts with
    | [] => l
    | (st, pad) :: rest =>
      if st + 65536 < e then
        let l' := { l with starts := rest }
        let nextStart := match rest with
          | [] => l.write
          | (x, _) :: _ => x
        if l.read ≤ st then
          Elog.makeRoom e n { l' with read := nextStart, lost := if pad then l.lost else satAdd 32 l.lost 1 }
        else Elog.makeRoom e n { l' with read := max l.read nextStart }
      else l

/-- Put one record's bytes at the ring's write position (R385). -/
def Elog.append (bytes : List Byte) (pad : Bool) (l : Elog) : Elog :=
  let e := l.write + bytes.length
  let l := Elog.makeRoom e (l.starts.length + 1) l
  { l with ring := putCells l.ring (l.write % 65536) bytes, write := e, starts := l.starts ++ [(l.write, pad)] }

/-- The 16-byte header of R381 and the body, padded to 16 bytes. -/
def recordBytes (code die unit seq stamp epoch : Nat) (body : List Byte) : List Byte :=
  let b := padTo 16 body
  leBytes 2 (16 + b.length) ++ leBytes 2 code ++ leBytes 1 ((severity code).getD 0) ++ leBytes 1 die ++ leBytes 2 unit ++
    leBytes 4 stamp ++ leBytes 2 epoch ++ leBytes 2 seq ++ b

/-- Place a record in the ring (R385, R386), a PAD first where it would pass the end, and fire entry 2 when the unread
bytes rise to ELOG_THRESH (R317). -/
def place (code die unit : Nat) (body : List Byte) (s : State) : State :=
  let l := s.elog
  let before := l.write - l.read
  let t := s.devTime
  let bytes := recordBytes code die unit (l.seq % 65536) (t % 2 ^ 32) (t / 2 ^ 32 % 65536) body
  let room := 65536 - l.write % 65536
  let l := if bytes.length ≤ room then l
    else Elog.append (fitTo room (recordBytes 0x0000 dieHub noUnit 0 (t % 2 ^ 32) (t / 2 ^ 32 % 65536)
      (List.replicate (room - 16) 0))) true l
  let l := Elog.append bytes false { l with seq := l.seq + 1 }
  let s := { s with elog := l }
  if before < l.thresh ∧ l.thresh ≤ l.write - l.read then fire 2 s else s

/-- ANCHOR (R383, R384). Reason: 0 boot, 1 hourly, 2 step, 3 flush. -/
def anchor (reason : Nat) (s : State) : State :=
  place 0x0001 dieHub noUnit (leBytes 8 s.devTime ++ leBytes 1 s.time.st.code ++ leBytes 1 reason ++ leBytes 2 0 ++
    leBytes 4 (s.mram mramBootCount 4)) s

/-- Start a flush (R387): none starts while one runs (R392). The position of its ANCHOR is kept. -/
def startFlush (cause : Nat) (s : State) : State :=
  match s.elog.flush with
  | some _ => s
  | none =>
    let s := anchor 3 s
    let pos := (s.elog.starts.getLast?.map (·.1)).getD s.elog.write
    { s with elog := { s.elog with flush := some (cause, pos), flushed := s.elog.flushed } }

/-- Token bucket of a code (R391): the ELOGRATE entry in force, or the default of its severity. -/
def State.bucketOf (s : State) (code : Nat) : LogBucket :=
  match Assoc.find s.elog.buckets code with
  | some b => b
  | none =>
    let br := match s.cfg.elogRates.find? (·.code == code) with
      | some e => (e.burst, e.rate)
      | none => match severity code with
        | some 1 => (100, 50)
        | some 2 => (200, 200)
        | _ => (50, 10)
    { tokens := br.1 * 1000000000, at_ := s.up, burst := br.1, rate := br.2, count := 0, first := 0, last := 0 }

/-- Instants at which a bucket of burst zero would have gained a token (R391). -/
def LogBucket.instants (b : LogBucket) (up : Nat) : Nat := (up - b.at_) * b.rate / 1000000000

/-- Refill a bucket to the present (R391). A bucket of burst zero has no token: `tokens` is then the number of its instants that are past. -/
def LogBucket.refill (b : LogBucket) (up : Nat) : LogBucket :=
  if b.burst = 0 then { b with tokens := b.instants up }
  else { b with tokens := min (b.burst * 1000000000) (b.tokens + (up - b.at_) * b.rate), at_ := up }

/-- The bucket has reached an instant at which it gains a token (R391). -/
def LogBucket.gained (b : LogBucket) (up : Nat) : Bool :=
  if b.burst = 0 then b.tokens < b.instants up else 1000000000 ≤ (b.refill up).tokens

/-- Write the SUPPRESSED record of a code whose bucket has gained a token while its count is non-zero (R391). -/
def flushSuppressed (code : Nat) (s : State) : State :=
  let b := s.bucketOf code
  if b.count = 0 ∨ ¬ b.gained s.up then s
  else
    let s := place 0x0002 dieHub noUnit (leBytes 2 code ++ leBytes 2 0 ++ leBytes 4 b.count ++ leBytes 4 (b.first % 2 ^ 32) ++
      leBytes 2 (b.first / 2 ^ 32 % 65536) ++ leBytes 2 0 ++ leBytes 4 (b.last % 2 ^ 32) ++ leBytes 2 (b.last / 2 ^ 32 % 65536) ++
      leBytes 10 0) s
    { s with elog := { s.elog with buckets := Assoc.set s.elog.buckets code { b.refill s.up with count := 0, first := 0, last := 0 } } }

/-- What the health score counts of the records written (R419): MEM_UNCORR, HLY_SRAM_CORR, MEM_DQ_DEGRADED. -/
def noteHealth (code unit : Nat) (s : State) : State :=
  let m := s.muster
  if code = 0x2400 then { s with muster := { m with uncorrAt := s.up :: m.uncorrAt } }
  else if code = 0x1004 then { s with muster := { m with sramAt := s.up :: m.sramAt } }
  else if code = 0x2404 then { s with muster := { m with dqBad := Assoc.set m.dqBad unit s.up } }
  else s

/-- Events that also raise a manager entry: energy records entry 3 (R366), muster and link records entry 5 (R317). -/
def entryOf (code : Nat) : Option Nat :=
  if code / 4096 = 5 then some 3
  else if code / 4096 = 6 ∨ code / 256 = 0x28 then some 5
  else none

/-- Raise the manager entry of a record. -/
def fireFor (code : Nat) (s : State) : State := match entryOf code with
  | some e => fire e s
  | none => s

/-- An occurrence of a limited event (R391): it takes a token, or is counted. -/
def recordLimited (code die unit : Nat) (body : List Byte) (s : State) : State :=
  let s := flushSuppressed code s
  let b := (s.bucketOf code).refill s.up
  if b.burst ≠ 0 ∧ 1000000000 ≤ b.tokens then
    let s := { s with elog := { s.elog with buckets := Assoc.set s.elog.buckets code { b with tokens := b.tokens - 1000000000 } } }
    fireFor code (noteHealth code unit (place code die unit body s))
  else
    let t := s.devTime % 2 ^ 48
    let b := { b with count := satAdd 32 b.count 1, first := if b.count = 0 then t else b.first, last := t }
    { s with elog := { s.elog with buckets := Assoc.set s.elog.buckets code b } }

-- ───────────────────────── links in and out of UP (R182 to R184, R187, R199, R202)

/-- The physical link that carries a logical one (R199). -/
def State.carrier (s : State) (l : Nat) : Nat := (s.link l).carrier.getD l

/-- DIE of a link's records: the optical engine of its carrier. -/
def State.linkDie (s : State) (l : Nat) : Nat := dieOptical (s.carrier l / 8)

/-- Causes of LINK_DOWN, numbered by the model and coded by the implementation (assumption 48). -/
def downLight : Nat := 16
def downRefusals : Nat := 17
def downFailover : Nat := 18
def downHoist : Nat := 19
def downFence : Nat := 20
def downHalt : Nat := 21

/-- A link enters a state. -/
def enterLink (l : Nat) (st : LinkSt) (s : State) : State := s.setLink l { s.link l with st := st, stateAt := s.up }

/-- A link leaves UP for a state (R184, R187, R199, R202): what its buffers held is lost. -/
def leaveUp (l : Nat) (st : LinkSt) (cause : Nat) (s : State) : State :=
  let s := s.setLink l { (s.link l).fresh with
    st := st, stateAt := s.up, lowMargin := [], lowFec := [], downAt := if cause = downLight ∨ st = .off then none else some s.up }
  recordLimited 0x2800 (s.linkDie l) l (item (Config.causeCode cause)) s

/-- A link that is lit goes dark into a state. -/
def darken (l : Nat) (st : LinkSt) (cause : Nat) (s : State) : State :=
  if (s.link l).st = .up then leaveUp l st cause s else enterLink l st s

/-- A link has a message to send. -/
def sendOn (l : Nat) (w : Wire) (s : State) : State := emit (.message l w) (s.setLink l ((s.link l).push w))

/-- A flit leaves on a link, if one may (R183, R184). -/
def sendFlit (l : Nat) (s : State) : State := match (s.link l).nextFlit with
  | none => s
  | some (f, k) => emit (.flit l f) (s.setLink l k)

/-- The management messages that wait on a link leave it; the count bounds the flits. -/
def flushManagement (l : Nat) : Nat → State → State
  | 0, s => s
  | n + 1, s => if (s.link l).queued 3 = 0 then s else flushManagement l n (sendFlit l s)

/-- Links in UP. -/
def State.upLinks (s : State) : List Nat := (s.links.filter (·.2.st == .up)).map (·.1)

/-- The peer that the LINK record gives a link; 0 where it names none. -/
def HoistCfg.peerOf (cfg : HoistCfg) (l : Nat) : Nat := ((cfg.links.find? (·.link == l)).map (·.peer)).getD 0

/-- DEPART on every link in UP, with the flits that carry it (R410, R413). -/
def sendDepart (code : Nat) (s : State) : State :=
  forAll s.upLinks (fun l s =>
    let d := s.cfg.peerOf l
    flushManagement l 512 (sendOn l (musterWire 0x53 s.deviceId d [code]) (emit (.muster 0x53 (some d) [code]) s))) s

/-- What R390 step 1 and R413 do: DEPART on the links in UP, dispatch stops, every launched command ends without a record, cells stop, the fabric lasers go off
and a hoist in progress is lost (R392). After a loss of the clock no DEPART leaves. -/
def haltWork (code : Nat) (s : State) : State :=
  let s := if code = 0x2000 then s else sendDepart code s
  let s := forAll s.upLinks (fun l s => leaveUp l .down downHalt s) s
  { s with
    sched := { s.sched with stopped := true, cmds := s.sched.cmds.filter (fun c => c.2.stage != .launched && c.2.stage != .copying) }
    ctxs := s.ctxs.map (fun c => (c.1, { c.2 with active := false, wait := .none, streams := [] }))
    radio := { s.radio with cells := s.radio.cells.map fun c =>
      (c.1, if c.2.st == .running then { c.2 with st := .configured, slotNow := none } else c.2) }
    pwr := { s.pwr with lasersOff := true }
    hoist := { addr := s.hoist.addr, len := s.hoist.len, busySeen := s.hoist.busySeen }
    links := s.links.map (fun l => (l.1, { l.2 with st := if l.2.st == .off || l.2.st == .failed then l.2.st else .down })) }

/-- LAST_FATAL is written and the device is HALTED (R390). -/
def setHalted (s : State) : State :=
  let s := s.setMram mramLastFatal 2 (s.elog.firstFatal.getD 0)
  { s with pwr := { s.pwr with state := .halted } }

/-- The flush of a fatal record (R390); before boot step 5 no flush runs (R449, R453). -/
def fatalEnd (s : State) : State := if s.pwr.step < 5 then setHalted s else startFlush 0 s

/-- A launch or a hoist that wants the square cancels its telltale (R421). -/
def cancelTelltale (p : Nat) (s : State) : State := match s.muster.telltale with
  | some t => if t.psq = p then { s with muster := { s.muster with telltale := none } } else s
  | none => s

/-- An occurrence of an event (R381 to R391): a limited code takes a token or is counted; a fatal one halts the device
(R390). LAST_FATAL holds the first (R392). -/
def record (code die unit : Nat) (body : List Byte) (s : State) : State :=
  if unlimited code then
    let s := fireFor code (place code die unit body s)
    if severity code == some 3 then
      let s := emit .i3cInterrupt { s with elog := { s.elog with firstFatal := some (s.elog.firstFatal.getD code) } }
      fatalEnd (haltWork code s)
    else s
  else recordLimited code die unit body s

-- ───────────────────────── burgees and forfeits (R266, R293, R294)

/-- The BURGEE entry of a declared burgee (R33). -/
def HoistCfg.burgee (cfg : HoistCfg) (b : Nat) : Option BurgeeRec := cfg.burgees.find? (·.burgee == b)

/-- The PASID under which the hub moves a burgee's copies over CXL.io; those of burgee 0 go over CXL.cache, without one (R303, R309). -/
def HoistCfg.pasidOf (cfg : HoistCfg) (b : Nat) : Pasid := (cfg.burgee b).map (·.pasid)

/-- The partition of a burgee: burgee 0 counts as one of partition 0 (R29). -/
def HoistCfg.partOf (cfg : HoistCfg) (b : Nat) : Option Nat :=
  if b = 0 then some 0 else (cfg.burgee b).map (·.part)

def HoistCfg.partition (cfg : HoistCfg) (p : Nat) : Option Partition := cfg.partitions.find? (·.id == p)
def HoistCfg.board (cfg : HoistCfg) (b : Nat) : Option Board := cfg.boards.find? (·.id == b)

/-- The configuration that a board reads (R48): while a partial hoist switches boards, those that have not switched read the one before it. -/
def State.viewOf (s : State) (board : Nat) : HoistCfg :=
  if s.hoist.switching && (s.hoist.toSwitch.contains board || s.hoist.held.contains board) then s.hoist.prior else s.cfg

/-- What a board does, done under the configuration that it reads. -/
def underBoard (board : Nat) (f : State → State) (s : State) : State := { f { s with cfg := s.viewOf board } with cfg := s.cfg }

/-- Burgee 0 is always bound; another is bound while ACTIVE, DRAINING or QUIET (R266). -/
def State.bound (s : State) (b : Nat) : Bool :=
  b == 0 || match (s.burgee b).state with
    | .active => true
    | .draining => true
    | .quiet => true
    | _ => false

/-- The governor lets a burgee's work in a domain go on (R357): partition 0's is never paced (assumption 148). -/
def State.domainOpen (s : State) (d b : Nat) : Bool := s.cfg.partOf b == some 0 || !s.energy.paced.contains d || Config.paceLets d s.up

/-- The governor lets a burgee's context on a physical square issue (R361): tenants are paced while their die, or any die at 110 °C, is too hot (assumption 148). -/
def State.issueOpen (s : State) (p b : Nat) : Bool :=
  s.cfg.partOf b == some 0 || (s.energy.pace50.isEmpty && !s.energy.pace75.contains (dieCompute p)) || Config.paceLets 3 s.up

/-- A burgee takes part in work: burgee 0 always, another while declared and in one of the states given (R269). -/
def State.inState (s : State) (b : Nat) (l : List BState) : Bool :=
  b == 0 || ((s.cfg.burgee b).isSome && l.contains (s.burgee b).state)

/-- The 32 bytes of a forfeit record (R293). -/
def Forfeit.bytes (f : Forfeit) : List Byte :=
  leBytes 1 f.rung ++ leBytes 1 f.cause ++ leBytes 1 f.part ++ leBytes 1 f.burgee ++ leBytes 4 f.stamp.toNat ++
    leBytes 8 f.detail0 ++ leBytes 8 f.detail1 ++ leBytes 2 f.count ++ leBytes 6 0

/-- An occurrence of a forfeit (R292 to R294): one within 1 ms of the first of its burgee, rung and cause merges into
that record; a rung-5 forfeit is written at most once per burgee and energy window; an unbound burgee receives none in its
ring; the recorder gets FORFEIT. -/
def forfeit (rung cause b d0 d1 : Nat) (s : State) : State :=
  let g := s.burgee b
  let key := rung * 256 + cause
  let old := (Assoc.find g.merging key).filter fun m => s.up ≤ m.1 + 1000000
  match old with
  | some (_, some n) =>
    match Assoc.find g.forfeits (n % 16) with
    | some f =>
      let f := { f with count := satAdd 16 f.count 1, detail0 := satAdd 64 f.detail0 d0 }
      s.setBurgee b { g with forfeits := Assoc.set g.forfeits (n % 16) f }
    | none => s
  | some (_, none) => s
  | none =>
    if rung = 5 ∧ g.lastRung5 = some s.energy.window then s
    else
      let f : Forfeit := { rung, cause, part := (s.cfg.partOf b).getD 0, burgee := b, stamp := BitVec.ofNat 32 s.stamp
                           detail0 := d0 % 2 ^ 64, detail1 := d1 % 2 ^ 64, count := 1 }
      let n := g.forfeitCnt.toNat
      let g := if rung = 5 then { g with lastRung5 := some s.energy.window } else g
      let g := if s.bound b then
          { g with forfeits := Assoc.set g.forfeits (n % 16) f, forfeitCnt := g.forfeitCnt + 1
                   merging := Assoc.set g.merging key (s.up, some n) }
        else { g with merging := Assoc.set g.merging key (s.up, none) }
      record 0x4003 dieHub noUnit f.bytes (s.setBurgee b g)

end Sys2Proof.Machine
end

