-- ==== Sys2Proof/Machine/Space.lean ====
section
/-! DEFINITION. Address spaces: regions in the towers (R141 to R143, R155), shares in the scratchpads (R59, R156), and
the reads and writes that go through them. -/

namespace Sys2Proof.Machine

def gib : Nat := 0x40000000
def mib : Nat := 0x100000

/-- Bytes of one tower's address space (R141). -/
def towerSize : Nat := 72 * gib

/-- End of the tower window (R154). -/
def towerWindow : Nat := 432 * gib
def scratchWindow : Nat := 0x080000000000
def scratchWindowEnd : Nat := 0x080280000000
def opWindow : Nat := 0x0A0000000000
def leaseWindow : Nat := 0x0C0000000000
def leaseWindowEnd : Nat := 0x100000000000

/-- A region holds device unit `w`: unit `w mod 72` of tower `w div 72` (R155). -/
def Region.holds (r : Region) (w : Nat) : Bool :=
  bit r.mask (w / 72) && decide (r.first ≤ w % 72) && decide (w % 72 < r.first + r.units)

/-- The region of a device unit (R155): at most one by R30. -/
def HoistCfg.regionAt (cfg : HoistCfg) (w : Nat) : Option Region :=
  if w < 432 then cfg.regions.find? (·.holds w) else none

/-- H0, the lowest first unit of any mode-2 region in force (R30). -/
def HoistCfg.h0 (cfg : HoistCfg) : Nat :=
  ((cfg.regions.filter (·.mode == 2)).map (·.first)).min?.getD 0

/-- The region offset of a tower-window offset (R155 step 4). -/
def Region.offsetOf (r : Region) (o : Nat) : Nat :=
  let w := o / gib
  (popcount (w / 72) r.mask * r.units + (w % 72 - r.first)) * gib + o % gib

/-- R142: the tower and tower address of region offset `a` under mode 0 or 1. -/
def placeListed (r : Region) (a : Nat) : Nat × Nat :=
  let towers := bitList 6 r.mask
  let n := max towers.length 1
  let st := a / 2048
  (towers.getD (st % n) 0, r.first * gib + st / n * 2048 + a % 2048)

/-- R143: the tower and tower address of offset `a` in the mode-2 range that starts at unit `h0`. -/
def placeHashed (h0 a : Nat) : Nat × Nat :=
  let st := a / 2048
  let g := st / 6
  let x := (bits g 4 0 ^^^ bits g 9 5 ^^^ bits g 14 10 ^^^ bits g 19 15 ^^^ bits g 24 20 ^^^ bits g 29 25) % 6
  ((st % 6 + x) % 6, h0 * gib + g * 2048 + a % 2048)

/-- A region's placement of a region offset. A mode-2 region lies in the mode-2 range from its own first unit on
(assumption 12). -/
def HoistCfg.place (cfg : HoistCfg) (r : Region) (a : Nat) : Nat × Nat :=
  if r.mode = 2 then placeHashed cfg.h0 (a + (r.first - cfg.h0) * 6 * gib) else placeListed r a

/-- Key of a tower byte in the tower memory. -/
def towerKey (p : Nat × Nat) : Nat := p.1 * towerSize + p.2

/-- The tower byte that a tower-window offset names (R155). An offset of a unit in no region is the byte of that unit in
its tower (R304; assumption 12). -/
def HoistCfg.key (cfg : HoistCfg) (o : Nat) : Nat :=
  match cfg.regionAt (o / gib) with
  | some r => towerKey (cfg.place r (r.offsetOf o))
  | none => o

/-- Channel 7t + c and channel address of a tower byte (R141). -/
def chanOfKey (k : Nat) : Nat × Nat :=
  let t := k % towerSize
  let st := t / 2048
  (7 * (k / towerSize) + st % 6, st / 6 * 2048 + t % 2048)

/-- Bank queue of a tower byte: channel × 16 + bank (R124, R141). -/
def bankOfKey (k : Nat) : Nat :=
  let c := chanOfKey k
  c.1 * 16 + bits c.2 14 11

/-- Every byte of a range lies in regions that satisfy `p`. -/
def HoistCfg.rangeIn (cfg : HoistCfg) (p : Region → Bool) (o n : Nat) : Bool :=
  n == 0 || (decide (o + n ≤ towerWindow) &&
    (List.range ((o + n - 1) / gib - o / gib + 1)).all fun i => match cfg.regionAt (o / gib + i) with
      | some r => p r
      | none => false)

/-- A region is the burgee's own, or 0xFF opens it to every burgee of its partition (R30, R157). -/
def HoistCfg.ownsRegion (cfg : HoistCfg) (b : Nat) (r : Region) : Bool :=
  if r.burgee = 255 then cfg.partOf b == some r.part else r.burgee == b

/-- The range lies in the burgee's regions. -/
def HoistCfg.owns (cfg : HoistCfg) (b o n : Nat) : Bool := cfg.rangeIn (cfg.ownsRegion b) o n

-- ───────────────────────── tower reads and writes

/-- A DQ corrects one symbol more in second `sec` (R151): the seconds in a row with more than 1,000 are counted when the next one begins, and a
second without that many ends the run. -/
def Chan.countRate (c : Chan) (dq sec : Nat) : Chan :=
  let r := Assoc.get c.rate dq (sec, 0, 0)
  if r.1 = sec then { c with rate := Assoc.set c.rate dq (sec, r.2.1 + 1, r.2.2) }
  else
    let run := if 1000 < r.2.1 ∧ sec = r.1 + 1 then r.2.2 + 1 else 0
    { c with rate := Assoc.set c.rate dq (sec, 1, run), dqHot := if run = 0 then c.dqHot.filter (· != dq) else c.dqHot }

/-- One corrected symbol of a DQ. -/
def countDq (c dq : Nat) (s : State) : State :=
  let ch := s.chan c
  s.setChan c ({ ch with dq := Assoc.set ch.dq dq (satAdd 16 (Assoc.get ch.dq dq 0) 1) }.countRate dq (s.up / 1000000000))

/-- Count corrected symbols by DQ (R131, R133, R150): byte j of a granule travels on DQ j of its data channel, check
symbol 32 + i of data channel c on DQ 4c + i of the tower's check channel. -/
def countSymbols (c : Nat) (fixed : Upset) (s : State) : State :=
  forAll fixed (fun e s => if e.1 < 32 then countDq c e.1 s else countDq (c / 7 * 7 + 6) (c % 7 * 4 + (e.1 - 32)) s) s

/-- MEM_UNCORR (R151, R465). Source 0 read, 1 scrub. -/
def recordUncorr (c addr src : Nat) (s : State) : State :=
  record 0x2400 (dieMem (c / 7)) c (leBytes 8 addr ++ leBytes 1 src ++ leBytes 7 0) s

/-- What the controller counts for a tower read of a granule as found (R150, R151). Source 0 read, 1 scrub. -/
def countRead (k src : Nat) (g : Granule) (s : State) : State :=
  if Code.residue g = 0 then s else
  let ca := chanOfKey k
  let ch := s.chan ca.1
  match Code.decode g with
  | .clean _ fixed | .poisoned _ fixed =>
    let ch := match fixed.length with
      | 0 => ch
      | 1 => { ch with corr1 := satAdd 32 ch.corr1 1, sum1 := ch.sum1 + 1 }
      | _ => { ch with corr2 := satAdd 32 ch.corr2 1, sum2 := ch.sum2 + 1 }
    countSymbols ca.1 fixed (s.setChan ca.1 ch)
  | .uncorrectable =>
    recordUncorr ca.1 ca.2 src (s.setChan ca.1 { ch with uncorr := satAdd 32 ch.uncorr 1 })

/-- A tower read: its counts, and where the syndrome is not zero the scrub of the granule (R147, R150). -/
def noteRead (k : Nat) (g : Granule) (s : State) : State :=
  let s := countRead k 0 g s
  let a := k / 32 * 32
  if Code.residue g = 0 || s.tow.scrubs.any (·.key == a) then s
  else { s with tow := { s.tow with scrubs := s.tow.scrubs ++ [{ key := a, g := g, stale := false }] } }

/-- Reads of the granules that a span touches. -/
def noteSpan (key : Nat → Nat) (l : List (Nat × Nat)) (s : State) : State :=
  forAll l (fun q s => noteRead (key q.1) (s.tower.granule (key q.1)) s) s

/-- A write to the granules of a span enters the bank queue: what their scrubs would write back is old (R147, R152). -/
def outdate (key : Nat → Nat) (l : List (Nat × Nat)) (s : State) : State :=
  if s.tow.scrubs.isEmpty then s else
  let ks := l.map fun q => key q.1 / 32
  { s with tow := { s.tow with scrubs := s.tow.scrubs.map fun x => if ks.contains (x.key / 32) then { x with stale := true } else x } }

/-- The parts of a span that are less than a granule: their write reads the granule first (R139). -/
def partSpans (l : List (Nat × Nat)) : List (Nat × Nat) := l.filter (·.2 != 32)

/-- Disturb the stored codewords of a span with the errors that physics has left, one list per granule. -/
def disturbSpan (o n : Nat) (ups : List Upset) (s : State) : State :=
  let l := (spans (n + 1) o n).zip ups
  forAll l (fun p s =>
    let k := s.cfg.key p.1.1
    { s with tower := s.tower.put k (Code.disturb (s.tower.granule k) p.2) }) s

/-- Read device memory by tower-window offset: bytes, whether a granule is poisoned, and the controller's counts. -/
def readDev (o n : Nat) (s : State) : (List Byte × Bool) × State :=
  (s.tower.read s.cfg.key o n, noteSpan s.cfg.key (spans (n + 1) o n) s)

/-- The value of a little-endian field of device memory, without the counts: for what changes nothing by reading. -/
def peekDev (s : State) (o n : Nat) : Nat := leNat (s.tower.read s.cfg.key o n).1

/-- One performed operation that writes bytes `o` to `o + n - 1` moves the write generation of each page of a WATCH_OK
region on by one (R127). -/
def bumpGens (o n : Nat) (s : State) : State :=
  if n = 0 then s else
  forAll (List.range ((o + n - 1) / 4096 - o / 4096 + 1)) (fun i s =>
    let pg := o / 4096 + i
    match s.cfg.regionAt (pg * 4096 / gib) with
    | some r => if r.watchOk then
        { s with tow := { s.tow with gens := Assoc.set s.tow.gens pg (Assoc.get s.tow.gens pg 0 + 1) } }
      else s
    | none => s) s

/-- Perform a write of device memory by tower-window offset (R139, R127): a part of a granule is merged after a read of it. -/
def writeDev (o : Nat) (bs : List Byte) (poison : Bool) (s : State) : State :=
  if bs.isEmpty then s else
  let l := spans (bs.length + 1) o bs.length
  let s := outdate s.cfg.key l (noteSpan s.cfg.key (partSpans l) s)
  bumpGens o bs.length { s with tower := s.tower.write s.cfg.key o bs poison }

/-- Store whole codewords as received (R137, R139) by tower-window offset, as one operation. -/
def putDev (o : Nat) (gs : List Granule) (s : State) : State :=
  if gs.isEmpty then s else
  let s := outdate s.cfg.key (spans (32 * gs.length + 1) o (32 * gs.length)) s
  let t := ((List.range gs.length).zip gs).foldl (fun m p => m.put (s.cfg.key (o + 32 * p.1)) p.2) s.tower
  bumpGens o (32 * gs.length) { s with tower := t }

/-- Wipe every unit of a region (R274): under every mode a region fills its own units of each tower of its mask (R142,
R143). -/
def wipeRegion (r : Region) (s : State) : State :=
  { s with tower := (bitList 6 r.mask).foldl (fun m t =>
      m.wipe (t * towerSize + r.first * gib) (t * towerSize + (r.first + r.units) * gib)) s.tower }

-- ───────────────────────── shares

/-- Bytes of a square's scratchpad (R54). -/
def padSize : Nat := 0x800000

def HoistCfg.share (cfg : HoistCfg) (sq slot : Nat) : Option Share :=
  cfg.shares.find? fun h => h.sq == sq && h.slot == slot

def Share.size (h : Share) : Nat := h.blocks * 65536
def Share.base (h : Share) : Nat := h.first * 65536

/-- Key of a share-relative address in the scratchpad memory. -/
def padKey (p base a : Nat) : Nat := p * padSize + base + a

/-- Read a share. -/
def readPad (p base a n : Nat) (s : State) : List Byte × Bool := s.scratch.read (padKey p base) a n

/-- Write a share, forming the code (R137). -/
def writePad (p base a : Nat) (bs : List Byte) (poison : Bool) (s : State) : State :=
  { s with scratch := s.scratch.write (padKey p base) a bs poison }

/-- Store one codeword as received in a share. -/
def putPad (p base a : Nat) (g : Granule) (s : State) : State :=
  { s with scratch := s.scratch.put (padKey p base a) g }

/-- The stored codeword of a share granule. -/
def getPad (s : State) (p base a : Nat) : Granule := s.scratch.granule (padKey p base a)

/-- Wipe a share to the all-zero codeword. -/
def wipePad (p base size : Nat) (s : State) : State :=
  { s with scratch := s.scratch.wipe (p * padSize + base) (p * padSize + base + size) }

/-- A scratchpad-window offset (R156): logical square, slot, share-relative address. -/
def padWindow (o : Nat) : Nat × Nat × Nat := (bits o 33 26, bits o 25 23, bits o 22 0)

end Sys2Proof.Machine
end

