-- ==== Sys2Proof/Machine/Regulators.lean ====
section
/-! DEFINITION. Regulated bytes (R275, R276, R279, R296): ceiling buckets and floor credits. Buckets count thousandths of a byte
and are refilled at the moment they are looked at; one that was never drawn on is full (assumption 33). -/

namespace Sys2Proof.Machine

/-- Resources of R275. -/
inductive Resource where
  | tower (id : Nat)
  | fabricOut
  | fabricIn
  | hostOut
  | hostIn
  deriving DecidableEq, Repr

/-- Arbitration point of a resource (R275). -/
def Resource.point : Resource → Nat
  | .tower id => id
  | .fabricOut => 64
  | .fabricIn => 65
  | .hostOut => 66
  | .hostIn => 67

/-- Resource and direction, for which a regulator keeps a ceiling bucket (R276). -/
def Resource.dir : Resource → Nat
  | .tower _ => 0
  | .fabricOut => 1
  | .fabricIn => 2
  | .hostOut => 3
  | .hostIn => 4

def HoistCfg.regulator (cfg : HoistCfg) (part : Nat) : Option Regulator := cfg.regulators.find? (·.part == part)

def Regulator.ceil (r : Regulator) : Resource → Nat
  | .tower _ => r.towerCeil
  | .fabricOut | .fabricIn => r.fabricCeil
  | .hostOut | .hostIn => r.hostCeil

/-- Data channels that hold any of a partition's regions (R276). -/
def HoistCfg.channelsOf (cfg : HoistCfg) (part : Nat) : Nat :=
  6 * ((List.range 6).filter fun t => cfg.regions.any fun r => r.part == part && bit r.mask t).length

/-- The floor share at an arbitration point (R276). -/
def HoistCfg.floorShare (cfg : HoistCfg) (r : Regulator) : Resource → Nat
  | .tower _ => r.towerFloor / max 1 (cfg.channelsOf r.part)
  | .fabricOut | .fabricIn => r.fabricFloor
  | .hostOut | .hostIn => r.hostFloor

/-- What a bucket of `rate` MB/s and capacity `cap` holds now. -/
def bucketNow (l : List (Nat × Bucket)) (key rate cap up : Nat) : Nat :=
  match Assoc.find l key with
  | none => cap
  | some b => min cap (b.bytes + (up - b.since) * rate)

/-- Capacity of a ceiling bucket: 8 µs of its rate, never less than 4 KiB (R276). -/
def ceilCap (rate : Nat) : Nat := max (8000 * rate) 4096000

/-- Capacity of a floor credit: 100 µs of its share. -/
def floorCap (rate : Nat) : Nat := 100000 * rate

/-- One bucket that a transfer draws on: key, rate in MB/s, bytes. A rate of zero is no ceiling. -/
abbrev Draw := Nat × Nat × Nat

/-- A tenant's ceiling on the channels of a hot tower is halved (R361). -/
def State.ceilNow (s : State) (part : Nat) (res : Resource) (c : Nat) : Nat := match res with
  | .tower id => if part ≠ 0 ∧ c ≠ 0 ∧ s.energy.halved.contains (id / 6) then max 1 (c / 2) else c
  | _ => c

/-- The buckets of a burgee's transfer of `n` bytes over a resource in the name of a partition: the partition's ceiling and the burgee's BYTE_RATE (R276,
R279). -/
def State.drawsIn (s : State) (part b : Nat) (res : Resource) (n : Nat) : List Draw :=
  let c := match s.cfg.regulator part with
    | some r => s.ceilNow part res (r.ceil res)
    | none => 0
  [(res.dir * 65536 + part, c, n), (5 * 65536 + b, ((s.cfg.burgee b).map (·.byteRate)).getD 0, n)]

/-- The same in the name of the burgee's own partition. -/
def State.draws (s : State) (b : Nat) (res : Resource) (n : Nat) : List Draw := s.drawsIn ((s.cfg.partOf b).getD 0) b res n

/-- The bucket of a lease's rate ceiling (R296). -/
def leaseDraw (l : LeaseRec) (n : Nat) : Draw := (16777216 + l.part * 65536 + l.id, l.rate, n)

/-- A draw on a tenant's tower bucket. -/
def towerDraw (d : Draw) : Bool := decide (0 < d.1) && decide (d.1 < 65536)

/-- Every bucket holds its bytes (R276), and the governor does not hold the towers' back (R357). -/
def State.mayDraw (s : State) (l : List Draw) : Bool :=
  (!s.energy.paced.contains 1 || !l.any towerDraw || Config.paceLets 1 s.up) && l.all fun d => d.2.1 == 0 || decide (d.2.2 * 1000 ≤ bucketNow s.sched.ceilings d.1 d.2.1 (ceilCap d.2.1) s.up)

/-- Take the bytes at issue. -/
def takeDraws (l : List Draw) (s : State) : State :=
  forAll (l.filter fun d => d.2.1 != 0) (fun d s =>
    let left := bucketNow s.sched.ceilings d.1 d.2.1 (ceilCap d.2.1) s.up - d.2.2 * 1000
    { s with sched := { s.sched with ceilings := Assoc.set s.sched.ceilings d.1 { bytes := left, since := s.up } } }) s

/-- Use up floor credit of a partition at an arbitration point. -/
def takeFloorIn (part : Nat) (res : Resource) (n : Nat) (s : State) : State :=
  match s.cfg.regulator part with
  | none => s
  | some r =>
    let rate := s.cfg.floorShare r res
    let key := part * 256 + res.point
    let left := bucketNow s.sched.floors key rate (floorCap rate) s.up - n * 1000
    { s with sched := { s.sched with floors := Assoc.set s.sched.floors key { bytes := left, since := s.up } } }

/-- A partition has floor credit at an arbitration point (R276, R277). -/
def State.hasFloor (s : State) (res : Resource) (part : Nat) : Bool := match s.cfg.regulator part with
  | none => false
  | some r =>
    let rate := s.cfg.floorShare r res
    rate != 0 && decide (0 < bucketNow s.sched.floors (part * 256 + res.point) rate (floorCap rate) s.up)

/-- How far a partition stands behind the one served last at a point, in the rotation (R277). -/
def State.rotationOf (s : State) (res : Resource) (part : Nat) : Nat := (part + 65535 - Assoc.get s.sched.served res.point 65535) % 65536

/-- It is a partition's turn at an arbitration point among those that have a request waiting there (R277): those with floor credit first, one request
each in rotation, then those without. -/
def State.turnAt (s : State) (res : Resource) (waiting : List Nat) (part : Nat) : Bool :=
  let floor := waiting.filter (s.hasFloor res)
  let l := if floor.isEmpty then waiting else floor
  l.contains part && l.all fun q => decide (s.rotationOf res part ≤ s.rotationOf res q)

/-- A partition's request has been served at an arbitration point. -/
def noteServed (res : Resource) (part : Nat) (s : State) : State := { s with sched := { s.sched with served := Assoc.set s.sched.served res.point part } }

/-- Use up floor credit of a burgee's partition. -/
def takeFloor (b : Nat) (res : Resource) (n : Nat) (s : State) : State := takeFloorIn ((s.cfg.partOf b).getD 0) res n s

/-- A burgee moves bytes over a resource. -/
def spend (b : Nat) (res : Resource) (n : Nat) (s : State) : State :=
  takeFloor b res n (takeDraws (s.draws b res n) s)

end Sys2Proof.Machine
end

