-- ==== Sys2Proof/Machine/Controller.lean ====
section
/-! DEFINITION. The memory controllers: bank queues and their kept entries, reserved slots, and what a channel serves (R32, R124, R144, R145,
R149). A channel's number is 7t + c, a bank's is channel × 16 + bank. -/

namespace Sys2Proof.Machine

-- ───────────────────────── slots (R32, R144, R145)

/-- Length of a channel slot in ns (R32). -/
def chanSlotNs : Nat := 125

/-- The slot of the channel frames that is in progress: a frame starts at every whole 8 µs of device time (R144). -/
def State.frameSlot (s : State) : Nat := s.devTime % 8000 / chanSlotNs

/-- Number of the frame within its millisecond (R144). -/
def State.frameOfMs (s : State) : Nat := s.devTime / 8000 % 125

/-- The next time of something done once per `pace` ns that was due at `due`: what was not done in its time is not made up for. -/
def nextDue (due pace up : Nat) : Nat := if up < due + pace then due + pace else up + pace

/-- Id 6t + c of a data channel (R275). -/
def chanId (ch : Nat) : Nat := 6 * (ch / 7) + ch % 7

/-- A partition reserves slot `k` of a channel (R32). -/
def Regulator.reserves (r : Regulator) (ch k : Nat) : Bool := bit r.channels (chanId ch) && bit r.slots (k % 64)

/-- The partition that reserves slot `k` of a channel. -/
def HoistCfg.chanOwner (cfg : HoistCfg) (ch k : Nat) : Option Nat := (cfg.regulators.find? fun r => r.reserves ch k).map (·.part)

/-- The partitions one of whose own reserved slots is in progress on a channel or begins within the next 125 ns (R145). -/
def State.slotKeepers (s : State) (ch : Nat) : List Nat := [s.frameSlot, s.frameSlot + 1].filterMap (s.cfg.chanOwner ch)

/-- The controller may issue a transfer of `bursts` for a partition now (R145): no other partition's slot is in progress, and the transfer ends before one
starts. A burst lasts 0.2 ns (R131). -/
def State.slotOpen (s : State) (ch : Nat) (part : Option Nat) (bursts : Nat) : Bool :=
  let now := s.cfg.chanOwner ch s.frameSlot
  let next := s.cfg.chanOwner ch (s.frameSlot + 1)
  (now.isNone || now == part) && (next.isNone || next == part || decide (bursts ≤ 5 * (chanSlotNs - s.devTime % chanSlotNs)))

-- ───────────────────────── bank queues (R124, R145)

/-- Requests in a bank queue, oldest first. -/
def State.bankQueue (s : State) (bank : Nat) : List BankEntry := Assoc.get s.tow.banks bank []

def State.setBank (s : State) (bank : Nat) (l : List BankEntry) : State := { s with tow := { s.tow with banks := Assoc.set s.tow.banks bank l } }

/-- The entry that a bank queue has for a request of a partition (R124, R145): `some true` is one of the 16 kept ones, `none` that the queue is full for
it. An owner whose slot is near takes a kept entry first (assumption 115). -/
def State.bankEntry (s : State) (bank : Nat) (part : Option Nat) : Option Bool :=
  let l := s.bankQueue bank
  let near := s.slotKeepers (bank / 16)
  let plain := (l.filter (!·.kept)).length
  if 64 ≤ l.length then none
  else if near.isEmpty then some false
  else if (part.any near.contains) && decide (l.length - plain < 16) then some true
  else if plain < 48 then some false
  else none

/-- The channel runs: it neither retrains nor has failed (R149, R150). -/
def State.runs (s : State) (ch : Nat) : Bool := (s.chan ch).st == 0

/-- A request of a partition, of `bursts` bursts to one bank, can be taken in and issued now. -/
def State.serves (s : State) (part : Option Nat) (bank bursts : Nat) : Bool :=
  s.runs (bank / 16) && s.slotOpen (bank / 16) part bursts && (s.bankEntry bank part).isSome

/-- The partition of a square's request. -/
def State.tagPart (s : State) (p : Nat) (t : Tag) : Nat := (s.cfg.partOf (s.ctx p t.slot).burgee).getD 0

/-- An earlier request of its bank queue touches the granules of a request, and one of the two writes (R119, R152). -/
def State.behind (s : State) (p : Nat) (t : Tag) : Bool :=
  ((s.bankQueue t.bank).takeWhile fun e => !(e.sq == p && e.tag == t.id)).any fun e => match (s.square e.sq).tags.find? (·.id == e.tag) with
    | some u => (u.write || t.write) && u.addrs.any t.addrs.contains
    | none => false

/-- The transfer of a queued request could be issued now: its slot is open, and none that it must follow stands before it (R145). -/
def State.issuable (s : State) (p : Nat) (t : Tag) : Bool := s.slotOpen (t.bank / 16) (some (s.tagPart p t)) t.addrs.length && !s.behind p t

/-- The partitions with a request in a channel's bank queues that could be issued now (R277). -/
def State.waitingAt (s : State) (ch : Nat) : List Nat :=
  (List.range 16).flatMap fun k => (s.bankQueue (16 * ch + k)).filterMap fun e => ((s.square e.sq).tags.find? (·.id == e.tag)).bind fun t =>
    if s.issuable e.sq t then some (s.tagPart e.sq t) else none

/-- It is a partition's turn on a channel (R277); a slot that partition 0 reserves leaves no other anything to issue (R145). -/
def State.channelTurn (s : State) (ch part : Nat) : Bool := s.turnAt (.tower (chanId ch)) (part :: s.waitingAt ch) part

/-- The hub's number among the requesters of a bank, after the squares (R124). -/
def hubRequester : Nat := 180

/-- The requesters in the rotation of a bank (R124), the one after the last served first. -/
def State.rotation (s : State) (bank : Nat) : List Nat :=
  let last := Assoc.get s.tow.rotor bank hubRequester
  (List.range 181).map fun k => (last + 1 + k) % 181

/-- The requester has been served in a bank's rotation. -/
def rotate (bank q : Nat) (s : State) : State := { s with tow := { s.tow with rotor := Assoc.set s.tow.rotor bank q } }

/-- The oldest request for a bank that a square holds back and that its bank queue would take now (R124, R145). -/
def State.heldTag (s : State) (bank p : Nat) : Option Tag :=
  (s.square p).tags.find? fun t => t.held && t.kind == 0 && t.bank == bank && (s.bankEntry bank (s.cfg.partOf (s.ctx p t.slot).burgee)).isSome

/-- No square that comes before requester `q` in a bank's rotation holds a request that the bank queue would take (R124). -/
def State.turnOf (s : State) (bank q : Nat) : Bool :=
  s.squares.all (fun e => e.2.tags.all fun t => !(t.held && t.kind == 0 && t.bank == bank)) ||
    (((s.rotation bank).takeWhile (· != q)).all fun p => (s.heldTag bank p).isNone)

/-- The banks of `n` bytes from tower-window offset `o` on, with the bursts of each granule: a merge reads and writes (R139). -/
def HoistCfg.banksOf (cfg : HoistCfg) (o n : Nat) (writes merges : Bool) : List (Nat × Nat) :=
  (spans (n + 1) o n).map fun q => (bankOfKey (cfg.key q.1), if merges || (writes && q.2 != 32) then 2 else 1)

/-- A request of requester `q` that is performed in one step: every bank of it serves it, in the order of the rotations (R124, R145, R149, R277). It takes its
entries and leaves them in that step (assumption 116). -/
def State.passes (s : State) (q : Nat) (part : Option Nat) (o n : Nat) (writes : Bool) (merges : Bool := false) : Bool :=
  (s.cfg.banksOf o n writes merges).all fun b => s.serves part b.1 b.2 && s.turnOf b.1 q && part.all (s.channelTurn (b.1 / 16))

/-- Buckets that the tower bytes of a request draw on (R139, R275, R276). -/
def State.towerDraws (s : State) (part b o n : Nat) (writes merges : Bool) : List Draw :=
  match s.cfg.banksOf o n writes merges with
  | [] => []
  | x :: t => s.drawsIn part b (.tower (chanId (x.1 / 16))) (32 * ((x :: t).map (·.2)).sum)

/-- A request of a burgee in the name of a partition passes its controllers, and the regulators hold its bytes (R124, R145, R149, R276). -/
def State.passesIn (s : State) (q part b o n : Nat) (writes merges : Bool) : Bool :=
  s.passes q (some part) o n writes merges && s.mayDraw (s.towerDraws part b o n writes merges)

/-- Charge the tower bytes of a request, whose partition is served (R275, R277). -/
def chargeIn (part b o n : Nat) (writes merges : Bool) (s : State) : State :=
  forAll (s.cfg.banksOf o n writes merges) (fun x s => noteServed (.tower (chanId (x.1 / 16))) part (takeFloorIn part (.tower (chanId (x.1 / 16))) (32 * x.2) s))
    (takeDraws (s.towerDraws part b o n writes merges) s)

/-- The same in the name of the burgee's own partition. -/
def State.passesFor (s : State) (q b o n : Nat) (writes : Bool) (merges : Bool := false) : Bool := s.passesIn q ((s.cfg.partOf b).getD 0) b o n writes merges
def chargeFor (b o n : Nat) (writes : Bool) (merges : Bool) (s : State) : State := chargeIn ((s.cfg.partOf b).getD 0) b o n writes merges s

/-- Do something that reads or writes device memory once the controllers serve it. -/
def whenServed (ok : Bool) (f : State → Result) (s : State) : Result := if ok then f s else impossible "the memory controller holds the request back"

/-- Perform a host access to tower memory (R303). -/
def performHost (x : HostAcc) (s : State) : State := match x with
  | .read a n =>
    let v := readDev a n s
    emit (.memData v.1.1 v.1.2) v.2
  | .write a bs poison => writeDev a bs poison s

/-- The bytes of a host access, and whether it writes. -/
def HostAcc.span : HostAcc → Nat × Nat × Bool
  | .read a n => (a, n, false)
  | .write a bs _ => (a, bs.length, true)

/-- A host access passes its controllers; it belongs to no partition (R145, R303; assumption 119). -/
def State.hostPasses (s : State) (x : HostAcc) : Bool := s.passes hubRequester none x.span.1 x.span.2.1 x.span.2.2

/-- A request enters its bank queue. -/
def joinBank (bank : Nat) (e : BankEntry) (s : State) : State := s.setBank bank (s.bankQueue bank ++ [e])

/-- A request leaves its bank queue. -/
def leaveBank (bank sq tag : Nat) (s : State) : State := s.setBank bank ((s.bankQueue bank).filter fun e => !(e.sq == sq && e.tag == tag))

end Sys2Proof.Machine
end

