-- ==== Sys2Proof/Machine/HubTags.lean ====
section
/-! DEFINITION. The hub's fabric DMA tags (R125): 16,384 in all, 1,024 of them for partition 0, at most 4,096 for one tenant
burgee, and the requests that wait in a square for one. -/

namespace Sys2Proof.Machine

/-- The stream number of what no stream does. -/
def noStream : Nat := 0xFF

/-- Device and offset of a fabric address (R153). -/
def fabDevice (a : Nat) : Nat := bits a 53 44
def fabOffset (a : Nat) : Nat := bits a 43 0

/-- Bits [63:54] of a fabric address are zero (R153). -/
def fabReservedZero (a : Nat) : Bool := a / 2 ^ 54 == 0

/-- The operation holds a hub tag: it goes to another device or to a multicast group (R125). Sub-command messages and generation queries name no address of
another device and count in none of the limits. -/
def FabOut.tagged (me : Nat) (o : FabOut) : Bool := decide (o.kind < 5) && (o.opcode == 3 || o.dests.any (·.1 != me))

/-- The burgee is one of partition 0 (R168). -/
def State.radioBurgee (s : State) (b : Nat) : Bool := s.cfg.partOf b == some 0

/-- Operations that hold a hub tag. -/
def State.hubTags (s : State) : List FabOut := s.hub.outs.filter (FabOut.tagged s.deviceId)

/-- A hub tag is free for the burgee (R125), and the governor does not withhold it (R357). -/
def State.hubRoom (s : State) (b : Nat) : Bool :=
  let l := s.hubTags
  decide (l.length < 16384) && s.domainOpen 2 b && (s.radioBurgee b ||
    (decide ((l.filter fun o => !o.radio).length < 15360) && decide ((l.filter fun o => o.burgee == b).length < 4096)))

/-- The lowest number from `n` on that is not in use; the count bounds the search. -/
def firstFree (used : List Nat) : Nat → Nat → Nat
  | 0, n => n
  | k + 1, n => if used.contains n then firstFree used k (n + 1) else n

/-- An operation that a square issued before it placed a fence stands before the fence, though it may have waited in the square for its hub tag (R166). -/
def FabOut.precedes (o f : FabOut) : Bool :=
  f.kind == 5 && decide (o.kind < 2) && f.psq == o.psq && f.slot == o.slot && o.sqTag.any fun t => decide (t < f.sqTag.getD 0)

/-- Put an operation in its place in the hub: last, but for the fences that it precedes. -/
def placeOut (o : FabOut) (l : List FabOut) : List FabOut := l.takeWhile (fun f => !o.precedes f) ++ o :: l.dropWhile (fun f => !o.precedes f)

/-- Bring an operation into the hub, in the order of issue (R170), and note the peak of the tags held (R323). Its number, which is
its TAG on the wire, is the lowest free one; a fence takes a number beyond the tags. -/
def newOut (o : FabOut) (s : State) : Nat × State :=
  let used := s.hub.outs.map (·.id)
  let id := if o.kind = 5 then firstFree used used.length 16384 else firstFree used used.length 0
  let s := { s with hub := { s.hub with outs := placeOut { o with id := id } s.hub.outs } }
  (id, { s with hub := { s.hub with tagPeak := max s.hub.tagPeak s.hubTags.length } })

/-- A message of the hub itself toward another device: a sub-command message, or a generation query (R77, R128). -/
def hubOut (kind opcode dst burgee addr cmd psq slot : Nat) (radio : Bool) (sub : Option SubMsg) : FabOut :=
  { id := 0, kind := kind, opcode := opcode, dests := [(dst, 0)], burgee := burgee, radio := radio, addr := addr, size := 1, fmt := 0, payload := []
    noCombine := false, watch := false, sent := false, sentAt := 0, retries := 0, cmd := cmd, psq := psq, slot := slot, sqTag := none, stream := noStream
    ret := none, discard := false, group := 0, lease := none, status := 0, sub := sub }

/-- A sub-command message enters the hub; it travels on the request virtual channel (R77, R158, R168). No square waits for it. -/
def sendSub (dst burgee cmd : Nat) (m : SubMsg) (s : State) : State :=
  emit (.sub dst m) (newOut (hubOut 6 0x40 dst burgee (dst * 2 ^ 44) cmd 180 0 false (some m)) s).2

/-- A generation query of a page enters the hub (R128). -/
def sendQuery (p slot dst page : Nat) (s : State) : State :=
  let c := s.ctx p slot
  (newOut (hubOut 7 0x41 dst c.burgee (dst * 2 ^ 44 + page * 4096) c.cmd p slot (s.radioBurgee c.burgee) none) s).2

/-- A lease of a burgee as it lies in the lease window (R295): the lease and the window offset at which it begins. -/
def leaseAt : List LeaseRec → Nat → Nat → Option (LeaseRec × Nat)
  | [], _, _ => none
  | l :: t, base, o => if o < base + l.sizeGib * gib then (if base ≤ o then some (l, base) else none) else leaseAt t (base + l.sizeGib * gib) o

/-- The burgee's leases in ascending ID (R295). -/
def HoistCfg.leasesOf (cfg : HoistCfg) (b : Nat) : List LeaseRec :=
  (cfg.leases.filter (·.burgee == b)).mergeSort fun x y => decide (x.id ≤ y.id)

/-- The lease that a device offset lies in, with the offset within it. -/
def HoistCfg.leaseOf (cfg : HoistCfg) (b o : Nat) : Option (LeaseRec × Nat) :=
  if leaseWindow ≤ o ∧ o < leaseWindowEnd then (leaseAt (cfg.leasesOf b) 0 (o - leaseWindow)).map fun x => (x.1, o - leaseWindow - x.2)
  else none

/-- Key of a lease: partition and ID. -/
def leaseKey (l : LeaseRec) : Nat := l.part * 65536 + l.id

/-- The fabric address that a stream's granule names (R165, R296): its own, or that of its lease. -/
def HoistCfg.fabricOf (cfg : HoistCfg) (b kind a : Nat) : Nat :=
  if kind = 4 then match cfg.leaseOf b a with
    | some (l, o) => l.peer * 2 ^ 44 + l.offset + o
    | none => a
  else a

/-- The hub operation of a square's request (R125, R167): a LOAD, a STORE or a multicast store of whole granules. -/
def outOfTag (p : Nat) (t : Tag) (s : State) : FabOut :=
  let c := s.ctx p t.slot
  let st := c.streams[t.stream]?
  let multi := (st.map (·.endpoint)) == some 3
  let a := s.cfg.fabricOf c.burgee t.kind (t.addrs.headD 0)
  { id := 0, kind := 0, opcode := if multi then 3 else if t.write then 2 else 1, dests := t.dests.map fun d => (d, 0)
    burgee := c.burgee, radio := s.radioBurgee c.burgee, addr := a, size := 32 * t.addrs.length, fmt := 0
    payload := if t.write then t.back else [], noCombine := false, watch := (st.map (·.watch)).getD false, sent := false, sentAt := 0
    retries := 0, cmd := c.cmd, psq := p, slot := t.slot, sqTag := some t.id, stream := t.stream, ret := none, discard := false
    group := if multi then ((st.map (·.base)).getD 0) / 2 ^ 48 else 0
    lease := if t.kind = 4 then (s.cfg.leaseOf c.burgee (t.addrs.headD 0)).map fun x => leaseKey x.1 else none
    status := 0 }

/-- Give a square's request its hub tag. -/
def enterHub (p : Nat) (t : Tag) (s : State) : State :=
  let x := newOut (outOfTag p t s) s
  let q := x.2.square p
  x.2.setSquare p { q with tags := q.tags.map fun u => if u.id = t.id then { u with held := false, hub := some x.1, back := [] } else u }

/-- A device address outside the 16 TiB of local offsets is a fabric address (R153, R158; assumption 36). -/
def isFabric (a : Nat) : Bool := decide (2 ^ 44 ≤ a)

/-- The hub operation of a semaphore instruction on a fabric address (R162): a LOAD of the granule, an 8-byte STORE or an INT64
FADD. -/
def semOut (p slot op addr : Nat) (payload : List Granule) (s : State) : FabOut :=
  let c := s.ctx p slot
  { id := 0, kind := 2, opcode := op, dests := [(bits addr 53 44, 0)], burgee := c.burgee, radio := s.radioBurgee c.burgee
    addr := addr, size := if op = 1 then 32 else 8, fmt := if op = 0x12 then 2 else 0, payload := payload, noCombine := false
    watch := false, sent := false, sentAt := 0, retries := 0, cmd := c.cmd, psq := p, slot := slot, sqTag := none, stream := noStream
    ret := none, discard := false, group := 0, lease := none, status := 0 }

/-- Follow the hardware loops after an instruction completes in sequence at `next` (R462): at the end of the innermost
body the loop starts again while iterations are left, otherwise it is over. -/
def loopNext : List LoopLevel → Nat → Nat × List LoopLevel
  | [], next => (next, [])
  | l :: t, next =>
    if next = l.stop then
      if 1 < l.left then (l.start, { l with left := l.left - 1 } :: t) else loopNext t next
    else (next, l :: t)

/-- Go on in sequence. -/
def advance (p slot : Nat) (s : State) : State :=
  let c := s.ctx p slot
  let r := loopNext c.loops (c.pc + 8)
  s.setCtx p slot { c with pc := r.1, loops := r.2 }

/-- The payload of a remote signal: a STORE carries its bytes where they lie in their granule, an atomic its operand at byte 0
(R160). -/
def signalPayload (addr : Nat) (v : Word) (add : Bool) : List Granule :=
  [Code.clean (bytesGranule ((if add then [] else List.replicate (addr % 32) 0) ++ leBytes 8 v.toNat))]

/-- Requests of a context are still on their way to the hub that it issued before its tag `id`: the requests of one context reach the hub in the order of
issue (R170). -/
def State.ahead (s : State) (p slot id : Nat) : Bool :=
  (s.square p).tags.any fun t => t.slot == slot && !t.dead && decide (t.id < id) && ((t.held && decide (3 ≤ t.kind)) || (t.kind == 5 && !t.back.isEmpty))

/-- The hub takes an operation: it needs no tag, or one is free (R125). -/
def State.hubTakes (s : State) (o : FabOut) : Bool := !o.tagged s.deviceId || s.hubRoom o.burgee

/-- What waits in a square for the hub: a stream's request, or an operation on a remote semaphore, to load it or to signal it. -/
inductive HubWait where
  | tag (p : Nat) (t : Tag)
  | sem (p slot : Nat) (o : FabOut) (load : Bool)

/-- The hub operation that a context's semaphore instruction waits to place, and whether it is the load of WAITSEM. -/
def semWait (p slot : Nat) (s : State) : Option (FabOut × Bool) := match (s.ctx p slot).wait with
  | .sem a _ _ false => if isFabric a then some (semOut p slot 1 (a / 32 * 32) [] s, true) else none
  | .signalHub a v add => some (semOut p slot (if add then 0x12 else 0x02) a (signalPayload a v add) s, false)
  | _ => none

/-- A request that waits in a square and can enter the hub now. -/
def State.waitingForHub (s : State) : Option HubWait :=
  match s.squares.findSome? fun q => (q.2.tags.find? fun t => t.held && decide (3 ≤ t.kind) && t.kind != 5 && !t.dead && !s.ahead q.1 t.slot t.id &&
      s.hubTakes (outOfTag q.1 t s)).map fun t => (q.1, t) with
  | some (p, t) => some (.tag p t)
  | none => s.ctxs.findSome? fun c =>
    let p := c.1 / 8
    let slot := c.1 % 8
    (semWait p slot s).bind fun o => if !s.ahead p slot (s.square p).nextTag && s.hubTakes o.1 then some (.sem p slot o.1 o.2) else none

/-- Add ARITH cycles to a count of stream `i`: the spec's measure of time within a step is not the model's, so how many is a free value
(assumption 34). -/
def countCycles (f : Nat → StreamCnt → StreamCnt) (p slot i : Nat) (s : State) : State :=
  let x := drawFree s
  let c := x.2.ctx p slot
  x.2.setCtx p slot { c with streams := c.streams.modify i fun t => { t with cnt := f x.1 t.cnt } }

/-- How long a request was held (R129). -/
def countHeld (p slot i : Nat) (s : State) : State := countCycles (fun n c => { c with held := satAdd 32 c.held n }) p slot i s

/-- How long a full queue was in the way (R129). -/
def countFull (p slot i : Nat) (s : State) : State := countCycles (fun n c => { c with full := satAdd 64 c.full n }) p slot i s

/-- How long an empty queue was waited on (R129). -/
def countEmpty (p slot i : Nat) (s : State) : State := countCycles (fun n c => { c with empty := satAdd 64 c.empty n }) p slot i s

/-- Let waiting requests into the hub while it has tags for them; the lowest square goes first (assumption 35). -/
def admitHub : Nat → State → State
  | 0, s => s
  | n + 1, s => match s.waitingForHub with
    | none => s
    | some (.tag p t) => admitHub n (countHeld p t.slot t.stream (enterHub p t s))
    | some (.sem p slot o load) =>
      let c := s.ctx p slot
      let s := s.setCtx p slot { c with wait := match c.wait with
        | .sem a v m _ => .sem a v m true
        | _ => .none }
      let s := (newOut o s).2
      admitHub n (if load then s else advance p slot s)

/-- Let as many in as there are waiting. -/
def refillHub (s : State) : State :=
  admitHub ((s.squares.map fun q => (q.2.tags.filter (·.held)).length).sum + s.ctxs.length) s

end Sys2Proof.Machine
end

