-- ==== Sys2Proof/Machine/Contexts.lean ====
section
/-! DEFINITION. Contexts on the squares: how an instruction takes effect in one, and how one ends, is cancelled or faults
(R60, R69, R79, R100, R290). -/

namespace Sys2Proof.Machine

-- ───────────────────────── fault reasons (R69, R297)

def fIllegal : Nat := 0x01
def fShareBound : Nat := 0x02
def fRegionBound : Nat := 0x03
def fMisalign : Nat := 0x04
def fQueueEnd : Nat := 0x05
def fPoison : Nat := 0x06
def fStack : Nat := 0x07
def fBarrier : Nat := 0x08
def fReduce : Nat := 0x09
def fOverrun : Nat := 0x0A
def fUser : Nat := 0x0B
def fRemote : Nat := 0x0C
def fLease : Nat := 0x0D

/-- Completion statuses (R316). -/
def stOk : Nat := 0x00
def stFallback : Nat := 0x01
def stFault : Nat := 0x02
def stOverrun : Nat := 0x03
def stMemberLost : Nat := 0x04
def stRemoteRefused : Nat := 0x05
def stMalformed : Nat := 0x10
def stNoRights : Nat := 0x11
def stEnergy : Nat := 0x12
def stSizeShort : Nat := 0x13
def stHostError : Nat := 0x14

-- ───────────────────────── registers and queues

/-- s0 reads as zero (R54). -/
def Ctx.reg (c : Ctx) (r : BitVec 5) : Word := if r = 0 then 0 else c.regs.get r.toFin

/-- A write to s0 is discarded (R462). -/
def Ctx.setReg (c : Ctx) (r : BitVec 5) (v : Word) : Ctx := if r = 0 then c else { c with regs := c.regs.set r.toFin v }

def Ctx.queue (c : Ctx) (q : Nat) : List QEntry := Assoc.get c.queues q []
def Ctx.setQueue (c : Ctx) (q : Nat) (l : List QEntry) : Ctx := { c with queues := Assoc.set c.queues q l }

/-- Queue `q` is outbound (R70). -/
def Ctx.outbound (c : Ctx) (q : Nat) : Bool := bit c.qdir q

/-- Entries that a queue can still take: 64 in all (R54). -/
def Ctx.space (c : Ctx) (q : Nat) : Nat := 64 - (c.queue q).length

/-- The streams of a context that fill or drain queue `q`, by number (R118). -/
def Ctx.streamsOf (c : Ctx) (q : Nat) : List Nat :=
  (List.range c.streams.length).filter fun i => match c.streams[i]? with
    | some t => t.queue == q
    | none => false

/-- The queue is ended: some stream was bound to it and every one has closed (R64, R118). A queue that no stream is bound to
is not ended (assumption 20). -/
def Ctx.ended (c : Ctx) (q : Nat) : Bool :=
  let l := c.streamsOf q
  !l.isEmpty && l.all fun i => match c.streams[i]? with
    | some t => t.closed
    | none => true

/-- The stream at work on a queue: the lowest one not closed, else the last (R118; assumption 26). -/
def Ctx.atWork (c : Ctx) (q : Nat) : Option Nat :=
  let l := c.streamsOf q
  (l.find? fun i => match c.streams[i]? with
    | some t => !t.closed
    | none => false).or l.getLast?

/-- The vector register; unwritten registers hold zero at reset (assumption 2). -/
def Ctx.vreg (c : Ctx) (v : Nat) : VReg := Assoc.get c.vregs v 0

/-- p0 reads as all ones (R54). -/
def Ctx.pred (c : Ctx) (p : Nat) : PReg := if p = 0 then BitVec.allOnes 256 else Assoc.get c.preds p 0

/-- A queue instruction waits on this queue: an entry that arrives now is late (R129). -/
def Ctx.waitsOn (c : Ctx) (q : Nat) : Bool := match c.wait with
  | .queue (.qwait _ f) => f.q.toNat == q
  | .queue (.qdrop _ f) => f.q.toNat == q
  | .queue (.qpop _ f) => f.q.toNat == q
  | .queue _ => (c.queue q).isEmpty
  | _ => false

/-- Add the counts of one stream to another's, each field at its width (R129). -/
def StreamCnt.add (a b : StreamCnt) : StreamCnt :=
  { fetched := satAdd 64 a.fetched b.fetched, used := satAdd 64 a.used b.used, early := satAdd 64 a.early b.early
    late := satAdd 64 a.late b.late, unused := satAdd 64 a.unused b.unused, empty := satAdd 64 a.empty b.empty
    full := satAdd 64 a.full b.full, stale := satAdd 16 a.stale b.stale, watchLost := satAdd 16 a.watchLost b.watchLost
    held := satAdd 32 a.held b.held }

/-- The fields in the order of BGE_STREAMi (R320). -/
def StreamCnt.fields (a : StreamCnt) : List Nat :=
  [a.fetched, a.used, a.early, a.late, a.unused, a.empty, a.full, a.stale, a.watchLost, a.held]

/-- The counts that fields in that order give. -/
def StreamCnt.ofFields (l : List Nat) : StreamCnt :=
  { fetched := l.getD 0 0, used := l.getD 1 0, early := l.getD 2 0, late := l.getD 3 0, unused := l.getD 4 0, empty := l.getD 5 0, full := l.getD 6 0
    stale := l.getD 7 0, watchLost := l.getD 8 0, held := l.getD 9 0 }

/-- Change the counts of stream `i`. -/
def Ctx.count (c : Ctx) (i : Nat) (f : StreamCnt → StreamCnt) : Ctx :=
  { c with streams := c.streams.modify i fun t => { t with cnt := f t.cnt } }

def Ctx.modStream (c : Ctx) (i : Nat) (f : Stream → Stream) : Ctx := { c with streams := c.streams.modify i f }

/-- An entry is a granule that a DIR 0 stream moved, and not a done granule (R118). -/
def Ctx.moved (c : Ctx) (e : QEntry) : Bool := match c.streams[e.stream]? with
  | some t => t.dir == 0
  | none => false

/-- Take entries that the execute engine consumes into the counts (R129). -/
def Ctx.countUsed (c : Ctx) (l : List QEntry) : Ctx :=
  (l.filter c.moved).foldl (fun c e => c.count e.stream fun n =>
    if e.late then { n with used := n.used + 32, late := n.late + 1 } else { n with used := n.used + 32, early := n.early + 1 }) c

/-- Entries dropped by QDROP (R129). -/
def Ctx.countUnused (c : Ctx) (l : List QEntry) : Ctx :=
  (l.filter c.moved).foldl (fun c e => c.count e.stream fun n => { n with unused := n.unused + 1 }) c

/-- The context reads share bytes `a` to `a + n - 1`: the unread granules among them are consumed (R129). An entry of
`unread` is granule × 16 + stream. -/
def Ctx.markRead (c : Ctx) (a n : Nat) : Ctx :=
  if c.unread.isEmpty ∨ n = 0 then c else
  let hit := c.unread.filter fun e => decide (a / 32 ≤ e / 16) && decide (e / 16 ≤ (a + n - 1) / 32)
  let c := { c with unread := c.unread.filter fun e => !(decide (a / 32 ≤ e / 16) && decide (e / 16 ≤ (a + n - 1) / 32)) }
  hit.foldl (fun c e =>
    let late := (c.streams[e % 16]?.map (·.doneLate)).getD false
    c.count (e % 16) fun n =>
      if late then { n with used := n.used + 32, late := n.late + 1 } else { n with used := n.used + 32, early := n.early + 1 }) c

-- ───────────────────────── ending, cancelling, faulting

/-- The oldest operation of a context in the array. -/
def ArrayState.front (a : ArrayState) (slot : Nat) : Option MatOp := a.tiles.find? (·.slot == slot)

/-- The array gives up what a context holds in it when the context ends (R98). -/
def ArrayState.release (a : ArrayState) (slot : Nat) : ArrayState :=
  let segs := a.segs.map fun e => (e.1, if e.2.owner = some slot then { e.2 with owner := none } else e.2)
  { a with segs := segs, segCount := if segs.any (fun e => e.2.owner.isSome) then a.segCount else 0,
           tiles := a.tiles.filter (·.slot != slot) }

/-- Contexts that wait for the array without work in it may issue again (R84, R98). -/
def wakeArray (p : Nat) (s : State) : State :=
  forAll (List.range 8) (fun slot s =>
    let c := s.ctx p slot
    match c.wait with
    | .array _ => if ((s.square p).arr.front slot).isSome then s else s.setCtx p slot { c with wait := .none }
    | _ => s) s

/-- The array tears down what a faulting context holds: its tiles are cancelled, its stationary sets and bank columns become
zero and its segment is free (R100, R290). -/
def ArrayState.tear (a : ArrayState) (slot : Nat) : ArrayState :=
  { a.release slot with
    segs := (a.release slot).segs.map fun e => (e.1, match Assoc.find a.segs e.1 with
      | some g => if g.owner = some slot then {} else e.2
      | none => e.2) }

/-- The final counts of a context's streams: what is left unread in queues and share is unused (R129). -/
def Ctx.finalCounts (c : Ctx) : List (Nat × StreamCnt) :=
  let left := (c.queues.filter fun q => !c.outbound q.1).flatMap (·.2)
  let c := c.countUnused left
  let c := c.unread.foldl (fun c e => c.count (e % 16) fun n => { n with unused := n.unused + 1 }) c
  (List.range c.streams.length).filterMap fun i => (c.streams[i]?).map fun t => (i, t.cnt)

/-- Add the counts of streams to those of others, by stream number. -/
def addCounts (l m : List (Nat × StreamCnt)) : List (Nat × StreamCnt) := l.foldl (fun m e => Assoc.set m e.1 ((Assoc.get m e.1 {}).add e.2)) m

/-- Fold a member's counts into its command and its burgee (R129, R320). -/
def foldCounts (n b : Nat) (l : List (Nat × StreamCnt)) (s : State) : State :=
  let s := s.modCmd n fun c => { c with cnts := addCounts l c.cnts }
  let sum := fun (t : List Nat) => l.foldl (fun t e => (t.zip e.2.fields).map fun p => satAdd 64 p.1 p.2) t
  s.modBurgee b fun g => { g with totals := sum g.totals }

/-- Requests of a context that a full bank holds back are withdrawn and their tags freed (R130); the time that they were held counts (R129). -/
def withdrawHeld (p slot : Nat) (s : State) : State :=
  let l := (s.square p).tags.filter fun t => t.slot == slot && t.held && !t.dead
  let s := forAll l (fun t s => countHeld p slot t.stream s) s
  let q := s.square p
  s.setSquare p { q with tags := q.tags.filter fun t => !(t.slot == slot && t.held) }

/-- The tags of a context become dead: replies are discarded, and a tag frees when its reply arrives (R130). Data that has arrived is gone at once, and so
is what waits for the hub or is on its way into its operation window (R290); writes already issued are performed. -/
def deadTags (p slot : Nat) (s : State) : State :=
  let q := s.square p
  let keep := fun (t : Tag) => !(t.slot == slot && (t.ready || t.kind == 5 || (t.held && decide (3 ≤ t.kind))))
  s.setSquare p { q with tags := (q.tags.filter keep).map fun t => if t.slot == slot then { t with dead := true } else t }

/-- The reads that a context's streams still have under way when it ends are of no use any more: their replies are discarded (R118, R130). -/
def endReads (p slot : Nat) (s : State) : State :=
  let mine := fun (o : FabOut) => o.psq == p && o.slot == slot && o.kind == 0 && o.opcode == 1
  let q := s.square p
  let gone := (s.hub.outs.filter fun o => mine o && !o.sent).map (·.id)
  let keep := fun (t : Tag) => !(t.slot == slot && (t.ready || (t.held && decide (3 ≤ t.kind)) || t.hub.any gone.contains))
  let s := s.setSquare p { q with tags := (q.tags.filter keep).map fun t => if t.slot == slot then { t with dead := true } else t }
  refillHub { s with hub := { s.hub with
    outs := (s.hub.outs.filter fun o => !(mine o && !o.sent)).map fun o => if mine o then { o with discard := true } else o } }

/-- A context's fabric operations: those that have not left the hub are dropped and their tags freed, the others stay until
answered and their replies are discarded (R179, R290). -/
def dropOuts (p slot : Nat) (s : State) : State :=
  let mine := fun (o : FabOut) => o.psq == p && o.slot == slot
  let gone := (s.hub.outs.filter fun o => mine o && !o.sent).map (·.id)
  let q := s.square p
  let s := s.setSquare p { q with tags := q.tags.filter fun t => match t.hub with
    | some n => !gone.contains n
    | none => true }
  refillHub { s with hub := { s.hub with
      outs := ((s.hub.outs.filter fun o => !(mine o && !o.sent)).map fun o => if mine o then { o with discard := true } else o)
      windows := s.hub.windows.filter fun w => w.1 / 16 != ctxKey p slot } }

/-- A context's streams end: what has kept their next requests back until now counts (R129). -/
def countBlocked (p slot : Nat) (s : State) : State :=
  forAll (List.range (s.ctx p slot).streams.length) (fun i s => match (s.ctx p slot).streams[i]? with
    | some t => if t.blocked = 1 then countFull p slot i s else if t.blocked = 2 then countHeld p slot i s else s
    | none => s) s

/-- Mark a member of a command as ended. -/
def Cmd.endMember (c : Cmd) (p slot : Nat) : Cmd :=
  { c with members := c.members.map fun m => if m.psq = p ∧ m.slot = slot then { m with ended := true } else m }

/-- A member's sub-command ends on its square: its counts are folded in, its streams are gone and the slot keeps its
registers, queues and share (R60, R79). Who waited for what it held in the array may issue again (R98, R113). -/
def endMember (p slot : Nat) (s : State) : State :=
  let s := countBlocked p slot s
  let c := s.ctx p slot
  let s := foldCounts c.cmd c.burgee c.finalCounts s
  let s := s.setSquare p { s.square p with arr := (s.square p).arr.release slot }
  let s := s.modCmd c.cmd fun d => d.endMember p slot
  wakeArray p (s.setCtx p slot { c with active := false, wait := .none, streams := [], unread := [] })

/-- Cancel a member that has not ended: it ends without fault and its share is kept (R79). -/
def cancelMember (p slot : Nat) (s : State) : State :=
  endMember p slot (dropOuts p slot (deadTags p slot (withdrawHeld p slot s)))

/-- Cancel every member of a command that has not ended, local and remote (R78, R79). -/
def cancelMembers (n : Nat) (s : State) : State :=
  match s.cmd n with
  | none => s
  | some c =>
    let s := forAll (c.members.filter fun m => m.started && !m.ended) (fun m s => cancelMember m.psq m.slot s) s
    let s := forAll (c.remotes.filter fun r => !r.ended) (fun r s => sendSub r.device c.burgee n (.cancel n) s) s
    s.modCmd n fun c => { c with members := c.members.map (fun m => { m with ended := true })
                                 remotes := c.remotes.map (fun r => { r with ended := true }) }

/-- What remains of a context after a fault (R290): an empty slot whose share is being wiped. -/
def Ctx.torn (c : Ctx) : Ctx :=
  { burgee := c.burgee, cmd := c.cmd, wiping := true, shareBase := c.shareBase, shareLen := c.shareLen, sqLogical := c.sqLogical }

/-- Tear a context down (R290); who waited for what it held in the array may issue again (R98, R113). `withdraw` says that a bound has passed, which takes
back what full banks hold (R130). -/
def tearDown (p slot : Nat) (withdraw : Bool) (s : State) : State :=
  let s := countBlocked p slot (if withdraw then withdrawHeld p slot s else s)
  let c := s.ctx p slot
  let s := foldCounts c.cmd c.burgee c.finalCounts s
  let s := dropOuts p slot (deadTags p slot s)
  let q := s.square p
  let s := s.setSquare p { q with arr := q.arr.tear slot, cache := q.cache.filter (·.slot != slot), icache := q.icache.filter (·.slot != slot)
                                  locked := q.locked.filter (·.1 != slot) }
  let s := s.modCmd c.cmd fun d => d.endMember p slot
  wakeArray p (s.setCtx p slot c.torn)

/-- CONTEXT_FAULT (R383). -/
def recordFault (p slot reason stream detail : Nat) (s : State) : State :=
  let c := s.ctx p slot
  let d := (s.cmd c.cmd).getD {}
  record 0x7000 (dieCompute p) c.sqLogical
    (leBytes 1 c.burgee ++ leBytes 1 slot ++ leBytes 1 reason ++ leBytes 1 stream ++ leBytes 2 d.board ++
      leBytes 2 s.deviceId ++ leBytes 4 c.pc ++ leBytes 4 d.tag.toNat ++ leBytes 8 detail ++ leBytes 8 0) s

/-- A fault stops the other members (R79, R80): those that wait or have not started end at once, remote ones are cancelled, and one that runs ends at
its next instruction. -/
def haltMembers (n : Nat) (s : State) : State :=
  match s.cmd n with
  | none => s
  | some c =>
    let runs := fun (m : MemberRun) => m.started && (s.ctx m.psq m.slot).active && (s.ctx m.psq m.slot).wait == .none
    let s' := forAll (c.members.filter fun m => m.started && !m.ended && !runs m) (fun m s => cancelMember m.psq m.slot s) s
    let s' := forAll (c.remotes.filter fun r => !r.ended) (fun r s => sendSub r.device c.burgee n (.cancel n) s) s'
    s'.modCmd n fun c => { c with members := c.members.map (fun m => if runs m then m else { m with ended := true })
                                  remotes := c.remotes.map (fun r => { r with ended := true }), haltAt := some s.up }

/-- A member comes before the one whose fault a command reports (R80). -/
def Cmd.faultsBefore (d : Cmd) (me p slot : Nat) : Bool :=
  d.faultDev == me && match d.members.findIdx? (fun m => m.psq == p && m.slot == slot), d.members.findIdx? (·.sq == d.faultSq) with
    | some i, some j => decide (i < j)
    | _, _ => false

/-- A context fault (R69, R79, R80, R290): the record is written, the context torn down, and the board command takes FAULT with the fault's reason
and place while its other members stop. Of two faults in one cycle the command reports that of the lower member (assumption 113). Stream 0xFF names
none. -/
def contextFault (p slot reason stream detail : Nat) (s : State) : State :=
  let c := s.ctx p slot
  let s := tearDown p slot false (recordFault p slot reason stream detail s)
  match s.cmd c.cmd with
  | none => s
  | some d =>
    let e := { d with status := some stFault, reason := reason, faultSq := c.sqLogical, faultDev := s.deviceId }
    match d.status with
    | some _ => if d.haltAt = some s.up ∧ d.faultsBefore s.deviceId p slot then s.setCmd c.cmd e else s
    | none => haltMembers c.cmd (s.setCmd c.cmd e)

-- ───────────────────────── how an instruction takes effect

/-- The outcome of an instruction within its context. -/
inductive Effect where
  /-- It completes; the sequencer goes on to the next instruction. -/
  | done (s : State)
  /-- It completes and the sequencer goes on at a byte offset. -/
  | jump (target : Nat) (s : State)
  /-- It stalls; what it waits for stands in the context. -/
  | stall (w : Wait) (s : State)
  /-- The context faults: reason, stream, detail. -/
  | fault (reason stream detail : Nat) (s : State)
  /-- The context has ended with this instruction. -/
  | ended (s : State)

/-- An instruction open to time clears TEMPO_HELD (R330). -/
def openToTime (p slot : Nat) (s : State) : State := s.modCmd (s.ctx p slot).cmd fun c => { c with tempoHeld := false }

/-- An instruction with a reserved field, a reserved code or a forbidden operand faults with ILLEGAL (R62). -/
def illegal (s : State) : Effect := .fault fIllegal noStream 0 s

end Sys2Proof.Machine
end

