-- ==== Sys2Proof/Machine/Numerics.lean ====
section
/-! DEFINITION. Exact values, formats, rounding and long accumulators (R87, R101 to R110). -/

namespace Sys2Proof.Machine

/-- An exact value: NaN, an infinity, or (-1)^neg · m · 2^e with the sign of a zero kept. -/
inductive Val where
  | nan
  | inf (neg : Bool)
  | fin (neg : Bool) (m : Nat) (e : Int)
  deriving DecidableEq, Repr

/-- A floating-point format of R87. `nans`: 0 none, 1 exponent all ones with a fraction (and infinities), 2 the all-ones code
only (E4M3). -/
structure FloatFmt where
  ebits : Nat
  mbits : Nat
  bias  : Nat
  nans  : Nat
  deriving DecidableEq, Repr

def fmtBF16 : FloatFmt := ⟨8, 7, 127, 1⟩
def fmtFP16 : FloatFmt := ⟨5, 10, 15, 1⟩
def fmtFP32 : FloatFmt := ⟨8, 23, 127, 1⟩
def fmtE4M3 : FloatFmt := ⟨4, 3, 7, 2⟩
def fmtE5M2 : FloatFmt := ⟨5, 2, 15, 1⟩
def fmtE3M2 : FloatFmt := ⟨3, 2, 3, 0⟩
def fmtE2M3 : FloatFmt := ⟨2, 3, 1, 0⟩
def fmtE2M1 : FloatFmt := ⟨2, 1, 1, 0⟩

def FloatFmt.width (f : FloatFmt) : Nat := 1 + f.ebits + f.mbits

/-- The canonical quiet NaN (R87). -/
def FloatFmt.cnan (f : FloatFmt) : Nat :=
  if f.nans = 2 then 2 ^ (f.ebits + f.mbits) - 1
  else (2 ^ f.ebits - 1) * 2 ^ f.mbits + 2 ^ (f.mbits - 1)

/-- The encoding of an infinity in a format that has them. -/
def FloatFmt.infBits (f : FloatFmt) (neg : Bool) : Nat :=
  (if neg then 2 ^ (f.ebits + f.mbits) else 0) + (2 ^ f.ebits - 1) * 2 ^ f.mbits

/-- The largest finite magnitude as (significand, exponent) (R87). -/
def FloatFmt.largest (f : FloatFmt) : Nat × Int :=
  match f.nans with
  | 1 => (2 ^ (f.mbits + 1) - 1, (2 ^ f.ebits : Nat) - 2 - f.bias - f.mbits)
  | 2 => (2 ^ (f.mbits + 1) - 2, (2 ^ f.ebits : Nat) - 1 - f.bias - f.mbits)
  | _ => (2 ^ (f.mbits + 1) - 1, (2 ^ f.ebits : Nat) - 1 - f.bias - f.mbits)

/-- The value of an encoding (R87): subnormals are read and never flushed. -/
def FloatFmt.val (f : FloatFmt) (b : Nat) : Val :=
  let neg := bit b (f.ebits + f.mbits)
  let e := b / 2 ^ f.mbits % 2 ^ f.ebits
  let m := b % 2 ^ f.mbits
  if f.nans = 1 ∧ e = 2 ^ f.ebits - 1 then (if m = 0 then .inf neg else .nan)
  else if f.nans = 2 ∧ e = 2 ^ f.ebits - 1 ∧ m = 2 ^ f.mbits - 1 then .nan
  else if e = 0 then .fin neg m (1 - f.bias - f.mbits)
  else .fin neg (2 ^ f.mbits + m) ((e : Int) - f.bias - f.mbits)

/-- The encoding of ±k · 2^q where k is at most 2^(mbits + 1) and q is the exponent of its last place. -/
def FloatFmt.pack (f : FloatFmt) (neg : Bool) (k : Nat) (q : Int) : Nat :=
  let s := if neg then 2 ^ (f.ebits + f.mbits) else 0
  if k < 2 ^ f.mbits then s + k
  else
    let kq := if k = 2 ^ (f.mbits + 1) then (k / 2, q + 1) else (k, q)
    s + (kq.2 + f.bias + f.mbits).toNat * 2 ^ f.mbits + (kq.1 - 2 ^ f.mbits)

-- ───────────────────────── flags (R111): Flags.lean names the operations on them

def flInvalid : Nat := 1
def flOverflow : Nat := 2
def flSat : Nat := 4
def flHi : Nat := 8
def flLo : Nat := 16

-- ───────────────────────── rounding (R108, R109)

/-- Drop `sh` low bits of a magnitude: RND 0 to nearest with ties to even, 1 stochastic with a 16-bit draw `g`, 2 toward zero. -/
def roundBits (rnd g m sh : Nat) : Nat :=
  let k := m / 2 ^ sh
  let r := m % 2 ^ sh
  match rnd with
  | 0 => if 2 ^ sh < 2 * r ∨ (2 * r = 2 ^ sh ∧ k % 2 = 1) then k + 1 else k
  | 1 => if 65536 ≤ r * 65536 / 2 ^ sh + g then k + 1 else k
  | _ => k

/-- A magnitude m · 2^e rounded to a multiple of 2^q. -/
def roundTo (rnd g m : Nat) (e q : Int) : Nat :=
  if q ≤ e then m * 2 ^ (e - q).toNat else roundBits rnd g m (q - e).toNat

/-- Convert an exact value to a floating-point destination (R108): encoding and flags. -/
def FloatFmt.convert (f : FloatFmt) (rnd : Nat) (sat : Bool) (g : Nat) (v : Val) : Nat × Nat :=
  let lg := f.largest
  let big := fun neg => f.pack neg lg.1 lg.2
  match v with
  | .nan => (f.cnan, 0)
  | .inf neg =>
    if sat then (big neg, flSat)
    else if f.nans = 1 then (f.infBits neg, 0)
    else (f.cnan, flOverflow)
  | .fin neg m e =>
    if m = 0 then (f.pack neg 0 0, 0)
    else
      let q : Int := max ((Nat.log2 m : Int) + e - f.mbits) (1 - f.bias - f.mbits)
      let k := roundTo rnd g m e q
      let kq := if k = 2 ^ (f.mbits + 1) then (k / 2, q + 1) else (k, q)
      if lg.2 < kq.2 ∨ (kq.2 = lg.2 ∧ lg.1 < kq.1) then
        if rnd = 2 then (big neg, if sat then flSat else flOverflow)
        else if sat then (big neg, flSat)
        else if f.nans = 1 then (f.infBits neg, flOverflow)
        else (f.cnan, flOverflow)
      else (f.pack neg kq.1 kq.2, 0)

/-- Convert to a two's complement integer of `w` bits, always saturating (R66): encoding and flags. -/
def toInt (w rnd g : Nat) (v : Val) : Nat × Nat :=
  let hi : Int := (2 ^ (w - 1) : Nat) - 1
  let lo : Int := -((2 ^ (w - 1) : Nat) : Int)
  match v with
  | .nan => (0, flInvalid)
  | .inf neg => (ofSigned w (if neg then lo else hi), flSat)
  | .fin neg m e =>
    let k := roundTo rnd g m e 0
    let n : Int := if neg then -(k : Int) else k
    if hi < n then (ofSigned w hi, flSat) else if n < lo then (ofSigned w lo, flSat) else (ofSigned w n, 0)

/-- Fit an exact integer into `w` bits (R66): SAT 0 wraps, SAT 1 limits and sets the flag. -/
def fitInt (w : Nat) (sat : Bool) (n : Int) : Nat × Nat :=
  let hi : Int := (2 ^ (w - 1) : Nat) - 1
  let lo : Int := -((2 ^ (w - 1) : Nat) : Int)
  if sat ∧ hi < n then (ofSigned w hi, flSat) else if sat ∧ n < lo then (ofSigned w lo, flSat) else (ofSigned w n, 0)

/-- An integer as an exact value. -/
def Val.ofInt (n : Int) : Val := .fin (decide (n < 0)) n.natAbs 0

-- ───────────────────────── exact arithmetic (R110)

def Val.neg : Val → Val
  | .nan => .nan
  | .inf n => .inf (!n)
  | .fin n m e => .fin (!n) m e

def Val.abs : Val → Val
  | .nan => .nan
  | .inf _ => .inf false
  | .fin _ m e => .fin false m e

def Val.isNeg : Val → Bool
  | .nan => false
  | .inf n => n
  | .fin n _ _ => n

def Val.isNan : Val → Bool
  | .nan => true
  | _ => false

/-- m · 2^e as an integer multiple of 2^b, b at most e. -/
def scaledTo (neg : Bool) (m : Nat) (e b : Int) : Int :=
  let v : Int := m * 2 ^ (e - b).toNat
  if neg then -v else v

/-- Exact sum and flags: ∞ + (−∞) is NaN and INVALID; an exact zero is +0 unless both terms are −0. -/
def Val.add : Val → Val → Val × Nat
  | .nan, _ => (.nan, 0)
  | _, .nan => (.nan, 0)
  | .inf a, .inf b => if a = b then (.inf a, 0) else (.nan, flInvalid)
  | .inf a, .fin _ _ _ => (.inf a, 0)
  | .fin _ _ _, .inf b => (.inf b, 0)
  | .fin na ma ea, .fin nb mb eb =>
    let b := min ea eb
    let n := scaledTo na ma ea b + scaledTo nb mb eb b
    if n = 0 then (.fin (na && nb && ma == 0 && mb == 0) 0 b, 0) else (.fin (decide (n < 0)) n.natAbs b, 0)

/-- Exact product and flags: ∞ × 0 is NaN and INVALID. -/
def Val.mul : Val → Val → Val × Nat
  | .nan, _ => (.nan, 0)
  | _, .nan => (.nan, 0)
  | .inf a, .inf b => (.inf (a != b), 0)
  | .inf a, .fin b m _ => if m = 0 then (.nan, flInvalid) else (.inf (a != b), 0)
  | .fin b m _, .inf a => if m = 0 then (.nan, flInvalid) else (.inf (a != b), 0)
  | .fin na ma ea, .fin nb mb eb => (.fin (na != nb) (ma * mb) (ea + eb), 0)

/-- Order of two values that are not NaN: −0 equals +0. -/
def Val.lt : Val → Val → Bool
  | .nan, _ => false
  | _, .nan => false
  | .inf a, .inf b => a && !b
  | .inf a, .fin _ _ _ => a
  | .fin _ _ _, .inf b => !b
  | .fin na ma ea, .fin nb mb eb =>
    let b := min ea eb
    decide (scaledTo na ma ea b < scaledTo nb mb eb b)

def Val.isZero : Val → Bool
  | .fin _ m _ => m == 0
  | _ => false

/-- The order that minimumNumber and maximumNumber use: −0 lies below +0 (R66, R163). -/
def Val.below (a b : Val) : Bool := a.lt b || (a.isZero && b.isZero && a.isNeg && !b.isNeg)

/-- Choose between two encodings by minimumNumber or maximumNumber (R66). -/
def FloatFmt.pick (f : FloatFmt) (max : Bool) (a b : Nat) : Nat :=
  match f.val a, f.val b with
  | .nan, .nan => f.cnan
  | .nan, _ => b
  | _, .nan => a
  | va, vb => if max then (if va.below vb then b else a) else (if vb.below va then b else a)

-- ───────────────────────── the stochastic-rounding generator (R109)

/-- The next state of the generator. -/
def srNext (w : Word) : Word :=
  let w := w ^^^ (w <<< 13)
  let w := w ^^^ (w >>> 7)
  w ^^^ (w <<< 17)

/-- The draw that a state gives: bits [63:48]. -/
def srDraw (w : Word) : Nat := w.toNat / 2 ^ 48

-- ───────────────────────── long accumulators (R104 to R107)

/-- The bound of a long accumulator's magnitude (R104; assumption 24). -/
def longBound : Int := 2 ^ 159 - 1

/-- Keep a value in the window; leaving it sets HI. -/
def Acc.clamp (a : Acc) (v : Int) : Acc :=
  if longBound < v then { a with v := longBound, hi := true }
  else if v < -longBound then { a with v := -longBound, hi := true }
  else { a with v := v }

/-- Enter one term (R104). -/
def Acc.enter (a : Acc) (t : Val) : Acc :=
  match t with
  | .nan => { a with nan := true }
  | .inf n => if n then { a with ninf := true } else { a with pinf := true }
  | .fin neg m e =>
    let q : Int := a.wb - 80
    let k := roundTo 0 0 m e q
    let lost := decide (e < q) && m % 2 ^ (q - e).toNat != 0
    let a := if lost then { a with lo := true } else a
    if longBound < k then
      -- the term itself is out of range: it enters as the bound of its sign
      let a := { a with hi := true }
      a.clamp (a.v + (if neg then -longBound else longBound))
    else a.clamp (a.v + (if neg then -(k : Int) else k))

/-- Long-add of two accumulators, the receiver first (R106): the sum and whether INVALID is set, which it also is where +∞ of one
meets −∞ of the other (R110). -/
def Acc.longAdd (r o : Acc) : Acc × Bool :=
  let a := { r with hi := r.hi || o.hi, lo := r.lo || o.lo, nan := r.nan || o.nan, pinf := r.pinf || o.pinf, ninf := r.ninf || o.ninf }
  if r.wb = o.wb then (a.clamp (r.v + o.v), a.pinf && a.ninf && !(r.pinf && r.ninf) && !(o.pinf && o.ninf))
  else ({ a with nan := true }.clamp (r.v + o.v), true)

/-- The stored form of a long accumulator (R105). -/
def Acc.bits (a : Acc) : BitVec 256 :=
  let fl := (if a.ninf then 16 else 0) + (if a.pinf then 8 else 0) + (if a.nan then 4 else 0) + (if a.lo then 2 else 0) + (if a.hi then 1 else 0)
  BitVec.ofNat 256 (fl * 2 ^ 168 + ofSigned 8 a.wb * 2 ^ 160 + ofSigned 160 a.v)

/-- A long accumulator from its stored form. -/
def Acc.ofBits (w : BitVec 256) : Acc :=
  let n := w.toNat
  { v := toSigned 160 n, wb := toSigned 8 (n / 2 ^ 160), hi := bit n 168, lo := bit n 169, nan := bit n 170, pinf := bit n 171, ninf := bit n 172 }

/-- The exact value of a long accumulator (R107). -/
def Acc.value (a : Acc) : Val :=
  if a.nan ∨ (a.pinf ∧ a.ninf) then .nan
  else if a.pinf then .inf false
  else if a.ninf then .inf true
  else .fin (decide (a.v < 0)) a.v.natAbs (a.wb - 80)

/-- WINDOW_HI and WINDOW_LO of a long accumulator (R111). -/
def Acc.windowFlags (a : Acc) : Nat := (if a.hi then flHi else 0) + (if a.lo then flLo else 0)

end Sys2Proof.Machine
end

