-- ==== Sys2Proof/Machine/Flags.lean ====
section
/-! DEFINITION. The sticky arithmetic flags of a command (R111): bit 0 INVALID, 1 OVERFLOW, 2 SAT, 3 WINDOW_HI, 4 WINDOW_LO.
They never fault a context. -/

namespace Sys2Proof.Machine

/-- OR flags into a command. -/
def raiseFlags (n fl : Nat) (s : State) : State := if fl = 0 then s else s.modCmd n fun c => { c with aflags := c.aflags ||| fl }

/-- A command loses REPLAY_HELD (R328). -/
def breakReplay (n : Nat) (s : State) : State := s.modCmd n fun c => { c with replay := false }

end Sys2Proof.Machine
end

