-- ==== Sys2Proof/Machine/Routes.lean ====
section
/-! DEFINITION. Route selection (R191, R194 to R197) and link credits (R185). -/

namespace Sys2Proof.Machine

/-- Rack, row and column of a device ID (R191). -/
def rackOf (d : Nat) : Nat := bits d 9 6
def rowOf (d : Nat) : Nat := bits d 5 3
def colOf (d : Nat) : Nat := bits d 2 0
def deviceOf (a r c : Nat) : Nat := a * 64 + r * 8 + c

/-- Row or column peers (R191). -/
def joined (x y : Nat) : Bool := rackOf x == rackOf y && x != y && (rowOf x == rowOf y || colOf x == colOf y)

/-- Links that the LINK record joins to a device, among roles 1 to 3. -/
def HoistCfg.linksTo (cfg : HoistCfg) (d : Nat) : List Nat :=
  (cfg.links.filter fun l => 1 ≤ l.role && decide (l.role ≤ 3) && l.peer == d).map (·.link)

/-- Default links toward a device of this rack (R194); `all` takes both ways around. -/
def HoistCfg.inRack (cfg : HoistCfg) (me d : Nat) (all : Bool) : List Nat :=
  if d = me then []
  else if joined me d then cfg.linksTo d
  else cfg.linksTo (deviceOf (rackOf me) (rowOf me) (colOf d)) ++
    (if all then cfg.linksTo (deviceOf (rackOf me) (rowOf d) (colOf me)) else [])

/-- The default entry of R194. -/
def HoistCfg.defaultRoute (cfg : HoistCfg) (me d mode : Nat) : List Nat :=
  if rackOf me = rackOf d then cfg.inRack me d (mode != 1)
  else
    let direct := cfg.linksTo (deviceOf (rackOf d) (rowOf me) (colOf me))
    if (rowOf me = rowOf d ∧ colOf me = colOf d) ∨ mode = 1 then direct
    else direct ++ cfg.inRack me (deviceOf (rackOf me) (rowOf d) (colOf d)) true

/-- ROUTE MODE in force (R37); 0 where the hoist has no ROUTE record. -/
def HoistCfg.routeMode (cfg : HoistCfg) : Nat := match cfg.route with
  | some r => r.mode
  | none => 0

/-- Devices whose links an expulsion has removed from the route table (R52, R415): until muster admits them again, and with them the other devices when it
is this one that is out. -/
def State.outOfFabric (s : State) (d : Nat) : Bool := (s.peer d).expelled.isSome

/-- A link stands in the route table (R52, R415): it is not fenced, and does not lead to a device that muster has expelled. -/
def State.routable (s : State) (l : Nat) : Bool := (s.link l).fencedAt.isNone && !s.outOfFabric (s.cfg.peerOf l)

/-- The ROUTE record's entry for a destination, or the default (R194). -/
def HoistCfg.routeEntry (cfg : HoistCfg) (me d : Nat) : List Nat :=
  match cfg.route.bind fun r => r.entries.find? (·.1 == d) with
  | some e => bitList 72 e.2
  | none => cfg.defaultRoute me d cfg.routeMode

/-- The entry for a destination, ascending (R52, R194, R415): an entry of mode 1 or 2 that an expulsion has emptied takes the mode 0 default, less the
removed links. The entries toward an expelled device stay masked until muster readmits it. -/
def State.routeTo (s : State) (d : Nat) : List Nat :=
  let base := s.cfg.routeEntry s.deviceId d
  let l := base.filter s.routable
  let l := if l.isEmpty ∧ ¬ base.isEmpty ∧ s.cfg.routeMode ≠ 0 then (s.cfg.defaultRoute s.deviceId d 0).filter s.routable else l
  if s.outOfFabric d then [] else (List.range 72).filter l.contains

/-- A live link: UP, with a link credit on a virtual channel that nothing waits for (R185, R195). -/
def State.liveLink (s : State) (vc l : Nat) : Bool := (s.link l).st == .up && decide (0 < (s.link l).freeCredit vc)

/-- The hash of mode 2 (R195). -/
def routeHash (a : Nat) : Nat := bits a 18 11 ^^^ bits a 26 19 ^^^ bits a 34 27 ^^^ bits a 42 35 ^^^ bits a 43 43

/-- The link with most free link credits of a channel, the lowest on a tie (R195). -/
def State.mostCredit (s : State) (vc : Nat) : List Nat → Option Nat
  | [] => none
  | l :: t => match s.mostCredit vc t with
    | some x => some (if (s.link l).freeCredit vc < (s.link x).freeCredit vc then x else l)
    | none => some l

/-- The link that a message takes, and whether it was picked under mode 0 from two or more (R195, R196). -/
def State.pickLink (s : State) (vc src dst addr : Nat) : Option (Nat × Bool) :=
  let live := (s.routeTo dst).filter (s.liveLink vc)
  let n := live.length
  let mode := s.cfg.routeMode
  if 2 ≤ vc ∨ mode = 1 then (live[(src + dst) % n]?).map fun l => (l, false)
  else if mode = 2 then (live[routeHash addr % n]?).map fun l => (l, false)
  else (s.mostCredit vc live).map fun l => (l, decide (2 ≤ n))

/-- The management credits toward a device are used up (R169): eight messages of this device to it have not left. Such a message has no response, so its
credit returns when it leaves (assumption 128). -/
def State.managementFull (s : State) (d : Nat) : Bool := decide (8 ≤ (s.links.map fun l => l.2.management d).sum)

/-- A message may leave for a device: a link is live, and a management message has its credit. -/
def State.wayOut (s : State) (w : Wire) : Option (Nat × Bool) :=
  if w.vc = 3 ∧ w.src = s.deviceId ∧ s.managementFull w.dst then none else s.pickLink w.vc w.src w.dst w.addr.toNat

/-- A message waits at the hub for a link (R197). -/
def waitAtHub (w : Wire) (s : State) : State := { s with hub := { s.hub with waiting := s.hub.waiting ++ [w] } }

/-- A request of this device's own operations, whose TAG is the operation's number. -/
def State.ownRequest (s : State) (w : Wire) : Bool := w.src == s.deviceId && decide (w.opcode < 0x50) && w.parts.isEmpty

/-- A pick under mode 0 from two or more links (R196, R335): of this device's own request for the command that issued it, of others' traffic in
FAB_ROUTE_ADAPT; the device's own responses count nowhere. -/
def countPick (w : Wire) (picked : Bool) (s : State) : State :=
  if !picked then s
  else if s.ownRequest w then match s.hub.outs.find? (·.id == w.tag) with
    | some o => s.modCmd o.cmd fun c => { c with rolls := { c.rolls with routes := c.rolls.routes + 1 } }
    | none => s
  else if w.src = s.deviceId ∧ w.parts.isEmpty then s
  else { s with hub := { s.hub with routeAdapt := satAdd 64 s.hub.routeAdapt 1 } }

/-- A request of this device goes out: its retransmission counts from now (R176). -/
def noteSent (w : Wire) (s : State) : State :=
  if s.ownRequest w then { s with hub := { s.hub with outs := s.hub.outs.map fun o => if o.id = w.tag ∧ o.sent then { o with sentAt := s.up } else o } } else s

/-- A message leaves over a link of its destination's entry, or waits at the hub for one (R195 to R197). -/
def dispatch (w : Wire) (s : State) : State := match s.wayOut w with
  | some (k, picked) => sendOn k w (noteSent w (countPick w picked s))
  | none => waitAtHub w s

/-- The links of a multicast message's copies: each link with the destinations reached over it (R165, R195). -/
def groupLinks (l : List (Nat × Nat × Nat)) : List (Nat × List (Nat × Nat)) :=
  (List.range 72).filterMap fun k =>
    let m := (l.filter (·.1 == k)).map (·.2)
    if m.isEmpty then none else some (k, m)

/-- A multicast message leaves, one copy for each link with the destinations reached over it; for the others it waits (R165, R195 to R197). -/
def dispatchGroup (w : Wire) (s : State) : State :=
  let picks := w.dests.map fun d => (d, s.wayOut { w with dst := d.1 })
  let s := forAll picks (fun p s => countPick w ((p.2.map (·.2)).getD false) s) s
  let s := forAll (groupLinks (picks.filterMap fun p => p.2.map fun x => (x.1, p.1))) (fun g s => sendOn g.1 { w with dests := g.2 } (noteSent w s)) s
  let stuck := (picks.filter (·.2.isNone)).map (·.1)
  if stuck.isEmpty then s else waitAtHub { w with dests := stuck } s

/-- Send a message on. -/
def sendWire (w : Wire) (s : State) : State := if w.dests.isEmpty then dispatch w s else dispatchGroup w s

/-- Messages that wait at the hub go on in hub order (R197, R203). -/
def forwardWaiting (s : State) : State := forAll s.hub.waiting sendWire { s with hub := { s.hub with waiting := [] } }

/-- A management message of this device for one other (R168, R169, R410). -/
def sendMuster (op dst : Nat) (l : List Nat) (s : State) : State :=
  dispatch (musterWire op s.deviceId dst l) (emit (.muster op (some dst) l) s)

/-- A management message for the peer of a link, over that link (R410). -/
def sendMusterOn (k op : Nat) (l : List Nat) (s : State) : State :=
  let d := s.cfg.peerOf k
  let w := musterWire op s.deviceId d l
  let s := emit (.muster op (some d) l) s
  if s.managementFull d then waitAtHub w s else sendOn k w s

end Sys2Proof.Machine
end

