-- ==== Sys2Proof/Machine/FabricHome.lean ====
section
/-! DEFINITION. The home side of the fabric: checks, operations, SEQ order, replay and combined requests (R153 to R165, R170 to
R177, R180), and generation queries (R128). -/

namespace Sys2Proof.Machine

-- ───────────────────────── places

/-- Where a fabric offset leads at its home: a tower-window offset, or a byte of a share. -/
inductive Spot where
  | tower (o : Nat)
  | share (h : Share) (p a : Nat)

/-- The place that bytes `o` to `o + n - 1` name, where all of them are present (R154 to R156). -/
def State.spot (s : State) (o n : Nat) : Option Spot :=
  if o < towerWindow then (if s.cfg.rangeIn (fun _ => true) o n then some (.tower o) else none)
  else if scratchWindow ≤ o ∧ o < scratchWindowEnd then
    let w := padWindow o
    match s.physOf w.1, s.cfg.share w.1 w.2.1 with
    | some p, some h => if w.2.2 + n ≤ h.size then some (.share h p w.2.2) else none
    | _, _ => none
  else none

/-- Requests to a burgee's shares and regions are performed while it is ACTIVE, DRAINING or QUIET (R269). -/
def State.served (s : State) (b : Nat) : Bool :=
  b == 0 || match (s.burgee b).state with
    | .active => true
    | .draining => true
    | .quiet => true
    | _ => false

/-- The rights of R157 on a region. -/
def State.regionOpen (s : State) (b : Nat) (r : Region) : Bool :=
  r.exposed && (b == 0 || s.cfg.ownsRegion b r) && (r.burgee == 255 || s.served r.burgee)

/-- Naturally aligned size of a format of the atomics and reductions, in bytes (R162). -/
def fmtBytes : Nat → Nat
  | 1 | 3 | 5 => 4
  | 2 | 4 => 8
  | 6 => 2
  | _ => 0

/-- Bytes `o` to `o + n - 1` lie in one 256-byte aligned block. -/
def oneBlock (o n : Nat) : Bool := 1 ≤ n && decide (o / 256 = (o + n - 1) / 256)

/-- Size, alignment and format of the operation table (R162). -/
def wellSized (op fmt o n : Nat) : Bool :=
  let pow2 := [1, 2, 4, 8, 16, 32].contains n && decide (o % n = 0)
  let whole := 32 ≤ n && decide (n ≤ 256) && decide (n % 32 = 0) && decide (o % 32 = 0)
  let num := fun (l : List Nat) => l.contains fmt && n == fmtBytes fmt && decide (o % n = 0)
  let red := [1, 5, 6].contains fmt && decide (n % fmtBytes fmt = 0) && decide (o % fmtBytes fmt = 0) && decide (n ≤ 256) && oneBlock o n
  match op with
  | 0x01 => fmt == 0 && whole
  | 0x02 => fmt == 0 && decide (n ≤ 256) && oneBlock o n
  | 0x03 => fmt == 0 && whole
  | 0x10 | 0x11 | 0x15 | 0x16 | 0x17 => fmt == 0 && pow2
  | 0x12 => num [1, 2, 5]
  | 0x13 | 0x14 => num [1, 2, 3, 4, 5]
  | 0x20 | 0x21 | 0x22 => red
  | 0x23 => fmt == 7 && whole
  | _ => false

/-- Statuses of R161. -/
def stNotPresent : Nat := 1
def stDenied : Nat := 2
def stMalformedOp : Nat := 3
def stNotPerformed : Nat := 4
def stUnknown : Nat := 5

/-- The home's checks, in order (R157): 0 where none fails. -/
def State.homeCheck (s : State) (op : Nat) (r : FabReq) : Nat :=
  let a := r.addr.toNat
  let o := fabOffset a
  if ¬ r.rsvZero ∨ ¬ fabReservedZero a then stNotPresent
  else match s.spot o r.size with
    | none => stNotPresent
    | some (.tower _) =>
      if s.cfg.rangeIn (s.regionOpen r.burgee) o r.size then (if wellSized op r.fmt o r.size then 0 else stMalformedOp) else stDenied
    | some (.share h _ _) =>
      if h.burgee = r.burgee ∧ s.served h.burgee then (if wellSized op r.fmt o r.size then 0 else stMalformedOp) else stDenied

-- ───────────────────────── reads and writes at a place

/-- The codewords of the granules that `n` bytes at a place touch, as stored (R137), with the controller's counts. -/
def loadSpot (sp : Spot) (n : Nat) (s : State) : List Granule × State :=
  match sp with
  | .tower o => ((spans (n + 1) o n).map fun q => s.tower.granule (s.cfg.key q.1), noteSpan s.cfg.key (spans (n + 1) o n) s)
  | .share h p a => ((spans (n + 1) a n).map fun q => s.scratch.granule (padKey p h.base q.1), s)

/-- The `n` bytes that begin at byte `lo` of a run of granules, corrected. -/
def payloadBytes (l : List Granule) (lo n : Nat) : List Byte := fitTo n ((l.flatMap fun g => granuleBytes (Code.value g).1).drop lo)

/-- The granule is poisoned or uncorrectable (R136). -/
def isPoisoned (g : Granule) : Bool := (Code.value g).2

/-- A store reaches a share whose context is being torn down (R80, R180). -/
def Spot.torn (s : State) : Spot → Bool
  | .tower _ => false
  | .share h p _ => (s.ctx p h.slot).wiping

/-- Put `n` bytes at `a` from granules that begin at byte `a mod 32` of the first: a whole granule is stored as received, a part
is merged (R139). -/
def putGranules (key : Nat → Nat) (a n : Nat) (l : List Granule) (m : Mem) : Mem :=
  (((spans (n + 1) a n).zip l)).foldl (fun m q =>
    if q.1.2 = 32 then m.put (key q.1.1) q.2
    else
      let v := Code.value q.2
      m.merge (key q.1.1) (((granuleBytes v.1).drop (q.1.1 % 32)).take q.1.2) v.2) m

/-- A context on a square has a fixed timing that hub accesses give way to, or its array flushes (R59, R80, R113, R130). -/
def State.takesBanks (s : State) (p : Nat) : Bool :=
  !(s.square p).arr.tiles.isEmpty || (List.range 8).any fun k => (s.ctx p k).active && (((s.cmd (s.ctx p k).cmd).bind fun d => s.cfg.board d.board).any (·.tempo))

/-- A hub write into a share: where the square's own work takes the banks it may wait for a free bank cycle, which depends on the work's cycles: whether it
does is a free value (R58, R80; assumption 129). -/
def countWriteWait (p : Nat) (s : State) : State :=
  if s.takesBanks p then
    let x := drawFree s
    { x.2 with hub := { x.2.hub with writeWaits := x.2.hub.writeWaits + x.1 % 2 } }
  else s

/-- Write at a place as one operation; a write to a share under a wipe is discarded and counted (R80, R127, R139, R180). `read` says that the operation has
read the place, so that a merge reads nothing more. -/
def storeSpot (sp : Spot) (n : Nat) (l : List Granule) (read : Bool) (s : State) : State :=
  if sp.torn s then { s with hub := { s.hub with cnt := s.hub.cnt.modify 6 fun n => satAdd 64 n 1 } }
  else match sp with
  | .tower o =>
    let q := spans (n + 1) o n
    let s := outdate s.cfg.key q (if read then s else noteSpan s.cfg.key (partSpans q) s)
    bumpGens o n { s with tower := putGranules s.cfg.key o n l s.tower }
  | .share h p a => countWriteWait p { s with scratch := putGranules (padKey p h.base) a n l s.scratch }

/-- The granules that carry `bs` from byte `lo` of the first on, each poisoned where the list of flags says so. -/
def carry (lo : Nat) (bs : List Byte) (poison : List Bool) : List Granule :=
  let all := padTo 32 (List.replicate lo 0 ++ bs)
  let l := chunksOf 32 (all.length / 32) all
  ((List.range l.length).zip l).map fun q => Code.form (bytesGranule q.2) (poison.getD q.1 false)

-- ───────────────────────── operations (R162 to R164)

/-- AFLAGS of a converted sum: bit 0 INVALID, bit 1 OVERFLOW (R161, R163). -/
def aflagsOf (fl : Nat) : Nat := fl % 4

/-- A sum of two encodings in a floating-point format, rounded once to nearest even with SAT 0 (R163, R164). -/
def sumBits (f : FloatFmt) (a b : Nat) : Nat × Nat :=
  let v := (f.val a).add (f.val b)
  let r := f.convert 0 false 0 v.1
  (r.1, aflagsOf (v.2 ||| r.2))

/-- The smaller or larger of two operands of a format (R163). -/
def pickBits (fmt : Nat) (max : Bool) (a b : Nat) : Nat :=
  let n := 8 * fmtBytes fmt
  match fmt with
  | 5 => fmtFP32.pick max a b
  | 6 => fmtBF16.pick max a b
  | 3 | 4 => if max then (if a < b then b else a) else (if b < a then b else a)
  | _ => if max then (if toSigned n a < toSigned n b then b else a) else (if toSigned n b < toSigned n a then b else a)

/-- The sum of two operands of a format: integer sums wrap. -/
def addBits (fmt a b : Nat) : Nat × Nat :=
  match fmt with
  | 5 => sumBits fmtFP32 a b
  | 6 => sumBits fmtBF16 a b
  | _ => ((a + b) % 2 ^ (8 * fmtBytes fmt), 0)

/-- The new value of an atomic's target, if it writes one, and the flags (R163). `x` is the operand, for compare-swap the compare
value followed by the new value. -/
def atomicResult (op fmt n old : Nat) (x : List Byte) : Option Nat × Nat :=
  let v := leNat (x.take n)
  let ifNew := fun (m : Nat) => if m = old then none else some m
  match op with
  | 0x10 => (some v, 0)
  | 0x11 => (if old = v then some (leNat ((x.drop n).take n)) else none, 0)
  | 0x12 => let r := addBits fmt old v; (some r.1, r.2)
  | 0x13 => (ifNew (pickBits fmt false old v), 0)
  | 0x14 => (ifNew (pickBits fmt true old v), 0)
  | 0x15 => (some (old &&& v), 0)
  | 0x16 => (some (old ||| v), 0)
  | _ => (some (old ^^^ v), 0)

/-- Is it an atomic (0x10–0x17) or a reduction (0x20–0x23)? -/
def isAtomic (op : Nat) : Bool := 0x10 ≤ op && decide (op ≤ 0x17)
def isReduction (op : Nat) : Bool := 0x20 ≤ op && decide (op ≤ 0x23)
def isWriting (op : Nat) : Bool := op == 0x02 || op == 0x03 || isAtomic op || isReduction op

/-- Elements of a reduction, one after another (R164). -/
def reduceElems (op fmt : Nat) : Nat → List Byte → List Byte → List Byte × Nat
  | 0, _, _ => ([], 0)
  | k + 1, old, x =>
    let w := fmtBytes fmt
    let r := match op with
      | 0x20 => addBits fmt (leNat (old.take w)) (leNat (x.take w))
      | 0x21 => (pickBits fmt false (leNat (old.take w)) (leNat (x.take w)), 0)
      | _ => (pickBits fmt true (leNat (old.take w)) (leNat (x.take w)), 0)
    let t := reduceElems op fmt k (old.drop w) (x.drop w)
    (leBytes w r.1 ++ t.1, r.2 ||| t.2)

/-- Long-adds of whole granules, the stored accumulator as the receiver (R106, R164). -/
def reduceLong : Nat → List Byte → List Byte → List Byte × Nat
  | 0, _, _ => ([], 0)
  | k + 1, old, x =>
    let r := (Acc.ofBits (bytesGranule (old.take 32))).longAdd (Acc.ofBits (bytesGranule (x.take 32)))
    let t := reduceLong k (old.drop 32) (x.drop 32)
    (granuleBytes r.1.bits ++ t.1, (if r.2 then 1 else 0) ||| t.2)

/-- The bytes and flags that a reduction leaves (R164). -/
def reduceResult (op fmt : Nat) (old x : List Byte) : List Byte × Nat :=
  if op = 0x23 then reduceLong (old.length / 32) old x else reduceElems op fmt (old.length / fmtBytes fmt) old x

/-- What the home answers. -/
structure Answer where
  status : Nat := 0
  path   : Nat := 0
  aflags : Nat := 0
  payload : List Granule := []
  gen    : Option Nat := none

/-- The write generation that a watched read takes with it (R127). -/
def State.genOf (s : State) (o : Nat) : Option Nat :=
  match s.cfg.regionAt (o / gib) with
  | some r => if r.watchOk then some (Assoc.get s.tow.gens (o / 4096) 0).toNat else none
  | none => none

/-- The granule of an atomic's reply: the old value, zero-extended (R161). -/
def oldValue (bs : List Byte) (poison : Bool) : Granule := Code.form (bytesGranule bs) poison

/-- Perform one operation at the home, or answer the check that it fails (R157, R162 to R164). A generation query, of opcode 0x41, has no check (R128). -/
def performOp (op : Nat) (r : FabReq) (s : State) : Answer × State :=
  let o := fabOffset r.addr.toNat
  if op = 0x41 then ({ gen := some (Assoc.get s.tow.gens (o / 4096) 0).toNat }, s)
  else match s.homeCheck op r, s.spot o r.size with
  | 0, some sp =>
    if op = 0x01 then
      let v := loadSpot sp r.size s
      ({ payload := v.1, gen := if r.watch then s.genOf o else none }, v.2)
    else if isAtomic op then
      let v := loadSpot sp r.size s
      let bad := v.1.any isPoisoned || r.payload.any isPoisoned
      let old := payloadBytes v.1 (o % 32) r.size
      let second := if op = 0x11 then payloadBytes (r.payload.drop 1) 0 r.size else []
      let x := atomicResult op r.fmt r.size (leNat old) (payloadBytes r.payload 0 r.size ++ second)
      let s := match x.1 with
        | some n => storeSpot sp r.size (carry (o % 32) (leBytes r.size n) [bad]) true v.2
        | none => v.2
      ({ aflags := x.2, payload := [oldValue old bad] }, s)
    else if isReduction op then
      let v := loadSpot sp r.size s
      let x := reduceResult op r.fmt (payloadBytes v.1 (o % 32) r.size) (payloadBytes r.payload (o % 32) r.size)
      let bad := (v.1.zip r.payload).map fun q => isPoisoned q.1 || isPoisoned q.2
      ({ aflags := x.2 }, storeSpot sp r.size (carry (o % 32) x.1 bad) true v.2)
    else ({}, storeSpot sp r.size r.payload false s)
  | st, _ => ({ status := st }, s)

-- ───────────────────────── SEQ order and replay (R170, R177)

def pairKey (dev b : Nat) : Nat := dev * 256 + b
def seqMod : Nat := 2 ^ 24

/-- How far a SEQ lies ahead of the next one to perform (R170): 0 is next, below 2^23 is ahead, the rest was performed. -/
def State.seqAhead (s : State) (src b seq : Nat) : Nat :=
  (seq % seqMod + seqMod - Assoc.get s.hub.homeNext (pairKey src b) 1) % seqMod

/-- One more of a source's burgee has been performed. -/
def advanceSeq (src b : Nat) (s : State) : State :=
  let m := Assoc.set s.hub.homeNext (pairKey src b) ((Assoc.get s.hub.homeNext (pairKey src b) 1 + 1) % seqMod)
  { s with hub := { s.hub with homeNext := m } }

/-- Remember an atomic's result: the last 64 per source device (R177). -/
def remember (src : Nat) (e : ReplayEntry) (s : State) : State :=
  { s with hub := { s.hub with replay := Assoc.set s.hub.replay src ((e :: Assoc.get s.hub.replay src []).take 64) } }

/-- The response code of an operation (R167), and the model's of a generation query (assumption 127). -/
def respCode (op : Nat) : Nat := if op = 0x01 then 0x80 else if op = 0x41 then 0x84 else if isAtomic op then 0x81 else 0x82

/-- Virtual channel of an answer: that of radio requests stays the radio channel (R168). -/
def respVc (radio : Bool) : Nat := if radio then 2 else 1

/-- The response to a request (R161, R167): it has the request's SIZE, SEQ, ADDRESS and TAG; RETRY says that the replay table gave it (assumption 127). -/
def answerWire (me code : Nat) (r : FabReq) (a : Answer) : Wire :=
  { opcode := code, vc := respVc r.radio, retry := a.path == 2, size := r.size - 1, fmt := a.status, src := me, dst := r.src, burgee := r.burgee
    aflags := a.aflags, seq := r.seq, addr := r.addr, tag := r.tag, payload := a.payload, gen := a.gen }

/-- Answer a request's source (R168, R195, R197). -/
def respond (op : Nat) (r : FabReq) (a : Answer) (s : State) : State := dispatch (answerWire s.deviceId (respCode op) r a) s

/-- Answer the router of a combined request (R173). -/
def respondCombined (r : FabReq) (a : Answer) (s : State) : State :=
  dispatch { answerWire s.deviceId 0x83 r a with combined := true, seq := 0 } s

/-- A message for this device leaves the receive buffer that it stands first in (R182, R185). -/
def takeIn (p : Wire → Bool) (s : State) : State :=
  match s.links.findSome? fun l => (l.2.takeMessage p).map fun k => (l.1, k) with
  | some (l, k) => s.setLink l k
  | none => s

/-- The message that a request command stands for. -/
def isRequest (op : Nat) (r : FabReq) (w : Wire) : Bool :=
  w.opcode == op && w.src == r.src && w.burgee == r.burgee && w.seq == r.seq && w.tag == r.tag

def countHub (i : Nat) (s : State) : State := { s with hub := { s.hub with cnt := s.hub.cnt.modify i fun n => satAdd 64 n 1 } }

/-- A tie among member squares of one command counts for each launched command of the burgee (R335; assumption 31). -/
def countTie (r : FabReq) (s : State) : State :=
  if !r.tie then s else
  let up := fun (c : Cmd) => if c.burgee = r.burgee ∧ c.stage = .launched then { c with rolls := { c.rolls with ties := c.rolls.ties + 1 } } else c
  { s with sched := { s.sched with cmds := s.sched.cmds.map fun c => (c.1, up c.2) } }

/-- The tower bytes of a request at its home: the offset, and the partition of the region they lie in (R275). None where it moves none. -/
def State.homeBytes (s : State) (op : Nat) (r : FabReq) : Option (Nat × Nat) :=
  if op = 0x41 ∨ s.homeCheck op r ≠ 0 then none
  else match s.spot (fabOffset r.addr.toNat) r.size with
    | some (.tower o) => some (o, ((s.cfg.regionAt (o / gib)).map (·.part)).getD 0)
    | _ => none

/-- A read and a write of the granules at the home (R139). -/
def mergesAt (op : Nat) : Bool := isAtomic op || isReduction op

/-- The memory controllers and the regulators let the hub perform a request now (R124, R145, R149, R276). -/
def State.homePasses (s : State) (op : Nat) (r : FabReq) : Bool := match s.homeBytes op r with
  | some (o, part) => s.passesIn hubRequester part r.burgee o r.size (op != 1) (mergesAt op)
  | none => true

/-- Perform an operation at the home, with what it costs (R275). -/
def performHere (op : Nat) (r : FabReq) (s : State) : Answer × State :=
  performOp op r (match s.homeBytes op r with
    | some (o, part) => chargeIn part r.burgee o r.size (op != 1) (mergesAt op) s
    | none => s)

/-- Perform a request whose turn it is: its SEQ is taken, an atomic's result remembered, and the source answered. -/
def performNow (op : Nat) (r : FabReq) (s : State) : State :=
  let x := performHere op r (countTie r s)
  let s := advanceSeq r.src r.burgee x.2
  let s := if isAtomic op then remember r.src { burgee := r.burgee, seq := r.seq, value := x.1.payload, status := x.1.status
                                                aflags := x.1.aflags } s else s
  respond op r x.1 s

/-- The request of one constituent of a combined request (R167, R173). -/
def partReq (r : FabReq) (q : CombinePart) : FabReq :=
  { r with src := q.src, burgee := q.burgee, seq := q.seq, tag := q.tag, payload := if q.data.isEmpty then [] else [Code.form (bytesGranule q.data) q.bad] }

/-- Every constituent is the next in its own order (R173). -/
def State.combinedReady (s : State) (parts : List CombinePart) : Bool := parts.all fun q => s.seqAhead q.src q.burgee q.seq == 0

/-- Some constituent was performed already: the combined request can never be performed (assumption 32). -/
def State.combinedStale (s : State) (parts : List CombinePart) : Bool :=
  parts.any fun q => decide (2 ^ 23 ≤ s.seqAhead q.src q.burgee q.seq)

/-- The statuses of the constituents differ: one response cannot carry what each source has to get (R173; assumption 32). -/
def State.combinedMixed (s : State) (op : Nat) (r : FabReq) (parts : List CombinePart) : Bool :=
  ((parts.map fun q => s.homeCheck op (partReq r q)).eraseDups).length != 1

/-- The combined request is never performed: its sources send their own requests again (R176; assumption 32). -/
def State.combinedDropped (s : State) (op : Nat) (r : FabReq) (parts : List CombinePart) : Bool := s.combinedStale parts || s.combinedMixed op r parts

/-- Apply the constituents one after another, each result remembered for its source, and answer the router with the value before the first (R173). -/
def performCombined (op : Nat) (r : FabReq) (parts : List CombinePart) (s : State) : State :=
  let o := fabOffset r.addr.toNat
  let old := match s.spot o r.size with
    | some sp => (loadSpot sp r.size s).1
    | none => []
  let x := parts.foldl (fun (acc : (Answer × Nat) × State) q =>
    let y := performHere op (partReq r q) acc.2
    let s := advanceSeq q.src q.burgee y.2
    let s := if isAtomic op then remember q.src { burgee := q.burgee, seq := q.seq, value := y.1.payload, status := y.1.status
                                                  aflags := y.1.aflags } s else s
    ((y.1, acc.1.2 ||| y.1.aflags), s)) (({}, 0), countTie r s)
  let status := x.1.1.status
  let payload := if status ≠ 0 then [] else if op = 0x01 then x.1.1.payload else [oldValue (payloadBytes old (o % 32) r.size) (old.any isPoisoned)]
  respondCombined r { status := status, aflags := x.1.2, payload := payload, gen := x.1.1.gen } x.2

/-- Whether a waiting request's turn has come, or it will never come. -/
def State.homeReady (s : State) (h : HomeWait) : Bool :=
  if h.parts.isEmpty then s.seqAhead h.req.src h.req.burgee h.req.seq == 0 && s.homePasses h.opcode h.req
  else s.combinedDropped h.opcode h.req h.parts || (s.combinedReady h.parts && s.homePasses h.opcode h.req)

/-- A waiting request whose turn has come, with the list without it. -/
def takeReady (s : State) : List HomeWait → Option (HomeWait × List HomeWait)
  | [] => none
  | h :: t => if s.homeReady h then some (h, t) else (takeReady s t).map fun x => (x.1, h :: x.2)

/-- Perform a request that has waited, or drop it. -/
def performWaiting (h : HomeWait) (s : State) : State :=
  if h.parts.isEmpty then performNow h.opcode h.req s
  else if s.combinedDropped h.opcode h.req h.parts then s
  else performCombined h.opcode h.req h.parts s

/-- Perform what waited for a predecessor and may now go (R170); the count bounds the requests. -/
def drainHome : Nat → State → State
  | 0, s => s
  | n + 1, s =>
    match takeReady s s.hub.homeWait with
    | none => s
    | some (h, rest) => drainHome n (performWaiting h { s with hub := { s.hub with homeWait := rest } })

/-- A duplicate is answered (R177): an atomic from the replay table or as UNKNOWN, a LOAD performed again, the rest acknowledged. -/
def answerDuplicate (op : Nat) (r : FabReq) (s : State) : State :=
  if op = 0x01 ∨ op = 0x41 then
    let x := performHere op r s
    respond op r x.1 x.2
  else if isAtomic op then
    match (Assoc.get s.hub.replay r.src []).find? fun e => e.burgee == r.burgee && e.seq == r.seq with
    | some e => countHub 3 (respond op r { status := e.status, path := 2, aflags := e.aflags, payload := e.value } s)
    | none => countHub 4 (respond op r { status := stUnknown } s)
  else respond op r {} s

/-- A request waits in the home's buffer (R170). -/
def waitAtHome (op : Nat) (r : FabReq) (parts : List CombinePart) (s : State) : State :=
  { s with hub := { s.hub with homeWait := s.hub.homeWait ++ [{ opcode := op, req := r, parts := parts }] } }

/-- The request waits at the home already: this is a copy of it. -/
def State.waitsAtHome (s : State) (r : FabReq) : Bool :=
  s.hub.homeWait.any fun h => h.parts.isEmpty && h.req.src == r.src && h.req.burgee == r.burgee && h.req.seq == r.seq

/-- What a request meets at its home (R157, R170, R177): it is performed in its turn, as soon as its controllers serve it. -/
def homeTurn (op : Nat) (r : FabReq) (s : State) : Result :=
  let d := s.seqAhead r.src r.burgee r.seq
  if s.waitsAtHome r then .next s
  else if d = 0 ∧ s.homePasses op r then
    let s := performNow op r s
    .next (drainHome s.hub.homeWait.length s)
  else if d < 2 ^ 23 then .next (waitAtHome op r [] s)
  else whenServed (op != 0x01 || s.homePasses op r) (fun s => .next (answerDuplicate op r s)) s

/-- A request reaches its home. -/
def homeRequest (op : Nat) (r : FabReq) (s : State) : Result := homeTurn op r (takeIn (isRequest op r) s)

/-- FABRIC_LOAD (R162, R126). -/
def execFabricLoad (r : FabReq) (s : State) : Result := homeRequest 0x01 r s
/-- FABRIC_STORE (R162, R139). -/
def execFabricStore (r : FabReq) (s : State) : Result := homeRequest 0x02 r s
/-- SWAP (R163). -/
def execFabricSwap (r : FabReq) (s : State) : Result := homeRequest 0x10 r s
/-- CAS (R163). -/
def execCas (r : FabReq) (s : State) : Result := homeRequest 0x11 r s
def execFadd (r : FabReq) (s : State) : Result := homeRequest 0x12 r s
def execFmin (r : FabReq) (s : State) : Result := homeRequest 0x13 r s
def execFmax (r : FabReq) (s : State) : Result := homeRequest 0x14 r s
def execFand (r : FabReq) (s : State) : Result := homeRequest 0x15 r s
def execForA (r : FabReq) (s : State) : Result := homeRequest 0x16 r s
def execFxor (r : FabReq) (s : State) : Result := homeRequest 0x17 r s
/-- RADD (R164). -/
def execRadd (r : FabReq) (s : State) : Result := homeRequest 0x20 r s
def execRmin (r : FabReq) (s : State) : Result := homeRequest 0x21 r s
def execRmax (r : FabReq) (s : State) : Result := homeRequest 0x22 r s
def execRladd (r : FabReq) (s : State) : Result := homeRequest 0x23 r s

/-- Operations that routers combine (R172). -/
def combinable (op : Nat) : Bool := [0x01, 0x12, 0x13, 0x14, 0x15, 0x16, 0x17].contains op

/-- COMBINED_REQUEST (R173): performed once each constituent is the next in its own order; another operation is MALFORMED. -/
def execCombinedRequest (opcode : Nat) (r : FabReq) (parts : List CombinePart) (s : State) : Result :=
  let s := takeIn (fun w => w.opcode == opcode && w.src == r.src && w.tag == r.tag && w.parts == parts) s
  if !combinable opcode || parts.isEmpty then .next (respondCombined r { status := stMalformedOp } s)
  else if s.combinedDropped opcode r parts then .next s
  else if s.combinedReady parts && s.homePasses opcode r then
    let s := performCombined opcode r parts s
    .next (drainHome s.hub.homeWait.length s)
  else .next (waitAtHome opcode r parts s)

/-- GENERATION_QUERY (R127, R128): the home answers with the write generation of a page, after every earlier request of the
burgee toward it. -/
def execGenerationQuery (src burgee : Nat) (tag : SeqTag) (page : Nat) (s : State) : Result :=
  homeRequest 0x41 { src := src, burgee := burgee, seq := tag.seq, retry := false, radio := s.radioBurgee burgee, rsvZero := true
                     addr := BitVec.ofNat 64 (s.deviceId * 2 ^ 44 + page * 4096), size := 1, fmt := 0, payload := [], tag := tag.tag, watch := false, tie := false } s

end Sys2Proof.Machine
end

