-- ==== Sys2Proof/Machine/Boards.lean ====
section
/-! DEFINITION. Board trees (R20, R28, R72, R73): levels, squares, ranges. A tree is at most six boards deep (R20). -/

namespace Sys2Proof.Machine

/-- Deepest tree of boards (R20). -/
def boardDepth : Nat := 6

/-- A board's level (R28). -/
def HoistCfg.levelN (cfg : HoistCfg) : Nat → Nat → Nat
  | 0, _ => 0
  | n + 1, id => match cfg.board id with
    | none => 0
    | some b => 1 + b.members.foldl (fun l m => max l (match m.kind with
        | 0 => 0
        | 1 => cfg.levelN n m.id
        | _ => m.level)) 0

def HoistCfg.level (cfg : HoistCfg) (id : Nat) : Nat := cfg.levelN boardDepth id

/-- The logical squares of a board's local tree, in member order. -/
def HoistCfg.leavesN (cfg : HoistCfg) : Nat → Nat → List Nat
  | 0, _ => []
  | n + 1, id => match cfg.board id with
    | none => []
    | some b => b.members.flatMap fun m => match m.kind with
      | 0 => [m.id]
      | 1 => cfg.leavesN n m.id
      | _ => []

def HoistCfg.leaves (cfg : HoistCfg) (id : Nat) : List Nat := cfg.leavesN boardDepth id

/-- The squares of one member of a board: its own, those of a local board, none of a remote one. -/
def HoistCfg.memberLeaves (cfg : HoistCfg) (m : Member) : List Nat := match m.kind with
  | 0 => [m.id]
  | 1 => cfg.leaves m.id
  | _ => []

/-- Logical square count of a board, remote squares included (R72). -/
def HoistCfg.countN (cfg : HoistCfg) : Nat → Nat → Nat
  | 0, _ => 0
  | n + 1, id => match cfg.board id with
    | none => 0
    | some b => (b.members.map fun m => match m.kind with
      | 0 => 1
      | 1 => cfg.countN n m.id
      | _ => Config.remoteSquares m.device m.id).sum

def HoistCfg.squareCount (cfg : HoistCfg) (id : Nat) : Nat := cfg.countN boardDepth id

def HoistCfg.memberCount (cfg : HoistCfg) (m : Member) : Nat := match m.kind with
  | 0 => 1
  | 1 => cfg.squareCount m.id
  | _ => Config.remoteSquares m.device m.id

/-- The boards on the way from a board down to one of its local squares, outermost first. -/
def HoistCfg.pathN (cfg : HoistCfg) : Nat → Nat → Nat → List Board
  | 0, _, _ => []
  | n + 1, id, sq => match cfg.board id with
    | none => []
    | some b =>
      if b.members.any fun m => m.kind == 0 && m.id == sq then [b]
      else match b.members.find? fun m => m.kind == 1 && (cfg.leavesN n m.id).contains sq with
        | some m => b :: cfg.pathN n m.id sq
        | none => []

/-- The places of a member's squares in order, as (device, logical square); `me` is this device. -/
def HoistCfg.placesN (cfg : HoistCfg) (me : Nat) : Nat → Member → List (Nat × Nat)
  | 0, _ => []
  | n + 1, m => match m.kind with
    | 0 => [(me, m.id)]
    | 1 => match cfg.board m.id with
      | none => []
      | some b => b.members.flatMap (cfg.placesN me n)
    | _ => (List.range (Config.remoteSquares m.device m.id)).map fun i => (m.device, Config.remoteSquareAt m.device m.id i)

/-- A board as its member `j` sees it. -/
def HoistCfg.levelOf (cfg : HoistCfg) (b : Board) (j : Nat) : Level :=
  { level := cfg.level b.id, split := b.split, reduceRoot := b.reduceRoot, reduceRemote := b.reduceRemote, me := j
    members := b.members.map (cfg.placesN cfg.device.id (boardDepth + 1)) }

/-- The member of a board that a local square lies under. -/
def HoistCfg.memberOf (cfg : HoistCfg) (b : Board) (sq : Nat) : Option Nat := b.members.findIdx? fun m => (cfg.memberLeaves m).contains sq

/-- The levels above a member square of a command, outermost first: those of the device that sent it, then the local ones. -/
def State.levelsOf (s : State) (d : Cmd) (sq : Nat) : List Level :=
  d.above ++ (s.cfg.pathN boardDepth d.board sq).map fun b => s.cfg.levelOf b ((s.cfg.memberOf b sq).getD 0)

/-- The level that LEVEL names for a square: the innermost one of that level or above (assumption 39). -/
def State.levelAt (s : State) (d : Cmd) (sq level : Nat) : Option Level :=
  ((s.levelsOf d sq).filter fun l => decide (level ≤ l.level)).getLast?

/-- The board command that a command belongs to: its device and its number there. -/
def State.origin (s : State) (d : Cmd) : Nat × Nat := d.origin.getD (s.deviceId, d.id)

/-- The member square of this device that works for the same board command on a logical square. -/
def State.memberAt (s : State) (d : Cmd) (sq : Nat) : Option MemberRun :=
  s.sched.cmds.findSome? fun c => if s.origin c.2 = s.origin d then c.2.members.find? fun m => m.sq == sq else none

/-- The other devices' members of a level: those of another device under it, one for each remote board or device (assumption 112). -/
def State.remoteCount (s : State) (l : Level) : Nat := (l.members.filter fun x => x.any fun e => e.1 != s.deviceId).length

/-- The member squares of this device under a level. -/
def State.localUnder (s : State) (d : Cmd) (l : Level) : List MemberRun :=
  (l.members.flatten.filter fun e => e.1 == s.deviceId).filterMap fun e => s.memberAt d e.2

/-- The boards that a board reaches through local members, itself among them. -/
def HoistCfg.treeN (cfg : HoistCfg) : Nat → Nat → List Nat
  | 0, id => [id]
  | n + 1, id => match cfg.board id with
    | none => [id]
    | some b => id :: b.members.flatMap fun m => if m.kind = 1 then cfg.treeN n m.id else []

/-- A board of the local tree has a remote member. -/
def HoistCfg.spansDevices (cfg : HoistCfg) (id : Nat) : Bool :=
  (cfg.treeN boardDepth id).any fun i => match cfg.board i with
    | some b => b.members.any (·.kind == 2)
    | none => false

-- ───────────────────────── splitting (R73)

/-- Units of each member before the remainder: `floor(U × c / C)`. -/
def floorUnits (u c : Nat) (l : List Nat) : List Nat := l.map fun x => u * x / max c 1

/-- One more unit for each of the lowest `r` members. -/
def addRemainder (r : Nat) (l : List Nat) : List Nat := ((List.range l.length).zip l).map fun p => if p.1 < r then p.2 + 1 else p.2

/-- Ranges [base, end) in elements from units, within `[base0, base0 + x)`. -/
def rangesFrom (u x base0 : Nat) : Nat → List Nat → List (Nat × Nat)
  | _, [] => []
  | b, n :: t => (base0 + b * u, min ((b + n) * u) x - min (b * u) x) :: rangesFrom u x base0 (b + n) t

/-- R73: the contiguous range, as (base, length), of each member with the square counts given. -/
def splitRange (unit base0 x : Nat) (counts : List Nat) : List (Nat × Nat) :=
  let u := ceilDiv x unit
  let fl := floorUnits u counts.sum counts
  rangesFrom unit x base0 0 (addRemainder (u - fl.sum) fl)

/-- The ranges of M, N and K that a member works on, and the split whose range its s1 and s2 hold (0 where none has split yet). -/
structure Ranges where
  m    : Nat × Nat
  n    : Nat × Nat
  k    : Nat × Nat
  last : Nat
  root : Bool
  deriving DecidableEq, Repr

/-- A leaf of a board's tree with what R71 gives it at launch: a square, or a remote board with its ranges and the levels above it. -/
structure Leaf where
  remote : Option (Nat × Nat)
  sq     : Nat
  index  : Nat
  base   : Nat
  len    : Nat
  root   : Bool
  ranges : Ranges
  above  : List Level
  deriving DecidableEq, Repr

def Ranges.get (r : Ranges) (split : Nat) : Nat × Nat := match split with
  | 2 => r.n
  | 3 => r.k
  | _ => r.m

def Ranges.set (r : Ranges) (split : Nat) (v : Nat × Nat) : Ranges := match split with
  | 1 => { r with m := v, last := 1 }
  | 2 => { r with n := v, last := 2 }
  | 3 => { r with k := v, last := 3 }
  | _ => r

/-- Unit of a split (R73): 16 elements of M or N, 32 of K. -/
def splitUnit (split : Nat) : Nat := if split = 3 then 32 else 16

/-- Split a board's extents over its members, and theirs over theirs (R73; assumption 40: a range that no level splits is the whole M,
and s1 and s2 hold the innermost split's range). -/
def HoistCfg.spreadN (cfg : HoistCfg) : Nat → Nat → List Level → Ranges → List Leaf
  | 0, _, _, _ => []
  | n + 1, id, up, r => match cfg.board id with
    | none => []
    | some b =>
      let parts := if b.split = 0 then b.members.map fun _ => r.get 0
        else splitRange (splitUnit b.split) (r.get b.split).1 (r.get b.split).2 (b.members.map cfg.memberCount)
      ((List.range b.members.length).zip (b.members.zip parts)).flatMap fun e =>
        let m := e.2.1
        let r' := { (if b.split = 0 then r else r.set b.split e.2.2) with root := r.root && (b.split != 3 || e.1 == b.reduceRoot) }
        let v := r'.get r'.last
        let up' := up ++ [cfg.levelOf b e.1]
        match m.kind with
        | 0 => [{ remote := none, sq := m.id, index := e.1, base := v.1, len := v.2, root := r'.root, ranges := r', above := up' }]
        | 1 => cfg.spreadN n m.id up' r'
        | _ => [{ remote := some (m.device, m.id), sq := 0, index := e.1, base := v.1, len := v.2, root := r'.root, ranges := r', above := up' }]

def HoistCfg.spread (cfg : HoistCfg) (id m n k : Nat) : List Leaf :=
  cfg.spreadN boardDepth id [] { m := (0, m), n := (0, n), k := (0, k), last := 0, root := true }

/-- First HARQ slice of a cell (R219). -/
def firstSlice (id : Nat) : List CellRec → Nat
  | [] => 0
  | c :: t => if c.id = id then 0 else c.units + firstSlice id t

end Sys2Proof.Machine
end

