-- ==== Sys2Proof/Machine/Fetch.lean ====
section
/-! DEFINITION. The sequencer's instruction cache and how a context issues the instruction at its place (R54, R56, R62). -/

namespace Sys2Proof.Machine

/-- Lines of the instruction cache: 64 KiB of 64 bytes (R54). -/
def codeLines : Nat := 1024

def Square.codeLine (q : Square) (slot addr : Nat) : Option CodeLine :=
  q.icache.find? fun l => l.slot == slot && l.addr == addr / 64 * 64

/-- A line belongs to locked code (R56). -/
def Square.lockedLine (q : Square) (l : CodeLine) : Bool :=
  q.locked.any fun e => e.1 == l.slot && decide (e.2.1 ≤ l.addr) && decide (l.addr < e.2.1 + e.2.2)

/-- Room for one more line: a full cache gives up the line that has been there longest and is not locked; which one the spec does not say
(assumption 110). -/
def Square.makeRoom (q : Square) : List CodeLine :=
  if q.icache.length < codeLines then q.icache
  else match q.icache.findIdx? fun l => !q.lockedLine l with
    | some i => q.icache.eraseIdx i
    | none => q.icache

/-- Read a line of code from device memory (R56). -/
def fillCode (p slot addr : Nat) (s : State) : State :=
  let a := addr / 64 * 64
  let lo := readDev a 32 s
  let hi := readDev (a + 32) 32 lo.2
  hi.2.setSquare p { hi.2.square p with
    icache := (hi.2.square p).makeRoom ++ [{ slot, addr := a, bytes := lo.1.1 ++ hi.1.1, poison := [lo.1.2, hi.1.2] }] }

/-- Device address of the instruction at a context's place. -/
def Ctx.codeAt (c : Ctx) : Nat := c.codeAddr + c.pc

/-- Fetch the instruction at a context's place: its line is read at the line's first fetch (R56). -/
def fetchCode (p slot : Nat) (s : State) : State :=
  match (s.square p).codeLine slot (s.ctx p slot).codeAt with
  | some _ => s
  | none => fillCode p slot (s.ctx p slot).codeAt s

/-- The word at a context's place is at hand, or the memory controller serves the fetch of its line (R124, R145, R149). -/
def State.codeServed (s : State) (p slot : Nat) : Bool :=
  let a := (s.ctx p slot).codeAt
  ((s.square p).codeLine slot a).isSome || s.passes p (s.cfg.partOf (s.ctx p slot).burgee) (a / 64 * 64) 64 false

/-- What a fetch finds: the word, and whether its granule is poisoned; none where the line is not held. -/
def State.codeWord (s : State) (p slot : Nat) : Option (Word × Bool) :=
  let a := (s.ctx p slot).codeAt
  ((s.square p).codeLine slot a).map fun l => (BitVec.ofNat 64 (fieldAt l.bytes (a % 64) 8), l.poison.getD (a % 64 / 32) false)

/-- Every line of a context that no locked kernel owns is dropped: a command's code is read at the first fetch of each line after launch
(R56). -/
def dropCode (p slot : Nat) (s : State) : State :=
  let q := s.square p
  s.setSquare p { q with icache := q.icache.filter fun l => l.slot != slot || q.lockedLine l }

/-- Load the whole of a kernel's code (R56): every line of it is read anew. -/
def loadCode (p slot addr len : Nat) (s : State) : State :=
  let q := s.square p
  let s := s.setSquare p { q with icache := q.icache.filter fun l => !(l.slot == slot && decide (addr ≤ l.addr) && decide (l.addr < addr + len)) }
  forAll (List.range (ceilDiv len 64)) (fun i s => fillCode p slot (addr + 64 * i) s) s

/-- An instruction's effect on its context. -/
def Effect.apply (r : CtxRef) (p : Nat) : Effect → Result
  | .done s => .next (advance p r.slot s)
  | .jump t s => .next (s.setCtx p r.slot { s.ctx p r.slot with pc := t })
  | .stall w s => .next (s.setCtx p r.slot { s.ctx p r.slot with wait := w })
  | .fault reason st det s => .next (contextFault p r.slot reason st det s)
  | .ended s => .next s

/-- A board reads the configuration in force: no partial hoist is switching boards while it still waits for its own switch (R48). -/
def State.ownView (s : State) (board : Nat) : Bool :=
  !(s.hoist.switching && (s.hoist.toSwitch.contains board || s.hoist.held.contains board))

/-- What a board's context does, done under the configuration that the board reads (R48). -/
def inView (board : Nat) (f : State → Result) (s : State) : Result :=
  if s.ownView board then f s
  else match f { s with cfg := s.hoist.prior } with
    | .next t => .next { t with cfg := s.cfg }
    | o => o

/-- The board whose command a context runs. -/
def State.boardNo (s : State) (p slot : Nat) : Nat := ((s.cmd (s.ctx p slot).cmd).map (·.board)).getD 0

/-- When a context fault of the same command stopped this member (R79). -/
def State.haltOf (s : State) (p slot : Nat) : Option Nat := (s.cmd (s.ctx p slot).cmd).bind (·.haltAt)

/-- What the fetched word does: a poisoned one faults with POISON (R140), one whose class or opcode is reserved with ILLEGAL (R62); a word that spells
another instruction is not `i`'s. -/
def fetched (i : Instr) (r : CtxRef) (p : Nat) (body : Nat → Ctx → State → Effect) (s : State) : Option Effect :=
  match s.codeWord p r.slot with
  | none => none
  | some (w, poisoned) =>
    if poisoned then some (.fault fPoison noStream (s.ctx p r.slot).codeAt s)
    else if encodeWord i = some w then some (body p (s.ctx p r.slot) s)
    else if (decodeWord r w).isNone then some (illegal s)
    else none

/-- Issue instruction `i` of a context: the context runs, waits for nothing, and its code has a word at its place, which is fetched. A member that a
fault of its command stopped ends here (R79); in the cycle of that fault its own fault still counts (R80). -/
def issue (i : Instr) (r : CtxRef) (p : Nat) (body : Nat → Ctx → State → Effect) (s : State) : Result :=
  let halt := s.haltOf p r.slot
  if halt.isSome && halt != some s.up then .next (cancelMember p r.slot s)
  else match fetched i r p body (fetchCode p r.slot s), halt with
    | none, _ => impossible "the code holds another instruction there"
    | some e, none => e.apply r p
    | some (.fault reason st det s), some _ => .next (contextFault p r.slot reason st det s)
    | some _, some _ => .next (cancelMember p r.slot s)

/-- An instruction of the execute engine (R62). -/
def runInstr (i : Instr) (r : CtxRef) (body : Nat → Ctx → State → Effect) (s : State) : Result :=
  match s.physOf r.sq with
  | none => impossible "no such square"
  | some p =>
    let c := s.ctx p r.slot
    if !c.active || c.wiping || s.pwr.issueStop then impossible "the context does not run"
    else if c.wait != .none then impossible "the context waits"
    else if !s.issueOpen p c.burgee then impossible "the governor paces issue"
    else if c.codeLen ≤ c.pc then impossible "no instruction there"
    else if !s.codeServed p r.slot then impossible "the code line has not arrived"
    else inView (s.boardNo p r.slot) (issue i r p body) s

end Sys2Proof.Machine
end

