-- ==== Sys2Proof/Machine/Cache.lean ====
section
/-! DEFINITION. The sequencer's data cache (R54, R57, R140): 512 lines of 64 bytes shared by the context slots. -/

namespace Sys2Proof.Machine

/-- Lines of the data cache: 32 KiB of 64 bytes (R54). -/
def cacheLines : Nat := 512

def Square.line (q : Square) (slot addr : Nat) : Option CacheLine :=
  q.cache.find? fun l => l.slot == slot && l.addr == addr / 64 * 64

/-- Write a dirty line back (R57, R140, R275): each granule of it under its own poison mark, as one operation (R127). -/
def writeBack (p : Nat) (l : CacheLine) (s : State) : State :=
  let half := fun (i : Nat) (m : Mem) => m.write s.cfg.key (l.addr + 32 * i) ((l.bytes.drop (32 * i)).take 32) (l.poison.getD i false)
  let s := outdate s.cfg.key (spans 65 l.addr 64) (chargeFor (s.ctx p l.slot).burgee l.addr 64 true false s)
  bumpGens l.addr 64 { s with tower := half 1 (half 0 s.tower) }

/-- The memory controllers take every dirty line of a context (R124, R145, R149). -/
def State.linesPass (s : State) (p slot : Nat) : Bool :=
  ((s.square p).cache.filter fun l => l.slot == slot && l.dirty).all fun l => s.passesFor p (s.ctx p slot).burgee l.addr 64 true

/-- The memory controllers serve a line fill: the read of the line, and the write-back of the line that goes. -/
def State.fillPasses (s : State) (p slot addr victim : Nat) : Bool :=
  s.passesFor p (s.ctx p slot).burgee (addr / 64 * 64) 64 false &&
    (decide ((s.square p).cache.length < cacheLines) || match (s.square p).cache[victim % cacheLines]? with
      | some l => !l.dirty || s.passesFor p (s.ctx p l.slot).burgee l.addr 64 true
      | none => true)

/-- Write back every dirty line of a context and keep the lines clean (R57). -/
def writeBackAll (p slot : Nat) (s : State) : State :=
  let q := s.square p
  let s := forAll (q.cache.filter fun l => l.slot == slot && l.dirty) (writeBack p) s
  s.setSquare p { q with cache := q.cache.map fun l => if l.slot == slot then { l with dirty := false } else l }

/-- Invalidate every line of a context (R57). -/
def invalidateLines (p slot : Nat) (s : State) : State :=
  let q := s.square p
  s.setSquare p { q with cache := q.cache.filter (·.slot != slot) }

/-- Fill a line from device memory (R57, R137, R140). A full cache gives up the line at index `victim`, written back if dirty;
which one the spec does not say (assumption 21). -/
def fillLine (p slot addr victim : Nat) (upset : List Upset) (s : State) : State :=
  let a := addr / 64 * 64
  let q := s.square p
  let out := if q.cache.length < cacheLines then none else q.cache[victim % cacheLines]?
  let s := match out with
    | some l => if l.dirty then writeBack p l s else s
    | none => s
  let s := disturbSpan a 64 upset (chargeFor (s.ctx p slot).burgee a 64 false false s)
  let lo := readDev a 32 s
  let hi := readDev (a + 32) 32 lo.2
  let rest := match out with
    | some _ => q.cache.eraseIdx (victim % cacheLines)
    | none => q.cache
  hi.2.setSquare p { hi.2.square p with
    cache := rest ++ [{ slot, addr := a, bytes := lo.1.1 ++ hi.1.1, dirty := false, poison := [lo.1.2, hi.1.2] }] }

/-- The checks of a scalar access, in the order of R69: the burgee's regions, then alignment (R62, R462, R296). -/
def scalarCheck (c : Ctx) (addr n : Nat) (s : State) : Option Nat :=
  if ¬ s.cfg.owns c.burgee addr n then some fRegionBound
  else if addr % n ≠ 0 then some fMisalign
  else none

/-- A scalar load of `n` bytes (R57, R462): a miss waits for the line; a poisoned byte faults with POISON (R140). -/
def loadScalar (p slot : Nat) (c : Ctx) (i : Instr) (sd : BitVec 5) (addr n : Nat) (s : State) : Effect :=
  match scalarCheck c addr n s with
  | some r => .fault r noStream addr s
  | none =>
    match (s.square p).line slot addr with
    | none => .stall (.line i (addr / 64 * 64)) s
    | some l =>
      if l.poison.getD (addr % 64 / 32) false then .fault fPoison noStream addr s
      else .done (s.setCtx p slot (c.setReg sd (BitVec.ofNat 64 (fieldAt l.bytes (addr % 64) n))))

/-- A scalar store of the low `n` bytes of a value (R57, R140, R462). DESIGN CHOICE: one that misses fills the line first, where R57 does not say
whether a store miss allocates (assumption 145). -/
def storeScalar (p slot : Nat) (c : Ctx) (i : Instr) (v : Word) (addr n : Nat) (s : State) : Effect :=
  match scalarCheck c addr n s with
  | some r => .fault r noStream addr s
  | none =>
    match (s.square p).line slot addr with
    | none => .stall (.line i (addr / 64 * 64)) s
    | some l =>
      let l' := { l with bytes := overlay l.bytes (addr % 64) (leBytes n v.toNat), dirty := true }
      let q := s.square p
      .done (s.setSquare p { q with cache := q.cache.map fun x => if x.slot = l.slot ∧ x.addr = l.addr then l' else x })

end Sys2Proof.Machine
end

