-- ==== Sys2Proof/Machine/Settle.lean ====
section
/-! DEFINITION. What lets a waiting context go on when its writes, tiles and fabric operations have ended: END, FENCE and
SIGNALSEM (R57, R67, R118, R166). -/

namespace Sys2Proof.Machine

/-- The context has a write of its streams that has not been acknowledged, toward device memory or anywhere. -/
def State.writesOut (s : State) (p slot : Nat) (dev : Bool) : Bool :=
  ((s.square p).tags.any fun t => t.slot == slot && t.write && !t.dead && (!dev || !t.addrs.isEmpty))

/-- The context has a tile in flight. -/
def State.tilesOut (s : State) (p slot : Nat) : Bool := (s.square p).arr.tiles.any (·.slot == slot)

/-- The context has a fabric operation that has not been answered. -/
def State.fabricOut (s : State) (p slot : Nat) : Bool :=
  s.hub.outs.any fun o => o.psq == p && o.slot == slot && !o.discard && o.kind != 5

/-- Every earlier write of the context is performed (R67): tiles, stream writes and fabric operations. -/
def State.writesDone (s : State) (p slot : Nat) : Bool :=
  !s.writesOut p slot false && !s.tilesOut p slot && !s.fabricOut p slot

/-- What END waits for (R118): every write stream has performed the writes of the granules it has popped, and the array has
finished the context's tiles. -/
def State.endReady (s : State) (p slot : Nat) : Bool := !s.writesOut p slot false && !s.tilesOut p slot

/-- A fence in the hub is over (R166): nothing that its context placed before it is unanswered, in the hub or on the way there.
`sqTag` of a fence is the first tag number given after it. -/
def State.fenceOver (s : State) (f : FabOut) : Bool :=
  !((s.hub.outs.takeWhile (·.id != f.id)).any fun o => o.psq == f.psq && o.slot == f.slot && !o.discard) &&
  !((s.square f.psq).tags.any fun t => t.slot == f.slot && !t.dead && decide (2 ≤ t.kind) && decide (t.id < f.sqTag.getD 0))

/-- Take the fences of a context that are over out of the hub; the count bounds them. -/
def dropFences (p slot : Nat) : Nat → State → State
  | 0, s => s
  | n + 1, s => match s.hub.outs.find? fun f => f.kind == 5 && f.psq == p && f.slot == slot && s.fenceOver f with
    | none => s
    | some f => dropFences p slot n { s with hub := { s.hub with outs := s.hub.outs.filter (·.id != f.id) } }

/-- What FENCE waits for by MODE (R67): 0 earlier scratchpad writes, 1 earlier device-memory writes, 2 earlier fabric operations, for
which a fence that marks itself as waited for stands in the hub. -/
def State.fenceReady (s : State) (p slot mode : Nat) : Bool :=
  match mode with
  | 0 => !s.tilesOut p slot
  | 1 => !s.writesOut p slot false
  | _ => !s.hub.outs.any fun f => f.kind == 5 && f.psq == p && f.slot == slot && f.watch

/-- The END of a member takes effect: dirty lines are written back, reads under way are given up and the sub-command ends (R57, R62, R118). -/
def finishEnd (p slot : Nat) (s : State) : State := endMember p slot (endReads p slot (writeBackAll p slot s))

/-- A request of the hub is an operation of a burgee on this device that has not been performed. -/
def State.ownOut (s : State) (o : FabOut) : Bool := o.kind != 5 && !o.sent && o.dests.any (·.1 == s.deviceId)

/-- The stores and atomics of a burgee toward this device that have not been performed (R128): those of squares by square and tag, those of the hub as 180
with their number. -/
def State.writesOf (s : State) (b : Nat) : List (Nat × Nat) :=
  (s.squares.flatMap fun q => (q.2.tags.filter fun t => t.write && (t.kind == 0 || t.kind == 5 || t.dests.contains s.deviceId) &&
      (s.ctx q.1 t.slot).burgee == b).map fun t => (q.1, t.id)) ++
    ((s.hub.outs.filter fun o => o.burgee == b && s.ownOut o).map fun o => (hubRequester, o.id))

/-- One of them has been performed. -/
def State.writeOver (s : State) (e : Nat × Nat) : Bool :=
  if e.1 = hubRequester then !s.hub.outs.any fun o => o.id == e.2 && s.ownOut o else !(s.square e.1).tags.any fun t => t.id == e.2

/-- A local semaphore's operation passes its memory controller; the hub looks at a remote one (R67). -/
def State.signalPasses (s : State) (p slot a : Nat) (add : Bool) : Bool := isFabric a || s.passesFor p (s.ctx p slot).burgee a 8 true add

/-- What a context's END or SIGNALSEM waits for is there. -/
def State.settles (s : State) (p slot : Nat) : Bool := match (s.ctx p slot).wait with
  | .ending => s.endReady p slot && s.linesPass p slot
  | .signal a _ add => s.writesDone p slot && s.linesPass p slot && s.signalPasses p slot a add
  | _ => false

/-- The END or SIGNALSEM of a context needs a bank: a dirty line of it or its semaphore lies there. -/
def State.needsBank (s : State) (p slot bank : Nat) : Bool :=
  (((s.square p).cache.filter fun l => l.slot == slot && l.dirty).any fun l => (s.cfg.banksOf l.addr 64 true false).any (·.1 == bank)) ||
    match (s.ctx p slot).wait with
    | .signal a _ _ => !isFabric a && (s.cfg.banksOf a 8 true false).any (·.1 == bank)
    | _ => false

/-- The local semaphore operation of SIGNALSEM (R67): a write, or an atomic add. -/
def signalLocal (addr : Nat) (v : Word) (add : Bool) (s : State) : State :=
  if add then
    let x := readDev addr 8 s
    writeDev addr (leBytes 8 (BitVec.ofNat 64 (leNat x.1.1) + v).toNat) x.1.2 x.2
  else writeDev addr (leBytes 8 v.toNat) false s

/-- The home of a watched page of a stream: its device and the page there (R128); none for this device. -/
def State.pageHome (s : State) (c : Ctx) (t : Stream) (page : Nat) : Nat × Nat :=
  let a := page * 4096
  if t.endpoint = 1 then (fabDevice a, fabOffset a / 4096)
  else match s.cfg.leaseOf c.burgee a with
    | some (l, o) => (l.peer, (l.offset + o) / 4096)
    | none => (s.deviceId, page)

/-- Let a context that waits for its own writes, fences or watched reads go on if they have ended. -/
def settle (p slot : Nat) (s : State) : State :=
  let s := dropFences p slot s.hub.outs.length s
  let c := s.ctx p slot
  match c.wait with
  | .ending => if s.settles p slot then finishEnd p slot s else s
  | .fence m => if s.fenceReady p slot m then advance p slot (s.setCtx p slot { c with wait := .none }) else s
  | .signal a v add =>
    if s.settles p slot then
      let s := writeBackAll p slot s
      if isFabric a then refillHub (s.setCtx p slot { s.ctx p slot with wait := .signalHub a v add })
      else
        let s := signalLocal a v add (chargeFor c.burgee a 8 true add s)
        advance p slot (s.setCtx p slot { s.ctx p slot with wait := .none })
    else s
  | .gen i sb false _ =>
    let asked := fun (s : State) => s.setCtx p slot { c with wait := .gen i sb true (s.writesOf c.burgee) }
    match c.streams[i]? with
    | some t =>
      if t.watch && (s.square p).tags.any fun g => g.slot == slot && g.stream == i && !g.dead then s
      else
        let homes := (t.watchList.map fun e => s.pageHome c t e.1).filter fun h => h.1 != s.deviceId
        forAll homes (fun h s => sendQuery p slot h.1 h.2 s) (asked s)
    | none => asked s
  | _ => s

end Sys2Proof.Machine
end

