-- ==== Sys2Proof/Machine/Scalar.lean ====
section
/-! DEFINITION. The scalar control class (R461, R462). -/

namespace Sys2Proof.Machine

/-- A scalar instruction: the reserved bits and every selector or immediate without a use hold zero (R461). -/
def scalar (i : Instr) (r : CtxRef) (f : ScalarF) (useSd useSa useSb useImm : Bool) (body : Nat → Ctx → State → Effect) (s : State) : Result :=
  runInstr i r (fun p c s =>
    if f.rsv != 0 || (!useSd && f.sd != 0) || (!useSa && f.sa != 0) || (!useSb && f.sb != 0) || (!useImm && f.imm != 0) then illegal s
    else body p c s) s

/-- The immediate, sign-extended to 64 bits. -/
def immW (f : ScalarF) : Word := f.imm.signExtend 64

/-- Register form of an integer operation (R462). -/
def intReg (i : Instr) (r : CtxRef) (f : ScalarF) (op : Word → Word → Word) (s : State) : Result :=
  scalar i r f true true true false (fun p c s => .done (s.setCtx p r.slot (c.setReg f.sd (op (c.reg f.sa) (c.reg f.sb))))) s

/-- Immediate form of an integer operation (R462). -/
def intImm (i : Instr) (r : CtxRef) (f : ScalarF) (op : Word → Word → Word) (s : State) : Result :=
  scalar i r f true true false true (fun p c s => .done (s.setCtx p r.slot (c.setReg f.sd (op (c.reg f.sa) (immW f))))) s

/-- Shifts take bits [5:0] of the second operand (R462). -/
def shlW (a b : Word) : Word := a <<< (b.toNat % 64)
def shrW (a b : Word) : Word := a >>> (b.toNat % 64)
def sraW (a b : Word) : Word := a.sshiftRight (b.toNat % 64)
def minW (a b : Word) : Word := if b.slt a then b else a
def maxW (a b : Word) : Word := if a.slt b then b else a
def sltW (a b : Word) : Word := if a.slt b then 1 else 0

/-- NOP. -/
def execNop (r : CtxRef) (f : ScalarF) (s : State) : Result := scalar (.nop r f) r f false false false false (fun _ _ s => .done s) s

/-- TRAP faults with USER and IMM32 as detail. -/
def execTrap (r : CtxRef) (f : ScalarF) (s : State) : Result :=
  scalar (.trap r f) r f false false false true (fun _ _ s => .fault fUser noStream f.imm.toNat s) s

/-- The members of a context's command that a LEVEL takes in (R67, R68), on this device. -/
def State.levelMembers (s : State) (c : Ctx) (level : Nat) : List MemberRun :=
  match s.cmd c.cmd with
  | none => []
  | some d => match s.levelAt d c.sqLogical level with
    | some l => s.localUnder d l
    | none => []

/-- Another member waits at a barrier that this context belongs to and has not reached (R67, R80). -/
def State.barrierWaits (s : State) (c : Ctx) : Bool :=
  (List.range 6).any fun i => (s.levelMembers c (i + 1)).any fun m => match (s.ctx m.psq m.slot).wait with
    | .barrier l _ => l == i + 1
    | _ => false

/-- Seed of the stochastic-rounding generator (R109, R329). -/
def seedOf (seed : BitVec 32) (sq base : Nat) : Word :=
  let w := BitVec.ofNat 64 (seed.toNat * 2 ^ 32 + sq % 65536 * 65536 + base % 65536)
  if w = 0 then 1 else w

/-- The boards of this device above a member square, innermost first. -/
def State.boardsOver (s : State) (d : Cmd) (sq : Nat) : List Board := (s.cfg.pathN boardDepth d.board sq).reverse

/-- Whole units of a member's range, a ragged last one included (R73, R76). -/
def MemberRun.units (m : MemberRun) (u : Nat) : Nat := ceilDiv m.len u

/-- The square whose tail gives the units when a member of board `b` that has finished takes some (R76): of the unfinished members of `b` the one with
the highest index, and in it the unfinished square furthest along the range. -/
def State.victim (s : State) (d : Cmd) (b : Board) (sq : Nat) : Option MemberRun :=
  let mine := (s.cfg.memberOf b sq).getD 0
  let open_ := fun (j : Nat) => match b.members[j]? with
    | some m => d.members.filter fun (x : MemberRun) => !x.ended && 0 < x.len && (s.cfg.memberLeaves m).contains x.sq
    | none => []
  match ((List.range b.members.length).filter fun j => j != mine && !(open_ j).isEmpty).getLast? with
  | none => none
  | some j => (open_ j).foldl (fun best m => match best with
      | none => some m
      | some x => if x.base < m.base then some m else some x) none

/-- Board `b` balances its members when square `sq` has finished (R76): BALANCE 1, BALANCE_OK, SPLIT 1 or 2, no TEMPO, and every square of `sq`'s member
but `sq` itself has ended. The boards below split the same dimension or none, since a unit is one of the dimension that `b` splits (assumption 22). -/
def State.balances (s : State) (d : Cmd) (p slot sq : Nat) (b : Board) : Bool :=
  s.cfg.device.balance == 1 && b.balanceOk && (b.split == 1 || b.split == 2) && !((s.cfg.board d.board).map (·.tempo)).getD false &&
    (match (s.cfg.memberOf b sq).bind fun j => b.members[j]? with
      | some m => d.members.all fun x => x.ended || (x.psq == p && x.slot == slot) || !(s.cfg.memberLeaves m).contains x.sq
      | none => false) &&
    (s.cfg.treeN boardDepth b.id).all fun i => match s.cfg.board i with
      | some x => x.split == 0 || x.split == b.split
      | none => true

/-- The seed at row `i` of a matrix instruction whose `rows` rows are the member's whole range, where a unit of R73 starts there: a board with BALANCE_OK under
BALANCE 1 that splits by M seeds the generator again at each unit (R329; assumption 22). -/
def State.unitSeed (s : State) (c : Ctx) (rows i : Nat) : Option Word :=
  match s.cmd c.cmd with
  | none => none
  | some d =>
    if s.cfg.device.balance = 1 ∧ rows = c.rangeLen ∧ i % 16 = 0 ∧ ((s.boardsOver d c.sqLogical).any fun b => b.balanceOk && b.split == 1) = true ∧
      ((s.cfg.board d.board).map (·.tempo)).getD false = false then some (seedOf s.cfg.device.srSeed c.seedSq (c.rangeBase + i))
    else none

/-- The board at which a finished member takes units, the innermost that balances and has an unfinished member, and the square that gives them. -/
def State.stealAt (s : State) (d : Cmd) (p slot sq : Nat) : Option (Board × MemberRun) :=
  (s.boardsOver d sq).findSome? fun b => if s.balances d p slot sq b then (s.victim d b sq).map fun v => (b, v) else none

/-- A member that finished its range takes `k` whole units from the tail of the unfinished member with the highest index and runs its kernel again over
them (R76, R329; assumption 22). The last unit of a range may be ragged (R73). -/
def steal (p slot k : Nat) (s : State) : Option State :=
  let c := s.ctx p slot
  match s.cmd c.cmd with
  | none => none
  | some d =>
    match s.stealAt d p slot c.sqLogical with
    | none => none
    | some (b, v) =>
      let u := splitUnit b.split
      let left := v.units u - k
      let n := v.len - left * u
      if k = 0 ∨ v.units u < k then none else
      let base := v.base + left * u
      let member := fun (m : MemberRun) =>
        if m.psq = v.psq ∧ m.slot = v.slot then { m with len := left * u }
        else if m.psq = p ∧ m.slot = slot then { m with steals := m.steals + k, base := base, len := n } else m
      let d := { d with rolls := { d.rolls with steals := d.rolls.steals + k }, members := d.members.map member }
      let fresh := fun (t : Stream) => { t with started := decide (t.start = 0), stopped := false, closed := false,
                                                issued := 0, part := 0, moved := 0, indices := [] }
      let c := { c with pc := c.entry, loops := [], calls := [], sr := seedOf s.cfg.device.srSeed v.sq base,
                        streams := c.streams.map fresh, seedSq := v.sq, rangeBase := base, rangeLen := n }
      some ((s.setCmd c.cmd d).setCtx p slot ((c.setReg 1 (BitVec.ofNat 64 base)).setReg 2 (BitVec.ofNat 64 n)))

/-- END (R62, R80, R118): a member that others wait for at a barrier faults; one that may still balance takes units; otherwise
the sub-command ends once its write streams and tiles have ended. `units` is how many units the square takes, where R76 lets it
take some. -/
def execEndK (r : CtxRef) (f : ScalarF) (units : Nat) (s : State) : Result :=
  scalar (.endK r f units) r f false false false false (fun p c s =>
    if s.barrierWaits c then .fault fBarrier noStream 0 s
    else match (if units = 0 then none else steal p r.slot units s) with
      | some s => .ended s
      | none => if s.endReady p r.slot && s.linesPass p r.slot then .ended (finishEnd p r.slot s) else .stall .ending s) s

/-- Sum of the command's counts on this device (R336). -/
def Rolls.sum (r : Rolls) : Nat := r.steals + r.combines + r.ties + r.routes + r.falls

/-- RDCSR (R461): SD takes the register that IMM32 selects; `cycle` is the ARITH cycles since launch. -/
def execRdcsr (r : CtxRef) (f : ScalarF) (cycle : BitVec 64) (s : State) : Result :=
  scalar (.rdcsr r f cycle) r f true false false true (fun p c s =>
    let w := fun (v : Word) => Effect.done (s.setCtx p r.slot (c.setReg f.sd v))
    match f.imm.toNat with
    | 0 => w (BitVec.ofNat 64 s.stamp)
    | 1 => w cycle
    | 2 => w (BitVec.ofNat 64 c.sqLogical)
    | 3 => w (BitVec.ofNat 64 r.slot)
    | 4 => w (BitVec.ofNat 64 (((s.cmd c.cmd).map (·.rolls.sum)).getD 0))
    | _ => illegal s) s

/-- LIL writes IMM32 to bits [31:0] of SD. -/
def execLil (r : CtxRef) (f : ScalarF) (s : State) : Result :=
  scalar (.lil r f) r f true false false true (fun p c s =>
    .done (s.setCtx p r.slot (c.setReg f.sd ((c.reg f.sd).extractLsb' 32 32 ++ f.imm)))) s

/-- LIH writes IMM32 to bits [63:32] of SD. -/
def execLih (r : CtxRef) (f : ScalarF) (s : State) : Result :=
  scalar (.lih r f) r f true false false true (fun p c s =>
    .done (s.setCtx p r.slot (c.setReg f.sd (f.imm ++ (c.reg f.sd).extractLsb' 0 32)))) s

/-- LOOP (R462): s[SA] iterations of the IMM32 instructions that follow; a count of zero skips them; a fifth level faults with
STACK. A body length of zero is outside the range from 1 (assumption 23). -/
def execLoop (r : CtxRef) (f : ScalarF) (s : State) : Result :=
  scalar (.loop r f) r f false true false true (fun p c s =>
    let stop := c.pc + 8 + 8 * f.imm.toNat
    if f.imm = 0 then illegal s
    else if 4 ≤ c.loops.length then .fault fStack noStream 0 s
    else if c.reg f.sa = 0 then
      let t := loopNext c.loops stop
      .jump t.1 (s.setCtx p r.slot { c with loops := t.2 })
    else .done (s.setCtx p r.slot { c with loops := { start := c.pc + 8, stop := stop, left := (c.reg f.sa).toNat } :: c.loops })) s

def execAdd (r : CtxRef) (f : ScalarF) (s : State) : Result := intReg (.add r f) r f (· + ·) s
def execSub (r : CtxRef) (f : ScalarF) (s : State) : Result := intReg (.sub r f) r f (· - ·) s
def execMul (r : CtxRef) (f : ScalarF) (s : State) : Result := intReg (.mul r f) r f (· * ·) s
def execAndR (r : CtxRef) (f : ScalarF) (s : State) : Result := intReg (.andR r f) r f (· &&& ·) s
def execOrR (r : CtxRef) (f : ScalarF) (s : State) : Result := intReg (.orR r f) r f (· ||| ·) s
def execXorR (r : CtxRef) (f : ScalarF) (s : State) : Result := intReg (.xorR r f) r f (· ^^^ ·) s
def execShl (r : CtxRef) (f : ScalarF) (s : State) : Result := intReg (.shl r f) r f shlW s
def execShr (r : CtxRef) (f : ScalarF) (s : State) : Result := intReg (.shr r f) r f shrW s
def execSra (r : CtxRef) (f : ScalarF) (s : State) : Result := intReg (.sra r f) r f sraW s
def execMinR (r : CtxRef) (f : ScalarF) (s : State) : Result := intReg (.minR r f) r f minW s
def execMaxR (r : CtxRef) (f : ScalarF) (s : State) : Result := intReg (.maxR r f) r f maxW s
def execSlt (r : CtxRef) (f : ScalarF) (s : State) : Result := intReg (.slt r f) r f sltW s
def execAddi (r : CtxRef) (f : ScalarF) (s : State) : Result := intImm (.addi r f) r f (· + ·) s
def execSubi (r : CtxRef) (f : ScalarF) (s : State) : Result := intImm (.subi r f) r f (· - ·) s
def execMuli (r : CtxRef) (f : ScalarF) (s : State) : Result := intImm (.muli r f) r f (· * ·) s
def execAndi (r : CtxRef) (f : ScalarF) (s : State) : Result := intImm (.andi r f) r f (· &&& ·) s
def execOri (r : CtxRef) (f : ScalarF) (s : State) : Result := intImm (.ori r f) r f (· ||| ·) s
def execXori (r : CtxRef) (f : ScalarF) (s : State) : Result := intImm (.xori r f) r f (· ^^^ ·) s
def execShli (r : CtxRef) (f : ScalarF) (s : State) : Result := intImm (.shli r f) r f shlW s
def execShri (r : CtxRef) (f : ScalarF) (s : State) : Result := intImm (.shri r f) r f shrW s
def execSrai (r : CtxRef) (f : ScalarF) (s : State) : Result := intImm (.srai r f) r f sraW s
def execMini (r : CtxRef) (f : ScalarF) (s : State) : Result := intImm (.mini r f) r f minW s
def execMaxi (r : CtxRef) (f : ScalarF) (s : State) : Result := intImm (.maxi r f) r f maxW s
def execSlti (r : CtxRef) (f : ScalarF) (s : State) : Result := intImm (.slti r f) r f sltW s

/-- Address of a scalar memory instruction (R462). -/
def scalarAddr (c : Ctx) (f : ScalarF) : Nat := (c.reg f.sa + (immW f)).toNat

/-- A load instruction of `n` bytes. Every scalar memory instruction is open to time (R330). -/
def loadInstr (i : Instr) (r : CtxRef) (f : ScalarF) (n : Nat) (s : State) : Result :=
  scalar i r f true true false true (fun p c s =>
    loadScalar p r.slot c i f.sd (scalarAddr c f) n (openToTime p r.slot s)) s

/-- A store instruction of `n` bytes. -/
def storeInstr (i : Instr) (r : CtxRef) (f : ScalarF) (n : Nat) (s : State) : Result :=
  scalar i r f false true true true (fun p c s =>
    storeScalar p r.slot c i (c.reg f.sb) (scalarAddr c f) n (openToTime p r.slot s)) s

def execLd8 (r : CtxRef) (f : ScalarF) (s : State) : Result := loadInstr (.ld8 r f) r f 1 s
def execLd16 (r : CtxRef) (f : ScalarF) (s : State) : Result := loadInstr (.ld16 r f) r f 2 s
def execLd32 (r : CtxRef) (f : ScalarF) (s : State) : Result := loadInstr (.ld32 r f) r f 4 s
def execLd64 (r : CtxRef) (f : ScalarF) (s : State) : Result := loadInstr (.ld64 r f) r f 8 s
def execSt8 (r : CtxRef) (f : ScalarF) (s : State) : Result := storeInstr (.st8 r f) r f 1 s
def execSt16 (r : CtxRef) (f : ScalarF) (s : State) : Result := storeInstr (.st16 r f) r f 2 s
def execSt32 (r : CtxRef) (f : ScalarF) (s : State) : Result := storeInstr (.st32 r f) r f 4 s
def execSt64 (r : CtxRef) (f : ScalarF) (s : State) : Result := storeInstr (.st64 r f) r f 8 s

/-- The load or store that waits for a line, run again once the line is there. -/
def retryLine (i : Instr) (s : State) : Result :=
  match i with
  | .ld8 r f => execLd8 r f s
  | .ld16 r f => execLd16 r f s
  | .ld32 r f => execLd32 r f s
  | .ld64 r f => execLd64 r f s
  | .st8 r f => execSt8 r f s
  | .st16 r f => execSt16 r f s
  | .st32 r f => execSt32 r f s
  | .st64 r f => execSt64 r f s
  | _ => impossible "no access waits for a line"

/-- DATA_CACHE_LINE_FILL (R57, R140): the line that a context waits for arrives and its access completes. -/
def execDataCacheLineFill (r : CtxRef) (victim : Nat) (upset : List Upset) (s : State) : Result :=
  match s.physOf r.sq with
  | none => impossible "no such square"
  | some p =>
    let c := s.ctx p r.slot
    match c.wait with
    | .line i addr => whenServed (s.fillPasses p r.slot addr victim) (fun s =>
        retryLine i (fillLine p r.slot addr victim upset (s.setCtx p r.slot { c with wait := .none }))) s
    | _ => impossible "no line is awaited"

/-- A branch target (R462): the byte offset of the instruction plus IMM32. IMM32[2:0] must be zero. -/
def branchTarget (c : Ctx) (f : ScalarF) : Option Nat :=
  let t : Int := c.pc + f.imm.toInt
  if t < 0 ∨ (c.codeLen : Int) ≤ t then none else some t.toNat

/-- Go to the branch target, or fault with ILLEGAL where it lies outside the code. -/
def goTo (c : Ctx) (f : ScalarF) (s : State) : Effect :=
  match branchTarget c f with
  | some t => .jump t s
  | none => illegal s

/-- A conditional branch (R462). -/
def branch (i : Instr) (r : CtxRef) (f : ScalarF) (cond : Word → Word → Bool) (s : State) : Result :=
  scalar i r f false true true true (fun _ c s =>
    if f.imm.toNat % 8 ≠ 0 then illegal s
    else if cond (c.reg f.sa) (c.reg f.sb) then goTo c f s else .done s) s

def execBeq (r : CtxRef) (f : ScalarF) (s : State) : Result := branch (.beq r f) r f (· == ·) s
def execBne (r : CtxRef) (f : ScalarF) (s : State) : Result := branch (.bne r f) r f (· != ·) s
def execBlt (r : CtxRef) (f : ScalarF) (s : State) : Result := branch (.blt r f) r f (fun a b => a.slt b) s
def execBge (r : CtxRef) (f : ScalarF) (s : State) : Result := branch (.bge r f) r f (fun a b => !a.slt b) s

/-- J (R462). -/
def execJump (r : CtxRef) (f : ScalarF) (s : State) : Result :=
  scalar (.jump r f) r f false false false true (fun _ c s => if f.imm.toNat % 8 ≠ 0 then illegal s else goTo c f s) s

/-- CALL pushes the offset of the following instruction; the call stack holds 16 entries (R62, R69). -/
def execCall (r : CtxRef) (f : ScalarF) (s : State) : Result :=
  scalar (.call r f) r f false false false true (fun p c s =>
    if f.imm.toNat % 8 ≠ 0 then illegal s
    else if (branchTarget c f).isNone then illegal s
    else if 16 ≤ c.calls.length then .fault fStack noStream 0 s
    else goTo c f (s.setCtx p r.slot { c with calls := (c.pc + 8) :: c.calls })) s

/-- RET pops an offset and continues there (R462). -/
def execRet (r : CtxRef) (f : ScalarF) (s : State) : Result :=
  scalar (.ret r f) r f false false false false (fun p c s =>
    match c.calls with
    | [] => .fault fStack noStream 0 s
    | t :: rest => if c.codeLen ≤ t then illegal s else .jump t (s.setCtx p r.slot { c with calls := rest })) s

end Sys2Proof.Machine
end

