-- ==== Sys2Proof/Machine/Operands.lean ====
section
/-! DEFINITION. Operand forms of the execute engine: queues (R63, R64), vector selects (R65), share spans (R59). -/

namespace Sys2Proof.Machine

/-- What an operand gives: a value with the context it leaves, or what stops the instruction. -/
inductive Got (α : Type) where
  | ok (v : α) (c : Ctx)
  | stall
  | fault (reason stream detail : Nat)

/-- Queue `q` is the index queue of a stream: naming it is ILLEGAL (R117). -/
def Ctx.indexQueue (c : Ctx) (q : Nat) : Bool := c.streams.any fun t => t.indexed && t.indexQ == q

/-- A stream that starts at the first instruction that waits on or pops its queue starts now (R115). -/
def Ctx.touch (c : Ctx) (q : Nat) : Ctx :=
  { c with streams := c.streams.map fun t => if t.start = 2 ∧ t.queue = q then { t with started := true } else t }

/-- Granules that lie in a queue. -/
def Ctx.occupancy (c : Ctx) (q : Nat) : Nat := (c.queue q).length

/-- Take the values of entries: poisoned ones fault the consumer (R64, R137). -/
def entryValues (l : List QEntry) : List (BitVec 256 × Bool) := l.map fun e => Code.value e.g

/-- Pop `n` granules of an inbound queue (R64): too few on an ended queue is QUEUE_END, too few otherwise a stall, a poisoned one
POISON. -/
def Ctx.pop (c : Ctx) (q n : Nat) : Got (List (BitVec 256)) :=
  let l := c.queue q
  if l.length < n then (if c.ended q then .fault fQueueEnd noStream 0 else .stall)
  else
    let es := l.take n
    if (entryValues es).any (·.2) then .fault fPoison (((es.find? fun e => (Code.value e.g).2).map (·.stream)).getD noStream) 0
    else .ok ((entryValues es).map (·.1)) ((c.setQueue q (l.drop n)).countUsed es)

/-- Read the first `n` granules of an inbound queue without popping them (R65). -/
def Ctx.head (c : Ctx) (q n : Nat) : Got (List (BitVec 256)) :=
  let l := c.queue q
  if l.length < n then (if c.ended q then .fault fQueueEnd noStream 0 else .stall)
  else
    let es := l.take n
    if (entryValues es).any (·.2) then .fault fPoison (((es.find? fun e => (Code.value e.g).2).map (·.stream)).getD noStream) 0
    else .ok ((entryValues es).map (·.1)) c

/-- Push clean granules onto an outbound queue. -/
def Ctx.push (c : Ctx) (q : Nat) (l : List (BitVec 256)) : Ctx :=
  c.setQueue q (c.queue q ++ l.map fun v => { g := Code.clean v, last := false, stream := 0 })

/-- A vector register's value from 16 granules, in ascending order. -/
def vregOf (l : List (BitVec 256)) : VReg := BitVec.ofNat 4096 (leNat (l.flatMap granuleBytes))

/-- The 16 granules of a vector register's value. -/
def granulesOf (v : VReg) : List (BitVec 256) := (List.range 16).map fun i => v.extractLsb' (256 * i) 256

/-- Bits per lane of a vector format (R65): 0 BF16, 1 FP16, 2 FP32, 3 INT32, 4 INT16, 5 E4M3, 6 E5M2, 7 INT8. -/
def laneBits (fmt : Nat) : Nat := match fmt with
  | 2 | 3 => 32
  | 5 | 6 | 7 => 8
  | _ => 16

/-- Lanes of a format: 128 of 32 bits, 256 otherwise (R65). -/
def laneCount (fmt : Nat) : Nat := if laneBits fmt = 32 then 128 else 256

/-- A lane's bits. -/
def lane (fmt : Nat) (v : VReg) (i : Nat) : Nat := (v.extractLsb' (laneBits fmt * i) (laneBits fmt)).toNat

/-- A register from its lanes, lane 0 lowest; what they do not reach is zero. -/
def ofLanes (w : Nat) (l : List Nat) : VReg := BitVec.ofNat 4096 (l.foldr (fun x a => x % 2 ^ w + a * 2 ^ w) 0)

/-- A source select that R65 reserves. -/
def badSource (sel : BitVec 6) : Bool := decide (50 ≤ sel.toNat)

/-- A destination select that R65 reserves. -/
def badDest (sel : BitVec 6) : Bool := let n := sel.toNat; decide (40 ≤ n) && n != 48

/-- The queue that a source select pops or reads, if any. -/
def sourceQueue (sel : BitVec 6) : Option Nat :=
  let n := sel.toNat
  if 32 ≤ n ∧ n < 48 then some (n % 8) else none

/-- Read a source select (R65) of an instruction with format `fmt`. -/
def Ctx.source (c : Ctx) (sel : BitVec 6) (sreg : BitVec 5) (fmt : Nat) : Got VReg :=
  let n := sel.toNat
  if n < 32 then .ok (c.vreg n) c
  else if n < 48 then
    let q := n % 8
    let c := c.touch q
    match (if n < 40 then c.pop q 16 else c.head q 16) with
    | .ok l c => .ok (vregOf l) c
    | .stall => .stall
    | .fault r t d => .fault r t d
  else if n = 48 then .ok 0 c
  else .ok (ofLanes (laneBits fmt) (List.replicate (laneCount fmt) ((c.reg sreg).toNat % 2 ^ laneBits fmt))) c

/-- Queues that the source selects name must be inbound and no index queue, a pushed one outbound and no index queue (R64,
R117). -/
def Ctx.queuesLegal (c : Ctx) (sources : List (BitVec 6)) (dest : Option (BitVec 6)) : Bool :=
  sources.all (fun x => match sourceQueue x with
    | some q => !c.outbound q && !c.indexQueue q
    | none => true) &&
  match dest with
  | some x => if 32 ≤ x.toNat ∧ x.toNat < 40 then c.outbound (x.toNat % 8) && !c.indexQueue (x.toNat % 8) else true
  | none => true

/-- The destination can take a result now: a pushed queue needs 16 free entries (R64). -/
def Ctx.destReady (c : Ctx) (sel : BitVec 6) : Bool :=
  if 32 ≤ sel.toNat ∧ sel.toNat < 40 then decide (16 ≤ c.space (sel.toNat % 8)) else true

/-- The streams that start where an instruction waits on its destination queue start (R115). -/
def Ctx.touchDest (c : Ctx) (sel : BitVec 6) : Ctx := if 32 ≤ sel.toNat ∧ sel.toNat < 40 then c.touch (sel.toNat % 8) else c

/-- What a masked-off lane of a destination keeps: the register's lane, or zero bits in a pushed granule (R65). -/
def Ctx.destOld (c : Ctx) (sel : BitVec 6) : VReg := if sel.toNat < 32 then c.vreg sel.toNat else 0

/-- Write a result to a destination select (R65). -/
def Ctx.writeDest (c : Ctx) (sel : BitVec 6) (v : VReg) : Ctx :=
  let n := sel.toNat
  if n < 32 then { c with vregs := Assoc.set c.vregs n v }
  else if n < 40 then c.push (n % 8) (granulesOf v)
  else c

/-- Write a predicate register; p0 stays all ones (R54). -/
def Ctx.setPred (c : Ctx) (p : Nat) (v : PReg) : Ctx := if p = 0 then c else { c with preds := Assoc.set c.preds p v }

/-- A share span of `n` bytes at `a` within the context's share (R59). -/
def Ctx.inShare (c : Ctx) (a n : Nat) : Bool := decide (a + n ≤ c.shareLen)

end Sys2Proof.Machine
end

