-- ==== Sys2Proof/Machine/Vector.lean ====
section
/-! DEFINITION. The vector class (R65, R66). -/

namespace Sys2Proof.Machine

/-- The floating-point format of a vector format code, if it is one. -/
def vecFloat (fmt : Nat) : Option FloatFmt := match fmt with
  | 0 => some fmtBF16
  | 1 => some fmtFP16
  | 2 => some fmtFP32
  | 5 => some fmtE4M3
  | 6 => some fmtE5M2
  | _ => none

/-- A lane as an exact value. -/
def laneVal (fmt b : Nat) : Val := match vecFloat fmt with
  | some f => f.val b
  | none => .ofInt (toSigned (laneBits fmt) b)

/-- Put an exact result into a lane of an arithmetic instruction (R66, R108): encoding and flags. -/
def arithLane (fmt rnd : Nat) (sat : Bool) (g : Nat) (v : Val) : Nat × Nat :=
  match vecFloat fmt with
  | some f => f.convert rnd sat g v
  | none => match v with
    | .fin neg m e => fitInt (laneBits fmt) sat (scaledTo neg m e 0)
    | _ => (0, 0)

/-- The results of a lane-wise instruction over the lanes that the predicate selects, lane 0 first; each converted lane takes a
draw under stochastic rounding (R109). Other lanes keep `old`. -/
def runLanes (mask : Nat → Bool) (old : Nat → Nat) (draws : Bool) (f : Nat → Nat → Nat × Nat) :
    List Nat → Word → Nat → List Nat × Word × Nat
  | [], sr, fl => ([], sr, fl)
  | i :: t, sr, fl =>
    if mask i then
      let sr' := if draws then srNext sr else sr
      let r := f i (srDraw sr')
      let rest := runLanes mask old draws f t sr' (fl ||| r.2)
      (r.1 :: rest.1, rest.2)
    else
      let rest := runLanes mask old draws f t sr fl
      (old i :: rest.1, rest.2)

/-- A vector instruction (R62, R64, R65): the checks on its fields, `srcs` source selects read in order, and `body`, which gives
the value to write, the context and the flags. `imm` says which IMM16 bits have a use, `fmts` which formats it takes. -/
def vector (r : CtxRef) (f : VecF) (i : Instr) (fmts : List Nat) (imm : Nat) (srcs : List (BitVec 6)) (writes : Bool)
    (body : Ctx → List VReg → Option VReg × Ctx × Nat) (s : State) : Result :=
  runInstr i r (fun p c s =>
    if !fmts.contains f.fmt.toNat || f.rnd == 3 || f.imm.toNat &&& (65535 - imm) != 0 || badSource f.va || badSource f.vb ||
        badSource f.vc || badDest f.vd || !c.queuesLegal srcs (if writes then some f.vd else none) then illegal s
    else
      let got := srcs.foldl (fun (a : Got (List VReg)) x => match a with
        | .ok l c => match c.source x f.sreg f.fmt.toNat with
          | .ok v c => .ok (l ++ [v]) c
          | .stall => .stall
          | .fault rr t d => .fault rr t d
        | .stall => .stall
        | .fault rr t d => .fault rr t d) (.ok [] c)
      match got with
      | .stall =>
        -- the streams that start at this instruction have started (R115)
        let c := srcs.foldl (fun c x => match sourceQueue x with
          | some q => c.touch q
          | none => c) c
        .stall (.queue i) (s.setCtx p r.slot c)
      | .fault rr t d => .fault rr t d s
      | .ok l c' =>
        if writes && !c.destReady f.vd then .stall (.queue i) (s.setCtx p r.slot (c.touchDest f.vd))
        else
          let o := body c' l
          let c'' := match o.1 with
            | some v => if writes then o.2.1.writeDest f.vd v else o.2.1
            | none => o.2.1
          .done (raiseFlags c.cmd o.2.2 (s.setCtx p r.slot c''))) s

/-- Float and integer formats of the arithmetic instructions. -/
def arithFmts : List Nat := [0, 1, 2, 3, 4]

/-- The command of a context loses REPLAY_HELD where the condition holds (R328). -/
def replayIf (r : CtxRef) (lost : Bool) (s : State) : State :=
  match s.physOf r.sq with
  | some p => if lost then breakReplay (s.ctx p r.slot).cmd s else s
  | none => s

/-- The predicate selects some lane below `n`: without one, an instruction converts nothing (R65, R328). -/
def State.converts (s : State) (r : CtxRef) (f : VecF) (n : Nat) : Bool :=
  match s.physOf r.sq with
  | some p => (List.range n).any fun j => ((s.ctx p r.slot).pred f.pred.toNat).getLsbD j
  | none => false

/-- The context of an instruction accumulates in long mode (R70). -/
def State.longMode (s : State) (r : CtxRef) : Bool :=
  match s.physOf r.sq with
  | some p => (s.ctx p r.slot).accum == 1
  | none => false

/-- A lane-wise arithmetic instruction on `srcs`: the exact result of each lane is put into the format once. -/
def laneArith (r : CtxRef) (f : VecF) (i : Instr) (srcs : List (BitVec 6)) (op : List Val → Val × Nat) (s : State) : Result :=
  let fmt := f.fmt.toNat
  vector r f i arithFmts 0 srcs true (fun c l =>
    let w := laneBits fmt
    let mask := fun j => (c.pred f.pred.toNat).getLsbD j
    let old := c.destOld f.vd
    let isF := (vecFloat fmt).isSome
    let o := runLanes mask (fun j => lane fmt old j) (isF && f.rnd == 1) (fun j g =>
      let e := op (l.map fun v => laneVal fmt (lane fmt v j))
      let x := arithLane fmt f.rnd.toNat f.sat g e.1
      (x.1, x.2 ||| e.2)) (List.range (laneCount fmt)) c.sr 0
    (some (ofLanes w o.1), { c with sr := o.2.1 }, o.2.2)) (replayIf r ((vecFloat fmt).isSome && f.rnd == 1 && s.converts r f (laneCount fmt)) s)

/-- A lane-wise instruction that moves or picks encodings and rounds nothing. -/
def laneBitsOp (r : CtxRef) (f : VecF) (i : Instr) (fmts : List Nat) (imm : Nat) (srcs : List (BitVec 6))
    (op : Ctx → List VReg → Nat → Nat × Nat) (s : State) : Result :=
  let fmt := f.fmt.toNat
  vector r f i fmts imm srcs true (fun c l =>
    let mask := fun j => (c.pred f.pred.toNat).getLsbD j
    let old := c.destOld f.vd
    let o := runLanes mask (fun j => lane fmt old j) false (fun j _ => op c l j) (List.range (laneCount fmt)) c.sr 0
    (some (ofLanes (laneBits fmt) o.1), c, o.2.2)) s

def two (l : List Val) : Val × Val := (l.getD 0 (.fin false 0 0), l.getD 1 (.fin false 0 0))
def srcOf (l : List VReg) (k : Nat) : VReg := l.getD k 0

/-- VADD, VSUB, VMUL, VFMA (R65, R66, R110). -/
def execVadd (r : CtxRef) (f : VecF) (s : State) : Result :=
  laneArith r f (.vadd r f) [f.va, f.vb] (fun l => (two l).1.add (two l).2) s
def execVsub (r : CtxRef) (f : VecF) (s : State) : Result :=
  laneArith r f (.vsub r f) [f.va, f.vb] (fun l => (two l).1.add (two l).2.neg) s
def execVmul (r : CtxRef) (f : VecF) (s : State) : Result :=
  laneArith r f (.vmul r f) [f.va, f.vb] (fun l => (two l).1.mul (two l).2) s
def execVfma (r : CtxRef) (f : VecF) (s : State) : Result :=
  laneArith r f (.vfma r f) [f.va, f.vb, f.vc] (fun l =>
    let pr := (two l).1.mul (two l).2
    let sm := pr.1.add (l.getD 2 (.fin false 0 0))
    (sm.1, pr.2 ||| sm.2)) s

/-- maximumNumber or minimumNumber of two lanes; integers compare as signed (R65, R66). -/
def pickVal (max : Bool) (a b : Val) : Val := match a, b with
  | .nan, _ => b
  | _, .nan => a
  | _, _ => if max then (if a.below b then b else a) else (if b.below a then b else a)

/-- VMAX, VMIN, VABS, VNEG (R65, R66): as arithmetic results they pass R108's conversion under RND and SAT, and take a draw
(assumption 64). -/
def execVmax (r : CtxRef) (f : VecF) (s : State) : Result :=
  laneArith r f (.vmax r f) [f.va, f.vb] (fun l => (pickVal true (two l).1 (two l).2, 0)) s
def execVmin (r : CtxRef) (f : VecF) (s : State) : Result :=
  laneArith r f (.vmin r f) [f.va, f.vb] (fun l => (pickVal false (two l).1 (two l).2, 0)) s
def execVabs (r : CtxRef) (f : VecF) (s : State) : Result :=
  laneArith r f (.vabs r f) [f.va] (fun l => ((two l).1.abs, 0)) s
def execVneg (r : CtxRef) (f : VecF) (s : State) : Result :=
  laneArith r f (.vneg r f) [f.va] (fun l => ((two l).1.neg, 0)) s

/-- One lane of VCVT: to a floating-point format under RND and SAT, to an integer format always saturating (R66). -/
def cvtLane (src dst rnd : Nat) (sat : Bool) (g b : Nat) : Nat × Nat := match vecFloat dst with
  | some h => h.convert rnd sat g (laneVal src b)
  | none => toInt (laneBits dst) rnd g (laneVal src b)

/-- The source lane that result lane `j` of a VCVT takes, where it takes one (R65). -/
def cvtSource (src dst : Nat) (upper : Bool) (j : Nat) : Option Nat :=
  if laneCount src = laneCount dst then some j
  else if laneCount dst = 128 then some (if upper then 128 + j else j)
  else if j < 128 then some j else none

/-- VCVT (R65, R66): IMM16[2:0] the result format, IMM16[4] the half of a 256-lane source that a 128-lane result takes. Result
lanes without a source lane, and bytes above an 8-bit result, become zero whatever the predicate. -/
def execVcvt (r : CtxRef) (f : VecF) (s : State) : Result :=
  let src := f.fmt.toNat
  let dst := f.imm.toNat % 8
  vector r f (.vcvt r f) [0, 1, 2, 3, 4, 5, 6, 7] 0x17 [f.va] true (fun c l =>
    let old := c.destOld f.vd
    let mask := fun j => (cvtSource src dst (bit f.imm.toNat 4) j).isSome && (c.pred f.pred.toNat).getLsbD j
    let keep := fun j => match cvtSource src dst (bit f.imm.toNat 4) j with
      | some _ => lane dst old j
      | none => 0
    let o := runLanes mask keep (f.rnd == 1) (fun j g =>
      match cvtSource src dst (bit f.imm.toNat 4) j with
      | some k => cvtLane src dst f.rnd.toNat f.sat g (lane src (srcOf l 0) k)
      | none => (0, 0)) (List.range (laneCount dst)) c.sr 0
    (some (ofLanes (laneBits dst) o.1), { c with sr := o.2.1 }, o.2.2)) (replayIf r (f.rnd == 1 && s.converts r f (min (laneCount src) (laneCount dst))) s)

/-- VCMP (R65): a condition on two lanes. A NaN on either side makes only conditions 1 and 6 true. -/
def compareLane (fmt cond a b : Nat) : Bool :=
  let x := laneVal fmt a
  let y := laneVal fmt b
  if x.isNan || y.isNan then cond == 1 || cond == 6
  else
    let lt := x.lt y
    let gt := y.lt x
    match cond with
    | 0 => !lt && !gt
    | 1 => lt || gt
    | 2 => lt
    | 3 => !gt
    | 4 => gt
    | 5 => !lt
    | _ => false

def execVcmp (r : CtxRef) (f : VecF) (s : State) : Result :=
  let fmt := f.fmt.toNat
  let cond := f.imm.toNat % 8
  if cond = 7 then runInstr (.vcmp r f) r (fun _ _ s => illegal s) s else
  vector r f (.vcmp r f) arithFmts 0x77 [f.va, f.vb] false (fun c l =>
    let d := bits f.imm.toNat 6 4
    let old := c.pred d
    let m := c.pred f.pred.toNat
    let bitAt := fun j => if j < laneCount fmt ∧ m.getLsbD j then compareLane fmt cond (lane fmt (srcOf l 0) j) (lane fmt (srcOf l 1) j)
      else old.getLsbD j
    (none, c.setPred d (BitVec.ofNat 256 (((List.range 256).map bitAt).foldr (fun b a => (if b then 1 else 0) + 2 * a) 0)), 0)) s

/-- VSEL (R65): p[PRED] chooses between VA and VB in every lane. -/
def execVsel (r : CtxRef) (f : VecF) (s : State) : Result :=
  let fmt := f.fmt.toNat
  vector r f (.vsel r f) arithFmts 0 [f.va, f.vb] true (fun c l =>
    (some (ofLanes (laneBits fmt) ((List.range (laneCount fmt)).map fun j =>
      lane fmt (srcOf l (if (c.pred f.pred.toNat).getLsbD j then 0 else 1)) j)), c, 0)) s

/-- A table-based function of one lane (R66): the results that R66 fixes, otherwise the bits of the vector table. -/
def tableLane (ver : BitVec 8) (op fmt : Nat) (g : FloatFmt) (b : Nat) : Nat × Nat :=
  let v := g.val b
  let table := Config.vectorTable ver op fmt b % 2 ^ laneBits fmt
  match v with
  | .nan => (g.cnan, 0)
  | _ =>
    if op = 0x0C then
      if v.isZero then (g.infBits true, 0) else if v.isNeg then (g.cnan, flInvalid) else (table, 0)
    else if op = 0x0D then
      if v.isZero then (g.infBits v.isNeg, 0) else (table, 0)
    else if op = 0x0E then
      if v.isZero then (g.infBits v.isNeg, 0) else if v.isNeg then (g.cnan, flInvalid) else (table, 0)
    else (table, 0)

def tableInstr (r : CtxRef) (f : VecF) (i : Instr) (op : Nat) (s : State) : Result :=
  laneBitsOp r f i [0, 1, 2] 0 [f.va] (fun _ l j =>
    match vecFloat f.fmt.toNat with
    | some g => tableLane s.ident.vtab op f.fmt.toNat g (lane f.fmt.toNat (srcOf l 0) j)
    | none => (0, 0)) s

def execVexp (r : CtxRef) (f : VecF) (s : State) : Result := tableInstr r f (.vexp r f) 0x0B s
def execVlog (r : CtxRef) (f : VecF) (s : State) : Result := tableInstr r f (.vlog r f) 0x0C s
def execVrcp (r : CtxRef) (f : VecF) (s : State) : Result := tableInstr r f (.vrcp r f) 0x0D s
def execVrsq (r : CtxRef) (f : VecF) (s : State) : Result := tableInstr r f (.vrsq r f) 0x0E s
def execVtanh (r : CtxRef) (f : VecF) (s : State) : Result := tableInstr r f (.vtanh r f) 0x0F s
def execVsig (r : CtxRef) (f : VecF) (s : State) : Result := tableInstr r f (.vsig r f) 0x10 s

/-- One round of a pairwise tree: adjacent terms first (R66). -/
def pairUp (f : Val → Val → Val × Nat) : List Val → List Val × Nat
  | a :: b :: t =>
    let r := f a b
    let rest := pairUp f t
    (r.1 :: rest.1, r.2 ||| rest.2)
  | l => (l, 0)

/-- The pairwise tree over `n` rounds. -/
def treeSum (f : Val → Val → Val × Nat) : Nat → List Val → List Val × Nat
  | 0, l => (l, 0)
  | n + 1, l =>
    let r := pairUp f l
    let rest := treeSum f n r.1
    (rest.1, r.2 ||| rest.2)

/-- An add rounded to FP32 with RNE (R66, R101). -/
def addFP32 (a b : Val) : Val × Nat :=
  let e := a.add b
  let x := fmtFP32.convert 0 false 0 e.1
  (fmtFP32.val x.1, e.2 ||| x.2)

/-- The sum of VRSUM before its one conversion (R66): main accumulation by the tree, long accumulation in a window. -/
def vrsumExact (c : Ctx) (fmt imm : Nat) (v : VReg) : Val × Nat :=
  let l := (List.range (laneCount fmt)).map fun j => laneVal fmt (lane fmt v j)
  if (vecFloat fmt).isNone then (l.foldl (fun a b => (a.add b).1) (.ofInt 0), 0)
  else if c.accum = 1 then
    let a := l.foldl Acc.enter { wb := toSigned 8 (imm % 256) }
    (a.value, a.windowFlags ||| (if a.pinf && a.ninf then flInvalid else 0))
  else
    let r := treeSum addFP32 8 l
    (r.1.getD 0 (.fin false 0 0), r.2)

/-- VRSUM (R65, R66): lane 0 takes the sum, the other lanes zero, under the predicate. -/
def execVrsum (r : CtxRef) (f : VecF) (s : State) : Result :=
  let fmt := f.fmt.toNat
  vector r f (.vrsum r f) arithFmts 0xFF [f.va] true (fun c l =>
    let e := vrsumExact c fmt f.imm.toNat (srcOf l 0)
    let mask := fun j => (c.pred f.pred.toNat).getLsbD j
    let old := c.destOld f.vd
    let draw := mask 0 && (vecFloat fmt).isSome && f.rnd == 1
    let sr := if draw then srNext c.sr else c.sr
    let x := arithLane fmt f.rnd.toNat f.sat (srDraw sr) e.1
    let res := (List.range (laneCount fmt)).map fun j => if mask j then (if j = 0 then x.1 else 0) else lane fmt old j
    (some (ofLanes (laneBits fmt) res), { c with sr := sr }, if mask 0 then e.2 ||| x.2 else e.2))
    (replayIf r ((vecFloat fmt).isSome && ((f.rnd == 1 && s.converts r f 1) || !s.longMode r)) s)

/-- The largest lane that is not NaN, lowest index first among equals (R66): index and encoding. -/
def largestLane (fmt : Nat) (v : VReg) : Option (Nat × Nat) :=
  (List.range (laneCount fmt)).foldl (fun (best : Option (Nat × Nat)) j =>
    let b := lane fmt v j
    if (laneVal fmt b).isNan then best else
    match best with
    | none => some (j, b)
    | some k => if (laneVal fmt k.2).below (laneVal fmt b) then some (j, b) else best) none

/-- VRMAX (R65, R66): lane 0 takes the largest lane, s[SREG] its index. -/
def execVrmax (r : CtxRef) (f : VecF) (s : State) : Result :=
  let fmt := f.fmt.toNat
  vector r f (.vrmax r f) arithFmts 0 [f.va] true (fun c l =>
    let best := (largestLane fmt (srcOf l 0)).getD (0, ((vecFloat fmt).map (·.cnan)).getD 0)
    let mask := fun j => (c.pred f.pred.toNat).getLsbD j
    let old := c.destOld f.vd
    let res := (List.range (laneCount fmt)).map fun j => if mask j then (if j = 0 then best.2 else 0) else lane fmt old j
    (some (ofLanes (laneBits fmt) res), c.setReg f.sreg (BitVec.ofNat 64 best.1), 0)) s

/-- The source lane of result lane `j` under a VPERM pattern (R65): which source and which lane. -/
def permSource (pat n shift j : Nat) : Nat × Nat := match pat with
  | 0 => (0, n - 1 - j)
  | 1 => (j % 2, j / 2)
  | 2 => (j % 2, n / 2 + j / 2)
  | _ => (0, (j + shift) % n)

def execVperm (r : CtxRef) (f : VecF) (s : State) : Result :=
  let fmt := f.fmt.toNat
  let pat := f.imm.toNat % 4
  laneBitsOp r f (.vperm r f) arithFmts 3 (if pat = 1 ∨ pat = 2 then [f.va, f.vb] else [f.va]) (fun c l j =>
    let k := permSource pat (laneCount fmt) (c.reg f.sreg).toNat j
    (lane fmt (srcOf l k.1) k.2, 0)) s

/-- Address of VLD and VST (R65): s[SREG] + IMM16 × 32. -/
def vecAddr (c : Ctx) (f : VecF) : Nat := (c.reg f.sreg).toNat + f.imm.toNat * 32

/-- The checks of a vector access (R69): share bound, then granule alignment. -/
def shareCheck (c : Ctx) (a n : Nat) : Option Nat :=
  if !c.inShare a n then some fShareBound else if a % 32 ≠ 0 then some fMisalign else none

/-- The fields of VLD and VST that are checked before anything else. -/
def vecMemBad (f : VecF) : Bool :=
  decide (4 < f.fmt.toNat) || f.rnd == 3 || badSource f.va || badSource f.vb || badSource f.vc || badDest f.vd

/-- VLD (R65): 512 bytes of the share; poison faults (R140). -/
def execVld (r : CtxRef) (f : VecF) (s : State) : Result :=
  runInstr (.vld r f) r (fun p c s =>
    let fmt := f.fmt.toNat
    let a := vecAddr c f
    if vecMemBad f || !c.queuesLegal [] (some f.vd) then illegal s
    else match shareCheck c a 512 with
      | some x => .fault x noStream a s
      | none =>
        if !c.destReady f.vd then .stall (.queue (.vld r f)) (s.setCtx p r.slot (c.touchDest f.vd))
        else
          let v := readPad p c.shareBase a 512 s
          if v.2 then .fault fPoison noStream a s
          else
            let old := c.destOld f.vd
            let m := c.pred f.pred.toNat
            let w := BitVec.ofNat 4096 (leNat v.1)
            let res := (List.range (laneCount fmt)).map fun j => if m.getLsbD j then lane fmt w j else lane fmt old j
            .done (s.setCtx p r.slot ((c.markRead a 512).writeDest f.vd (ofLanes (laneBits fmt) res)))) s

/-- VST (R65, R66): the lanes whose predicate bit is set are written; a granule written in part is merged in its bank. -/
def execVst (r : CtxRef) (f : VecF) (s : State) : Result :=
  runInstr (.vst r f) r (fun p c s =>
    let fmt := f.fmt.toNat
    let a := vecAddr c f
    if vecMemBad f || !c.queuesLegal [f.va] none then illegal s
    else match shareCheck c a 512 with
      | some x => .fault x noStream a s
      | none =>
        match c.source f.va f.sreg fmt with
        | .stall => .stall (.queue (.vst r f)) (s.setCtx p r.slot (match sourceQueue f.va with
            | some q => c.touch q
            | none => c))
        | .fault rr t d => .fault rr t d s
        | .ok v c' =>
          let m := c.pred f.pred.toNat
          let k := laneBits fmt / 8
          let n := 32 / k
          -- one granule: whole when every lane of it is selected, otherwise merged (R139)
          let granule := fun (s : State) (i : Nat) =>
            let on := (List.range n).map fun j => m.getLsbD (i * n + j)
            let new := granuleBytes (v.extractLsb' (256 * i) 256)
            if on.all id then writePad p c.shareBase (a + 32 * i) new false s
            else if on.any id then
              let old := Code.value (getPad s p c.shareBase (a + 32 * i))
              let mix := (List.range 32).map fun b => if on.getD (b / k) false then byteAt new b else byteAt (granuleBytes old.1) b
              putPad p c.shareBase (a + 32 * i) (Code.form (bytesGranule mix) old.2) s
            else s
          .done ((List.range 16).foldl granule (s.setCtx p r.slot c'))) s

/-- VSHIFT (R65): INT formats; IMM16[5] left or arithmetic right, IMM16[4:0] the count. -/
def execVshift (r : CtxRef) (f : VecF) (s : State) : Result :=
  let fmt := f.fmt.toNat
  let w := laneBits fmt
  let k := f.imm.toNat % 32
  laneBitsOp r f (.vshift r f) [3, 4] 0x3F [f.va] (fun _ l j =>
    let b := lane fmt (srcOf l 0) j
    (if bit f.imm.toNat 5 then ofSigned w (toSigned w b / (2 ^ k : Nat)) else b * 2 ^ k % 2 ^ w, 0)) s

/-- VLOGIC (R65): INT formats; 0 and, 1 or, 2 xor, 3 and-not. DESIGN CHOICE: and-not inverts VB, where R65 does not say which operand it inverts
(assumption 144). -/
def execVlogic (r : CtxRef) (f : VecF) (s : State) : Result :=
  let fmt := f.fmt.toNat
  laneBitsOp r f (.vlogic r f) [3, 4] 3 [f.va, f.vb] (fun _ l j =>
    let a := lane fmt (srcOf l 0) j
    let b := lane fmt (srcOf l 1) j
    (match f.imm.toNat % 4 with
      | 0 => a &&& b
      | 1 => a ||| b
      | 2 => a ^^^ b
      | _ => a &&& (2 ^ laneBits fmt - 1 - b), 0)) s

end Sys2Proof.Machine
end

