-- ==== Sys2Proof/Machine/Queue.lean ====
section
/-! DEFINITION. The queue class (R63, R64). -/

namespace Sys2Proof.Machine

/-- A queue instruction: reserved bits hold zero, COUNT is 1 to 64 (assumption 25), the queue is no index queue (R117). DESIGN CHOICE: an SD or SA that
the instruction does not use and that is not zero faults with ILLEGAL, where R63 calls neither reserved (assumption 141). -/
def queueInstr (i : Instr) (r : CtxRef) (f : QueueF) (useSd useSa : Bool) (body : Nat → Ctx → Nat → Nat → State → Effect) (s : State) : Result :=
  runInstr i r (fun p c s =>
    let n := f.count.toNat
    if f.rsv != 0 || (!useSd && f.sd != 0) || (!useSa && f.sa != 0) || n == 0 || decide (64 < n) || c.indexQueue f.q.toNat then illegal s
    else body p c f.q.toNat n s) s

/-- QWAIT (R63, R115): COUNT entries of an inbound queue, or COUNT free places of an outbound one. -/
def execQwait (r : CtxRef) (f : QueueF) (s : State) : Result :=
  queueInstr (.qwait r f) r f false false (fun p c q n s =>
    let c := c.touch q
    let s := s.setCtx p r.slot c
    if c.outbound q then (if n ≤ c.space q then .done s else .stall (.queue (.qwait r f)) s)
    else
      if n ≤ c.occupancy q then .done s
      else if c.ended q then .fault fQueueEnd noStream 0 s else .stall (.queue (.qwait r f)) s) s

/-- QDROP (R63, R64): the entries are discarded, poisoned or not (R130). -/
def execQdrop (r : CtxRef) (f : QueueF) (s : State) : Result :=
  queueInstr (.qdrop r f) r f false false (fun p c q n s =>
    if c.outbound q then illegal s else
    let c := c.touch q
    let l := c.queue q
    if l.length < n then
      (if c.ended q then .fault fQueueEnd noStream 0 s else .stall (.queue (.qdrop r f)) (s.setCtx p r.slot c))
    else .done (s.setCtx p r.slot ((c.setQueue q (l.drop n)).countUnused (l.take n)))) s

/-- QSTAT (R63): occupancy, a LAST entry present, the queue's streams closed. -/
def execQstat (r : CtxRef) (f : QueueF) (s : State) : Result :=
  queueInstr (.qstat r f) r f true false (fun p c q _ s =>
    let v := c.occupancy q + (if (c.queue q).any (·.last) then 128 else 0) + (if c.ended q then 256 else 0)
    .done (s.setCtx p r.slot (c.setReg f.sd (BitVec.ofNat 64 v)))) s

/-- QPUSH (R63): COUNT granules from the share at s[SA] onto an outbound queue. DESIGN CHOICE: an address that is not granule aligned faults with
MISALIGN, where R63 states no alignment (assumption 141). -/
def execQpush (r : CtxRef) (f : QueueF) (s : State) : Result :=
  queueInstr (.qpush r f) r f false true (fun p c q n s =>
    let a := (c.reg f.sa).toNat
    if !c.outbound q then illegal s
    else match shareCheck c a (32 * n) with
      | some x => .fault x noStream a s
      | none =>
        if c.space q < n then .stall (.queue (.qpush r f)) (s.setCtx p r.slot (c.touch q))
        else
          let v := readPad p c.shareBase a (32 * n) s
          if v.2 then .fault fPoison noStream a s
          else .done (s.setCtx p r.slot ((c.markRead a (32 * n)).push q ((chunksOf 32 n v.1).map bytesGranule)))) s

/-- QPOP (R63, R64): COUNT granules of an inbound queue into the share at s[SA], aligned as for QPUSH (assumption 141). -/
def execQpop (r : CtxRef) (f : QueueF) (s : State) : Result :=
  queueInstr (.qpop r f) r f false true (fun p c q n s =>
    let a := (c.reg f.sa).toNat
    if c.outbound q then illegal s
    else match shareCheck c a (32 * n) with
      | some x => .fault x noStream a s
      | none =>
        let c := c.touch q
        match c.pop q n with
        | .stall => .stall (.queue (.qpop r f)) (s.setCtx p r.slot c)
        | .fault rr t d => .fault rr t d s
        | .ok l c => .done (writePad p c.shareBase a (l.flatMap granuleBytes) false (s.setCtx p r.slot c))) s

/-- The queue that a stalled instruction waits on and whether it waits to push (R129). -/
def stallQueue (c : Ctx) (i : Instr) : Option (Nat × Bool) :=
  let vec := fun (f : VecF) =>
    match [f.va, f.vb, f.vc].filterMap sourceQueue |>.find? (fun q => decide (c.occupancy q < 16)) with
    | some q => some (q, false)
    | none => if 32 ≤ f.vd.toNat ∧ f.vd.toNat < 40 then some (f.vd.toNat % 8, true) else none
  match i with
  | .qwait _ f => some (f.q.toNat, c.outbound f.q.toNat)
  | .qdrop _ f | .qpop _ f => some (f.q.toNat, false)
  | .qpush _ f => some (f.q.toNat, true)
  | .vadd _ f | .vsub _ f | .vmul _ f | .vfma _ f | .vmax _ f | .vmin _ f | .vabs _ f | .vneg _ f | .vcvt _ f | .vcmp _ f
  | .vsel _ f | .vexp _ f | .vlog _ f | .vrcp _ f | .vrsq _ f | .vtanh _ f | .vsig _ f | .vrsum _ f | .vrmax _ f | .vperm _ f
  | .vld _ f | .vst _ f | .vshift _ f | .vlogic _ f => vec f
  | _ => none

/-- Count stall cycles to the streams of a queue (R129): EMPTY_STALL on an inbound queue, FULL_STALL on an outbound one. They
go to the stream at work on the queue. -/
def countStall (p slot : Nat) (i : Instr) (cycles : Nat) (s : State) : State :=
  let c := s.ctx p slot
  match stallQueue c i with
  | none => s
  | some (q, full) =>
    match c.atWork q with
    | none => s
    | some k => s.setCtx p slot (c.count k fun n =>
        if full then { n with full := satAdd 64 n.full cycles } else { n with empty := satAdd 64 n.empty cycles })

/-- The instruction that a queue has stalled, run again. -/
def retryQueue (i : Instr) (s : State) : Result :=
  match i with
  | .qwait r f => execQwait r f s
  | .qdrop r f => execQdrop r f s
  | .qpush r f => execQpush r f s
  | .qpop r f => execQpop r f s
  | .vadd r f => execVadd r f s
  | .vsub r f => execVsub r f s
  | .vmul r f => execVmul r f s
  | .vfma r f => execVfma r f s
  | .vmax r f => execVmax r f s
  | .vmin r f => execVmin r f s
  | .vabs r f => execVabs r f s
  | .vneg r f => execVneg r f s
  | .vcvt r f => execVcvt r f s
  | .vcmp r f => execVcmp r f s
  | .vsel r f => execVsel r f s
  | .vexp r f => execVexp r f s
  | .vlog r f => execVlog r f s
  | .vrcp r f => execVrcp r f s
  | .vrsq r f => execVrsq r f s
  | .vtanh r f => execVtanh r f s
  | .vsig r f => execVsig r f s
  | .vrsum r f => execVrsum r f s
  | .vrmax r f => execVrmax r f s
  | .vperm r f => execVperm r f s
  | .vld r f => execVld r f s
  | .vst r f => execVst r f s
  | .vshift r f => execVshift r f s
  | .vlogic r f => execVlogic r f s
  | _ => impossible "no instruction waits on a queue"

/-- QUEUE_STALL_RESUME (R64, R129): what a context waits for on a queue has come; its stall cycles are counted and the
instruction completes. -/
def execQueueStallResume (r : CtxRef) (cycles : Nat) (s : State) : Result :=
  match s.physOf r.sq with
  | none => impossible "no such square"
  | some p =>
    let c := s.ctx p r.slot
    match c.wait with
    | .queue i =>
      match retryQueue i (countStall p r.slot i cycles (s.setCtx p r.slot { c with wait := .none })) with
      | .next t => if (t.ctx p r.slot).wait = .none then .next t else impossible "the queue has not moved"
      | x => x
    | _ => impossible "the context waits on no queue"

end Sys2Proof.Machine
end

