-- ==== Sys2Proof/Machine/Matrix.lean ====
section
/-! DEFINITION. The matrix array: formats and pairs (R85, R86), operand words (R89, R464), MMT, MMP, LOADW and SWAP (R90 to R95),
segments (R97 to R100), accumulation and output conversion (R101 to R112). -/

namespace Sys2Proof.Machine

-- ───────────────────────── shapes, formats, pairs

/-- Depth D of a shape (R83). -/
def shapeDepth (sh : Nat) : Nat := match sh with
  | 1 => 16
  | 2 => 32
  | 3 => 64
  | _ => 128

/-- Width W of a shape (R83). -/
def shapeWidth (sh : Nat) : Nat := 16384 / shapeDepth sh

/-- Segments of a shape (R83): Square has none. -/
def shapeSegs (sh : Nat) : Nat := match sh with
  | 1 => 4
  | 2 => 4
  | 3 => 2
  | _ => 0

/-- Chunk rows of a shape (R83). -/
def chunkRows (sh : Nat) (long : Bool) : Nat := if long then shapeDepth sh else 5 * shapeDepth sh

/-- The shape of a SEG code: 1 Wide, 2 Shallow, 3 Strip (R90). -/
def segShape (seg : Nat) : Nat := match seg with
  | 1 => 3
  | 2 => 2
  | _ => 1

/-- Bits of an element of a format code (R85). -/
def elemBits (f : Nat) : Nat := match f with
  | 4 | 5 => 6
  | 6 | 8 => 4
  | 9 | 10 => 16
  | 11 | 12 | 13 => 32
  | 14 => 64
  | _ => 8

/-- The pair class of two operand formats (R86): none where they form no pair. 1 FP8, 2 MXFP8, 3 MXFP6 and MXFP4, 4 INT8, 5 INT4,
6 BF16, 7 FP16, 8 FP32, 9 complex. -/
def formatClass (f : Nat) : Nat := match f with
  | 0 | 1 => 1
  | 2 | 3 => 2
  | 4 | 5 | 6 => 3
  | 7 => 4
  | 8 => 5
  | 9 => 6
  | 10 => 7
  | 11 => 8
  | 12 => 9
  | _ => 0

def isMx (cls : Nat) : Bool := cls == 2 || cls == 3
def isIntPair (cls : Nat) : Bool := cls == 4 || cls == 5
def isComplexPair (cls : Nat) : Bool := cls == 9

/-- Rows of the stationary block, Dk (R86). -/
def blockDepth (sh cls : Nat) : Nat := match cls with
  | 3 | 5 => 2 * shapeDepth sh
  | 6 | 7 => shapeDepth sh / 2
  | 8 | 9 => shapeDepth sh / 4
  | _ => shapeDepth sh

/-- Columns of the stationary block, Wn, of the whole array or of a segment (R86, R97). -/
def blockWidth (sh cls : Nat) (seg : Bool) : Nat :=
  let w := if seg then shapeWidth sh / max 1 (shapeSegs sh) else shapeWidth sh
  match cls with
  | 6 | 7 => w / 2
  | 8 | 9 => w / 4
  | _ => w

/-- The floating-point format of a matrix format code. -/
def matFloat (f : Nat) : FloatFmt := match f with
  | 1 | 3 => fmtE5M2
  | 4 => fmtE3M2
  | 5 => fmtE2M3
  | 6 => fmtE2M1
  | 9 | 12 => fmtBF16
  | 10 => fmtFP16
  | 11 | 14 => fmtFP32
  | _ => fmtE4M3

-- ───────────────────────── operand words (R89)

/-- The operand word in a scalar register. -/
def opWord (w : Word) : OpWord :=
  let n := w.toNat
  { kind := bits n 63 61, fmt := bits n 60 56, stride := bits n 55 40, scale := bits n 39 24, addr := bits n 22 0 }

/-- Reserved content of an operand word: bit 23, a reserved kind or format, ADDR bits that hold zero, STRIDE on a queue. -/
def opWordBad (w : Word) : Bool :=
  let o := opWord w
  bit w.toNat 23 || decide (3 < o.kind) || decide (0x0E < o.fmt) ||
    (if o.kind = 3 then decide (7 < o.addr) || o.stride != 0
     else if o.kind = 0 then false else decide (o.addr % 32 ≠ 0))

/-- Granules of a row of `n` elements. -/
def rowGranules (fmt n : Nat) : Nat := ceilDiv (n * elemBits fmt) 256

/-- Stride of an operand whose rows have `n` elements, in granules: packed where STRIDE is zero (R89). -/
def OpWord.rowStride (o : OpWord) (n : Nat) : Nat := if o.stride = 0 then rowGranules o.fmt n else o.stride

/-- The extents of an operand in its storage order: (major rows, elements a row). KIND 2 runs column by column (R89). -/
def OpWord.extents (o : OpWord) (rows cols : Nat) : Nat × Nat := if o.kind = 2 then (cols, rows) else (rows, cols)

/-- The end of a share operand (R89), for the bound of R59: elements, and the scale array of an MX format whose blocks run along
`rows` (`kRows`) or along `cols`. -/
def OpWord.shareEnd (o : OpWord) (rows cols : Nat) (kRows : Bool) : Nat :=
  let e := o.extents rows cols
  let main := if e.1 = 0 then o.addr else o.addr + ((e.1 - 1) * o.rowStride e.2 + rowGranules o.fmt e.2) * 32
  if isMx (formatClass o.fmt) then
    let sr := if kRows then ceilDiv rows 32 else rows
    let sc := if kRows then cols else ceilDiv cols 32
    let se := o.extents sr sc
    max main (o.addr + o.scale * 32 + se.1 * ceilDiv se.2 32 * 32)
  else main

/-- What is wrong with an operand of `rows` × `cols` elements: ILLEGAL content, or a share bound. `out` says that the operand
is written. -/
def checkOperand (c : Ctx) (w : Word) (rows cols : Nat) (kRows out optional colMajorOk : Bool) : Option Nat :=
  let o := opWord w
  if opWordBad w then some fIllegal
  else if o.kind = 0 then (if optional then none else some fIllegal)
  else if o.kind = 2 ∧ ¬ colMajorOk then some fIllegal
  else if isMx (formatClass o.fmt) && o.scale == 0 then some fIllegal
  else if !isMx (formatClass o.fmt) && o.scale != 0 then some fIllegal
  else if o.kind = 3 then
    (if c.outbound o.addr != out || c.indexQueue o.addr then some fIllegal else none)
  else
    let e := o.extents rows cols
    if o.stride ≠ 0 ∧ o.stride < rowGranules o.fmt e.2 then some fIllegal
    else if c.shareLen < o.shareEnd rows cols kRows then some fShareBound
    else none

-- ───────────────────────── element access

/-- A `w`-bit field at a bit offset of a byte list. -/
def bitsAt (l : List Byte) (off w : Nat) : Nat := fieldAt l (off / 8) ((off % 8 + w + 7) / 8) / 2 ^ (off % 8) % 2 ^ w

/-- Raw bits of element (i, j) of a share operand, and whether its bytes are poisoned. -/
def shareElem (s : State) (p base : Nat) (o : OpWord) (rows cols i j : Nat) : Nat × Bool :=
  let e := o.extents rows cols
  let mj := if o.kind = 2 then (j, i) else (i, j)
  let start := o.addr + mj.1 * o.rowStride e.2 * 32
  let b := elemBits o.fmt
  let lo := mj.2 * b / 8
  let r := readPad p base (start + lo) ((mj.2 * b % 8 + b + 7) / 8) s
  (leNat r.1 / 2 ^ (mj.2 * b % 8) % 2 ^ b, r.2)

/-- Raw scale code of the block that holds depth `kk` of line `l` (a row of A, a column of B) of a share operand. -/
def shareScale (s : State) (p base : Nat) (o : OpWord) (kTotal lines kk l : Nat) (kMajorFirst : Bool) : Nat × Bool :=
  -- the scale array is a matrix of blocks × lines, stored in the operand's major order
  let kb := kk / 32
  let nb := ceilDiv kTotal 32
  let major := if kMajorFirst then (kb, l, lines) else (l, kb, nb)
  let r := readPad p base (o.addr + o.scale * 32 + major.1 * (ceilDiv major.2.2 32 * 32) + major.2.1) 1 s
  (leNat r.1, r.2)

/-- Granules that a queue carries for a block of `rows` rows of `cols` elements (R464, R89): scales precede the elements they
cover. `kRows` says that the MX blocks run along the rows. -/
def queueGranules (o : OpWord) (rows cols : Nat) (kRows : Bool) : Nat :=
  let main := rows * rowGranules o.fmt cols
  if isMx (formatClass o.fmt) then main + ceilDiv ((if kRows then ceilDiv rows 32 * cols else rows * ceilDiv cols 32)) 32 else main

/-- How many scale granules have travelled before element granule `g` of row `i` of a block (R89; assumption 27): those that hold
the scales of the elements that start in it or before it. -/
def scalesBefore (o : OpWord) (cols : Nat) (kRows : Bool) (i g : Nat) : Nat :=
  if isMx (formatClass o.fmt) then
    let upto := min cols (ceilDiv ((g + 1) * 256) (elemBits o.fmt))
    let count := if kRows then (if i % 32 = 0 then i / 32 * cols + upto else (i / 32 + 1) * cols)
      else i * ceilDiv cols 32 + ceilDiv upto 32
    ceilDiv count 32
  else 0

/-- Part a queue's granules into scale granules and element granules, by how many scale granules precede each element granule. -/
def splitScales {γ : Type} : Nat → List Nat → List γ → List γ × List γ
  | _, [], _ => ([], [])
  | n, k :: t, buf =>
    let r := splitScales (max n k) t (buf.drop (k - n + 1))
    (buf.take (k - n) ++ r.1, (buf.drop (k - n)).take 1 ++ r.2)

/-- The granules of a block from a queue, put in the order of all scale granules and then all element granules. -/
def scalesFirst (o : OpWord) (buf : List (BitVec 256)) (rows cols : Nat) (kRows : Bool) : List (BitVec 256) :=
  let r := splitScales 0 ((List.range rows).flatMap fun i => (List.range (rowGranules o.fmt cols)).map (scalesBefore o cols kRows i)) buf
  r.1 ++ r.2

/-- Raw element (i, j) of a block taken from a queue, its granules put in order by `scalesFirst`. -/
def queueElem (o : OpWord) (buf : List (BitVec 256)) (rows cols i j : Nat) (kRows : Bool) : Nat :=
  let skip := queueGranules o rows cols kRows - rows * rowGranules o.fmt cols
  let row := ((buf.drop (skip + i * rowGranules o.fmt cols)).take (rowGranules o.fmt cols)).flatMap granuleBytes
  bitsAt row (j * elemBits o.fmt) (elemBits o.fmt)

/-- Raw scale of the block at depth `kk`, line `l` of a block taken from a queue: 32 scales to a granule in element order. -/
def queueScale (buf : List (BitVec 256)) (rows cols kk l : Nat) (kRows : Bool) : Nat :=
  let ix := if kRows then kk / 32 * cols + l else l * ceilDiv cols 32 + kk / 32
  let _ := rows
  (((buf.getD (ix / 32) 0).extractLsb' (8 * (ix % 32)) 8)).toNat

-- ───────────────────────── the array's state

def ArrayState.seg (a : ArrayState) (ix : Nat) : SegState := Assoc.get a.segs ix {}
def ArrayState.setSeg (a : ArrayState) (ix : Nat) (g : SegState) : ArrayState := { a with segs := Assoc.set a.segs ix g }

/-- A context holds a segment: its index (R98). -/
def ArrayState.held (a : ArrayState) (slot : Nat) : Option Nat :=
  if a.segCount = 0 then none else (a.segs.find? fun e => e.2.owner == some slot).map (·.1)

/-- Switch the shape (R84): both stationary sets and both bank halves are zero afterwards. -/
def ArrayState.switch (a : ArrayState) (sh : Nat) : ArrayState := { shape := sh, want := none, tiles := a.tiles, half := 0 }

/-- What the array answers to a matrix instruction that names SEG and needs a shape. -/
inductive ArrayGate where
  /-- It may run, in the segment of this index. -/
  | go (ix : Nat) (a : ArrayState)
  | wait (a : ArrayState)
  | illegal

/-- An instruction that waits for another shape asks for it (R84). -/
def ArrayState.ask (a : ArrayState) (sh : Nat) : ArrayState := if sh = a.shape then a else { a with want := some sh }

/-- An MMT is in flight in the columns of a segment: the LOADWs, SWAPs and MMPs that it makes of itself come before those of later instructions (R82,
R95). -/
def ArrayState.mmtIn (a : ArrayState) (ix : Nat) : Bool := a.tiles.any fun o => o.kind == .mmt && o.segIx == ix

/-- Take the array or a segment for a context (R84, R97, R98). -/
def ArrayState.enter (a : ArrayState) (slot seg sh : Nat) : ArrayGate :=
  match a.held slot with
  | some ix =>
    -- a holder names the same SEG (R98)
    if seg = 0 ∨ segShape seg ≠ a.shape then .illegal else .go ix a
  | none =>
    if seg = 0 then
      if a.segCount ≠ 0 ∨ sh ≠ a.shape then .wait (a.ask sh)
      else .go 0 (a.setSeg 0 { a.seg 0 with owner := some slot })
    else if a.segCount ≠ 0 then
      if sh ≠ a.shape then .wait (a.ask sh)
      else match (List.range a.segCount).find? fun i => (a.seg i).owner.isNone with
        | some ix => .go ix (a.setSeg ix { owner := some slot })
        | none => .wait a
    else if !a.tiles.isEmpty ∨ sh ≠ a.shape then .wait (a.ask sh)
    else .go 0 { a with segCount := shapeSegs sh, segs := [(0, { owner := some slot })] }

/-- Take the array or a segment for a LOADW, a SWAP or an MMP, which stands behind an MMT in the same columns (R82, R84, R98). -/
def ArrayState.enterStep (a : ArrayState) (slot seg sh : Nat) : ArrayGate :=
  match a.enter slot seg sh with
  | .go ix ar => if a.mmtIn ix then .wait a else .go ix ar
  | g => g

/-- A holder of a segment names another SEG (R98). -/
def ArrayState.otherSeg (a : ArrayState) (slot seg : Nat) : Bool := (a.held slot).isSome && (seg == 0 || segShape seg != a.shape)

-- ───────────────────────── arithmetic of a tile

/-- FP32 bits of a bank entry in main mode, entered with one rounding (R101). The first term stands alone, so that a sum of −0
terms is −0 (R110; assumption 28). -/
def mainEnter (v : Int) (any : Bool) (t : Val) : Int × Nat :=
  let e := if any then (fmtFP32.val v.toNat).add t else (t, 0)
  let x := fmtFP32.convert 0 false 0 e.1
  ((x.1 : Int), e.2 ||| x.2)

/-- Enter one exact term into the real or imaginary sum of an entry. -/
def Acc.term (a : Acc) (long : Bool) (t : Val) : Acc × Nat :=
  if long then
    let b := a.enter t
    (b, if b.pinf && b.ninf && !(a.pinf && a.ninf) then flInvalid else 0)
  else
    let r := mainEnter a.v a.any t
    ({ a with v := r.1, any := true }, r.2)

/-- The same for the imaginary sum in main mode. -/
def Acc.termIm (a : Acc) (t : Val) : Acc × Nat :=
  let r := mainEnter a.im a.anyIm t
  ({ a with im := r.1, anyIm := true }, r.2)

/-- One operand element: real and imaginary parts of the complex format, else the value and zero. -/
def elemVal (fmt b : Nat) : Val × Val :=
  if fmt = 12 then (fmtBF16.val (b % 65536), fmtBF16.val (b / 65536))
  else if fmt = 14 then (fmtFP32.val (b % 2 ^ 32), fmtFP32.val (b / 2 ^ 32))
  else if fmt = 7 then (.ofInt (toSigned 8 b), .fin false 0 0)
  else if fmt = 8 then (.ofInt (toSigned 4 b), .fin false 0 0)
  else if fmt = 13 then (.ofInt (toSigned 32 b), .fin false 0 0)
  else ((matFloat fmt).val b, .fin false 0 0)

/-- The two entries of an output element: real (or only) and, in long complex mode, imaginary. -/
abbrev AccPair := Acc × Acc

/-- Sum one row of A against one column of the stationary set (R101 to R104). `ae`, `be` give raw elements by depth, `sa`, `sb`
raw scales. -/
def sumColumn (cls fa fb kr : Nat) (long : Bool) (ae be sa sb : Nat → Nat) (acc : AccPair) : AccPair × Nat :=
  if isMx cls then
    (List.range (ceilDiv kr 32)).foldl (fun (st : AccPair × Nat) blk =>
      let ks := (List.range (min 32 (kr - 32 * blk))).map (32 * blk + ·)
      let x := sa (32 * blk)
      let y := sb (32 * blk)
      let t : Val × Nat :=
        if x = 0xFF ∨ y = 0xFF then (.nan, flInvalid)
        else
          let dot := ks.foldl (fun (u : Val × Nat) k =>
            let pr := ((matFloat fa).val (ae k)).mul ((matFloat fb).val (be k))
            let sm := if u.2 = 0xFFFF then pr else u.1.add pr.1
            (sm.1, (if u.2 = 0xFFFF then 0 else u.2) ||| pr.2 ||| sm.2)) (.fin false 0 0, 0xFFFF)
          let sc : Val := .fin false 1 ((x : Int) + y - 254)
          ((dot.1.mul sc).1, if dot.2 = 0xFFFF then 0 else dot.2)
      let r := st.1.1.term long t.1
      ((r.1, st.1.2), st.2 ||| t.2 ||| r.2)) (acc, 0)
  else
    (List.range kr).foldl (fun (st : AccPair × Nat) k =>
      let a := elemVal fa (ae k)
      let b := elemVal fb (be k)
      if isIntPair cls then
        match a.1, b.1 with
        | .fin na ma _, .fin nb mb _ =>
          (({ st.1.1 with v := st.1.1.v + scaledTo (na != nb) (ma * mb) 0 0, any := true }, st.1.2), st.2)
        | _, _ => st
      else if isComplexPair cls then
        let t1 := a.1.mul b.1
        let t2 := a.2.neg.mul b.2
        let t3 := a.1.mul b.2
        let t4 := a.2.mul b.1
        if long then
          let r1 := st.1.1.term true t1.1
          let r2 := r1.1.term true t2.1
          let i1 := st.1.2.term true t3.1
          let i2 := i1.1.term true t4.1
          ((r2.1, i2.1), st.2 ||| t1.2 ||| t2.2 ||| t3.2 ||| t4.2 ||| r1.2 ||| r2.2 ||| i1.2 ||| i2.2)
        else
          let r1 := st.1.1.term false t1.1
          let r2 := r1.1.term false t2.1
          let i1 := r2.1.termIm t3.1
          let i2 := i1.1.termIm t4.1
          ((i2.1, st.1.2), st.2 ||| t1.2 ||| t2.2 ||| t3.2 ||| t4.2 ||| r1.2 ||| r2.2 ||| i1.2 ||| i2.2)
      else
        let t := a.1.mul b.1
        let r := st.1.1.term long t.1
        ((r.1, st.1.2), st.2 ||| t.2 ||| r.2)) (acc, 0)

/-- Bank key of an entry: the imaginary sums of long complex elements lie 512 columns up. -/
def bankKey (row col : Nat) : Nat := row * 2048 + col

/-- An integer sum that leaves INT32, of which the spec says nothing, becomes a free value (assumption 29). -/
def tameInt (cls : Nat) (a : Acc) (s : State) : Acc × State :=
  if isIntPair cls ∧ ¬ (-(2 ^ 31 : Int) ≤ a.v ∧ a.v < 2 ^ 31) then
    let f := drawFree s
    ({ a with v := toSigned 32 f.1 }, f.2)
  else (a, s)

/-- Convert one output element (R102, R107, R108): alpha, beta as FP32 bits, C's raw bits if it is read. The answer is D's raw
bits, the flags and the generator. -/
def convertOut (cls df cf : Nat) (op : MatOp) (acc : AccPair) (craw : Option Nat) (sr : Word) : Nat × Nat × Word :=
  if isIntPair cls then
    let base := acc.1.v
    let sum := match craw with
      | some x => base + toSigned 32 x
      | none => base
    let r := fitInt 32 true sum
    if df = 13 then (r.1, r.2, sr)
    else
      let v := toSigned 32 r.1
      let k := roundBits 0 0 v.natAbs op.shift
      let q := fitInt 8 true (if v < 0 then -(k : Int) else k)
      (q.1, r.2 ||| q.2, sr)
  else
    let al := fmtFP32.val op.alpha
    let be := fmtFP32.val op.beta
    let cv := match craw with
      | some x => elemVal cf x
      | none => (.fin false 0 0, .fin false 0 0)
    let part := fun (sv : Val) (c : Val) (sr : Word) =>
      -- K = 0 leaves beta × C alone, or +0 (R112)
      let none_ := op.kind == .mmt && op.k == 0
      let x := if none_ then ((.fin false 0 0 : Val), 0) else al.mul sv
      let y := match craw with
        | some _ =>
          let t := be.mul c
          let u := if none_ then (t.1, 0) else x.1.add t.1
          (u.1, x.2 ||| t.2 ||| u.2)
        | none => x
      let sr := if op.rnd = 1 then srNext sr else sr
      let o := (matFloat df).convert op.rnd op.sat (srDraw sr) y.1
      (o.1, y.2 ||| o.2, sr)
    let re : Val := if op.long then acc.1.value else fmtFP32.val acc.1.v.toNat
    if isComplexPair cls then
      let im : Val := if op.long then acc.2.value else fmtFP32.val acc.1.im.toNat
      let a := part re cv.1 sr
      let b := part im cv.2 a.2.2
      (a.1 + b.1 * 2 ^ (elemBits df / 2), a.2.1 ||| b.2.1, b.2.2)
    else part re cv.1 sr

-- ───────────────────────── steps of an operation

/-- The pair class of an operation, by its streamed operand. -/
def MatOp.cls (op : MatOp) : Nat := formatClass op.a.fmt

/-- The block an operation has come to: first depth, depth, first column, columns, first row, rows. For an MMP and a LOADW it is
the whole. -/
structure BlockAt where
  k0 : Nat
  kr : Nat
  n0 : Nat
  nc : Nat
  m0 : Nat
  m  : Nat
  first : Bool
  last  : Bool
  deriving DecidableEq, Repr

def MatOp.block (op : MatOp) : BlockAt :=
  match op.kind with
  | .mmt =>
    let dk := blockDepth op.shape op.cls
    let wn := blockWidth op.shape op.cls (op.seg != 0)
    let mc := chunkRows op.shape op.long
    { k0 := op.k0, kr := min dk (op.k - op.k0), n0 := op.n0, nc := min wn (op.n - op.n0), m0 := op.m0, m := min mc (op.m - op.m0)
      first := op.k0 == 0, last := decide (op.k ≤ op.k0 + dk) }
  | _ => { k0 := 0, kr := op.k, n0 := 0, nc := op.n, m0 := 0, m := op.m, first := op.zero, last := op.flush }

/-- C is read at this step: the block flushes, there is a C, and beta is not zero (R107). -/
def MatOp.readsC (op : MatOp) : Bool :=
  op.block.last && op.c.kind != 0 && (if isIntPair op.cls then op.addC else op.beta % 2 ^ 31 != 0)

/-- Granules that the step still takes from queues: B, A, C. -/
def MatOp.needB (op : MatOp) : Nat :=
  if op.kind != .mmp && op.b.kind == 3 then queueGranules op.b op.block.kr op.block.nc true - op.bufB.length else 0
def MatOp.needA (op : MatOp) : Nat :=
  if op.kind != .loadw && op.a.kind == 3 then queueGranules op.a op.block.m op.block.kr false - op.bufA.length else 0
def MatOp.needC (op : MatOp) : Nat :=
  if op.kind != .loadw && op.c.kind == 3 && op.block.last && op.readsC then queueGranules op.c op.block.m op.block.nc false - op.bufC.length else 0

/-- The operation uses a queue: the sequencer waits for it (assumption 30). -/
def MatOp.usesQueue (op : MatOp) : Bool := op.a.kind == 3 || op.b.kind == 3 || op.c.kind == 3 || op.d.kind == 3

/-- The extents of the whole operand that a share operand word names: B, A, then C and D (R89, R92, R95). -/
def MatOp.bRows (op : MatOp) : Nat := op.k
def MatOp.bCols (op : MatOp) : Nat := op.n

/-- Load a stationary set from a block of B (R92): positions that it does not reach take no part. -/
def loadBlock (s : State) (p base : Nat) (op : MatOp) : StatSet × Bool :=
  let blk := op.block
  let o := op.b
  let buf := scalesFirst o op.bufB blk.kr blk.nc true
  let at_ := fun k j => if o.kind = 3 then (queueElem o buf blk.kr blk.nc k j true, false)
    else shareElem s p base o op.bRows op.bCols (blk.k0 + k) (blk.n0 + j)
  let cells := (List.range blk.kr).flatMap fun k => (List.range blk.nc).map fun j => (k * 1024 + j, at_ k j)
  let mx := isMx (formatClass o.fmt)
  let scaleAt := fun kb j => if o.kind = 3 then (queueScale buf blk.kr blk.nc (32 * kb) j true, false)
    else shareScale s p base o op.bRows op.bCols (blk.k0 + 32 * kb) (blk.n0 + j) (o.kind != 2)
  let scales := if mx then (List.range (ceilDiv blk.kr 32)).flatMap fun kb => (List.range blk.nc).map fun j => (kb * 1024 + j, scaleAt kb j) else []
  ({ fmt := o.fmt, loaded := true, kr := blk.kr, nc := blk.nc, elems := cells.map fun c => (c.1, c.2.1), scales := scales.map fun c => (c.1, c.2.1) },
   cells.any (·.2.2) || scales.any (·.2.2))

/-- What one tile gives: the state, the array, the generator, and whether a poisoned granule was read. -/
structure TileOut where
  st     : State
  bank   : List (Nat × Acc)
  sr     : Word
  flags  : Nat
  poison : Bool
  out    : List (BitVec 256)

/-- Sum the rows of A of a block into the bank (R91, R101); rows that start from zero lose every column. Any HI or LO sets its
flag (R111). -/
def sumTile (s : State) (p base : Nat) (op : MatOp) (set : StatSet) (bank : List (Nat × Acc)) : TileOut :=
  let blk := op.block
  let o := op.a
  let kr := set.kr
  let buf := scalesFirst o op.bufA blk.m kr false
  let bank := if blk.first then Assoc.dropRange bank (bankKey op.base 0) (bankKey (op.base + blk.m) 0) else bank
  let elem := fun i k => if o.kind = 3 then (queueElem o buf blk.m kr i k false, false)
    else shareElem s p base o op.m (if op.kind = .mmt then op.k else kr) (blk.m0 + i) (blk.k0 + k)
  let scale := fun i k => if o.kind = 3 then (queueScale buf blk.m kr k i false, false)
    else shareScale s p base o (if op.kind = .mmt then op.k else kr) op.m (blk.k0 + k) (blk.m0 + i) (o.kind == 2)
  let mx := isMx op.cls
  let poison := o.kind != 3 && (List.range blk.m).any fun i =>
    ((List.range kr).any fun k => (elem i k).2) || (mx && (List.range (ceilDiv kr 32)).any fun kb => (scale i (32 * kb)).2)
  (List.range blk.m).foldl (fun (t : TileOut) i =>
    (List.range set.nc).foldl (fun (t : TileOut) j =>
      let row := op.base + i
      let z : Acc := { wb := op.wbase }
      let a : AccPair := (Assoc.get t.bank (bankKey row j) z, Assoc.get t.bank (bankKey row (1024 + j)) z)
      let be := fun k => Assoc.get set.elems (k * 1024 + j) 0
      let sb := fun k => if mx then Assoc.get set.scales (k / 32 * 1024 + j) 0 else 0
      let sa := fun k => if mx then (scale i k).1 else 0
      let r := sumColumn op.cls o.fmt set.fmt kr op.long (fun k => (elem i k).1) be sa sb a
      let f := tameInt op.cls r.1.1 t.st
      let b := Assoc.set t.bank (bankKey row j) f.1
      let b := if isComplexPair op.cls && op.long then Assoc.set b (bankKey row (1024 + j)) r.1.2 else b
      let wf := if op.long then r.1.1.windowFlags ||| r.1.2.windowFlags else 0
      { t with st := f.2, bank := b, flags := t.flags ||| r.2 ||| wf }) t)
    { st := s, bank := bank, sr := 0, flags := 0, poison := poison, out := [] }

/-- Flush the rows of a block (R91, R107): convert by ascending row and column, combine with C, write D. `seeds` gives the generator's seed
at a row where a unit starts (R329). -/
def flushTile (p base : Nat) (op : MatOp) (t : TileOut) (sr : Word) (seeds : Nat → Option Word) : TileOut :=
  let blk := op.block
  let rc := op.readsC
  let total := if op.kind = .mmt then op.n else blk.nc
  let rowsAll := if op.kind = .mmt then op.m else blk.m
  let cElem := fun (s : State) i j => if op.c.kind = 3 then (queueElem op.c op.bufC blk.m blk.nc i j false, false)
    else shareElem s p base op.c rowsAll total (blk.m0 + i) (blk.n0 + j)
  let poison := rc && op.c.kind != 3 && (List.range blk.m).any fun i => (List.range blk.nc).any fun j => (cElem t.st i j).2
  let w := elemBits op.d.fmt
  (List.range blk.m).foldl (fun (t : TileOut) i =>
    let row := (List.range blk.nc).foldl (fun (u : List Nat × Nat × Word) j =>
      let z : Acc := { wb := op.wbase }
      let a : AccPair := (Assoc.get t.bank (bankKey (op.base + i) j) z, Assoc.get t.bank (bankKey (op.base + i) (1024 + j)) z)
      let craw := if rc then some (cElem t.st i j).1 else none
      let o := convertOut op.cls op.d.fmt op.c.fmt op a craw u.2.2
      let wf := if op.long && !isIntPair op.cls then a.1.windowFlags ||| a.2.windowFlags else 0
      (u.1 ++ [o.1], u.2.1 ||| o.2.1 ||| wf, o.2.2)) ([], t.flags, (seeds (blk.m0 + i)).getD t.sr)
    let bytes := leBytes (blk.nc * w / 8) (row.1.foldr (fun x a => x + a * 2 ^ w) 0)
    let t := { t with flags := row.2.1, sr := row.2.2 }
    if op.d.kind = 3 then
      { t with out := t.out ++ (chunksOf 32 (ceilDiv bytes.length 32) (padTo 32 bytes)).map bytesGranule }
    else
      let a := op.d.addr + (blk.m0 + i) * op.d.rowStride total * 32 + blk.n0 * w / 8
      { t with st := writePad p base a bytes false t.st }) { t with sr := sr, poison := t.poison || poison }

/-- Move an MMT on to its next tile (R95): depth first, then columns, then row chunks; `none` when it has done them all. -/
def MatOp.nextTile (op : MatOp) : Option MatOp :=
  let dk := blockDepth op.shape op.cls
  let wn := blockWidth op.shape op.cls (op.seg != 0)
  let mc := chunkRows op.shape op.long
  let op := { op with bufA := [], bufB := [], bufC := [] }
  -- the halves alternate from one output block to the next
  let flip := if op.base = 0 then mc else 0
  if op.k0 + dk < op.k then some { op with k0 := op.k0 + dk }
  else if op.n0 + wn < op.n then some { op with k0 := 0, n0 := op.n0 + wn, base := flip }
  else if op.m0 + mc < op.m then some { op with k0 := 0, n0 := 0, m0 := op.m0 + mc, base := flip }
  else none

/-- Replace or drop the oldest operation of a context in the array. -/
def replaceOp (l : List MatOp) (slot : Nat) (n : Option MatOp) : List MatOp := match l with
  | [] => []
  | o :: t => if o.slot = slot then (match n with
      | some x => x :: t
      | none => t) else o :: replaceOp t slot n

/-- An operation of a context is over: the sequencer goes on where it waited for it, and whatever waits for the array or for the
context's tiles is looked at again. -/
def opOver (p slot : Nat) (holds : Bool) (s : State) : State :=
  let c := s.ctx p slot
  let s := if holds then advance p slot (s.setCtx p slot { c with wait := .none }) else s
  wakeArray p (settle p slot s)

/-- Store a context's oldest operation, or drop it. -/
def putOp (p slot : Nat) (n : Option MatOp) (s : State) : State :=
  let q := s.square p
  s.setSquare p { q with arr := { q.arr with tiles := replaceOp q.arr.tiles slot n } }

/-- Take up to `n` granules from an inbound queue: what was there, whether one is poisoned, whether the queue can give no more. -/
def Ctx.drain (c : Ctx) (q n : Nat) : List (BitVec 256) × Ctx × Bool × Bool :=
  let c := c.touch q
  let es := (c.queue q).take n
  let vs := entryValues es
  (vs.map (·.1), (c.setQueue q ((c.queue q).drop n)).countUsed es, vs.any (·.2), decide (es.length < n) && c.ended q)

/-- The queue that an operation needs granules of now. -/
def MatOp.wants (op : MatOp) : Option Nat :=
  if op.needB ≠ 0 then some op.b.addr else if op.needA ≠ 0 then some op.a.addr else if op.needC ≠ 0 then some op.c.addr else none

/-- The granules that an operation needs of that queue. -/
def MatOp.needs (op : MatOp) : Nat := if op.needB ≠ 0 then op.needB else if op.needA ≠ 0 then op.needA else op.needC

/-- Something in a context waits for granules of a queue: its instruction, or its operation in the array (R129). -/
def State.awaits (s : State) (p slot q : Nat) : Bool :=
  (s.ctx p slot).waitsOn q || match (s.square p).arr.front slot with
    | some op => op.holds && !op.done && op.out.isEmpty && op.wants == some q
    | none => false

/-- Count what an operation of the array has waited for its queues, before it takes or pushes granules (R129). -/
def countWaits (p slot : Nat) (op : MatOp) (s : State) : State :=
  let c := s.ctx p slot
  if !op.out.isEmpty then
    (if c.space op.d.addr = 0 then s else match c.atWork op.d.addr with
      | some i => countFull p slot i s
      | none => s)
  else match op.wants with
  | none => s
  | some q => forAll ((((c.queue q).take op.needs).filter (·.late)).map (·.stream)).eraseDups (countEmpty p slot) s

/-- Let the oldest operation of a context take what its queues hold and push what it has (R115, R464): poison and an ended queue fault
the context. -/
def feedArray (p slot : Nat) (s : State) : State :=
  match (s.square p).arr.front slot with
  | none => s
  | some op =>
    let c := s.ctx p slot
    if !op.holds then s else
    -- output first
    let free := if op.out.isEmpty then 0 else c.space op.d.addr
    let c := if op.out.isEmpty then c else c.push op.d.addr (op.out.take free)
    let c := if free < op.out.length then c.touch op.d.addr else c
    let op := { op with out := op.out.drop free }
    if op.done then
      (if op.out.isEmpty then opOver p slot true (putOp p slot none (s.setCtx p slot c)) else putOp p slot (some op) (s.setCtx p slot c))
    else
      let db := c.drain op.b.addr op.needB
      let x := if op.needB = 0 then (([] : List (BitVec 256)), c, false, false) else db
      let op := { op with bufB := op.bufB ++ x.1 }
      let y := if op.needB ≠ 0 ∨ op.needA = 0 then (([] : List (BitVec 256)), x.2.1, false, false) else x.2.1.drain op.a.addr op.needA
      let op := { op with bufA := op.bufA ++ y.1 }
      let z := if op.needB ≠ 0 ∨ op.needA ≠ 0 ∨ op.needC = 0 then (([] : List (BitVec 256)), y.2.1, false, false) else y.2.1.drain op.c.addr op.needC
      let op := { op with bufC := op.bufC ++ z.1 }
      let s := putOp p slot (some op) (s.setCtx p slot z.2.1)
      if x.2.2.1 || y.2.2.1 || z.2.2.1 then contextFault p slot fPoison noStream 0 s
      else if x.2.2.2 || y.2.2.2 || z.2.2.2 then contextFault p slot fQueueEnd noStream 0 s
      else if op.kind = .loadw ∧ op.needB = 0 then
        let set := loadBlock s p c.shareBase op
        let q := s.square p
        let g := q.arr.seg op.segIx
        let s := s.setSquare p { q with arr := { q.arr with tiles := replaceOp q.arr.tiles slot none, segs := Assoc.set q.arr.segs op.segIx { g with back := set.1 } } }
        opOver p slot true s
      else s

/-- The same for an operation that has been waiting. -/
def refeedArray (p slot : Nat) (s : State) : State := match (s.square p).arr.front slot with
  | some op => feedArray p slot (if op.holds then countWaits p slot op s else s)
  | none => s

/-- Put a new operation into the array: the sequencer waits for it where a queue takes part. -/
def issueOp (p slot : Nat) (op : MatOp) (i : Instr) (a : ArrayState) (s : State) : Effect :=
  let s := s.setSquare p { s.square p with arr := { a with tiles := a.tiles ++ [op] } }
  if op.holds then
    let s := feedArray p slot (s.setCtx p slot { s.ctx p slot with wait := .array i })
    .ended s
  else .done s

-- ───────────────────────── the instructions

/-- The board of a context's command. -/
def State.boardOf (s : State) (c : Ctx) : Option Board := (s.cmd c.cmd).bind fun d => s.cfg.board d.board

/-- SEG is forbidden on a TEMPO board and where the board pins another shape (R93). -/
def segForbidden (b : Option Board) (seg : Nat) : Bool :=
  seg != 0 && match b with
    | some b => b.tempo || (b.shapePin != 0 && b.shapePin != segShape seg)
    | none => false

/-- C and D formats within the pair's accumulator class (R93), where a C and a D are named. -/
def outFormatsOk (cls cf : Nat) (df : Option Nat) (hasC : Bool) : Bool :=
  let d := fun (l : List Nat) => df.all l.contains
  if isIntPair cls then (!hasC || cf == 13) && d [13, 7]
  else if isComplexPair cls then (!hasC || cf == 12 || cf == 14) && d [12, 14]
  else (!hasC || cf == 9 || cf == 10 || cf == 11) && d [0, 1, 9, 10, 11]

/-- Alpha, beta, whether C is added, SHIFT, and whether the word is well formed (R90): register s0 selects 1.0, 1.0 and, for
integer pairs, C added and SHIFT 0. -/
def scaleWord (c : Ctx) (cls : Nat) (sab : BitVec 5) : Nat × Nat × Bool × Nat × Bool :=
  let one := 0x3F800000
  if sab = 0 then (one, one, true, 0, true)
  else
    let w := (c.reg sab).toNat
    if isIntPair cls then (one, one, w % 2 ^ 32 != 0, bits w 37 32, decide (w < 2 ^ 38))
    else (w / 2 ^ 32, w % 2 ^ 32, true, 0, true)

/-- Under a K split a square with s4 zero takes beta as zero (R71, R107). -/
def Ctx.betaOff (c : Ctx) : Bool := c.ksplit && c.reg 4 == 0

/-- The shape of an MMT (R94). -/
def mmtShape (b : Option Board) (policy seg m : Nat) : Nat :=
  if seg ≠ 0 then segShape seg
  else
    let pin := (b.map (·.shapePin)).getD 0
    if pin ≠ 0 then pin
    else if policy ≠ 0 then policy
    else if m ≤ 16 then 1 else if m ≤ 32 then 2 else if m ≤ 64 then 3 else 4

/-- The floating-point pairs of a command under main accumulation break the Replay conditions (R328). -/
def replayMat (c : Ctx) (cls rnd : Nat) (long : Bool) (s : State) : State :=
  if (!isIntPair cls && !long) || (!isIntPair cls && rnd == 1) then breakReplay c.cmd s else s

/-- MMT with K zero (R112): D takes beta × C rounded once, or +0 without C. The whole range is one output block without depth. -/
def execMmt (r : CtxRef) (f : MmtF) (s : State) : Result :=
  runInstr (.mmt r f) r (fun p c s =>
    let i := Instr.mmt r f
    let dim := (c.reg f.sdim).toNat
    let m := bits dim 15 0
    let n := bits dim 31 16
    let k := bits dim 47 32
    let a := opWord (c.reg f.sa)
    let b := opWord (c.reg f.sb)
    let oc := opWord (c.reg f.sc)
    let d := opWord (c.reg f.sd)
    let cls := formatClass a.fmt
    let sw := scaleWord c cls f.sab
    let seg := f.seg.toNat
    let brd := s.boardOf c
    let long := c.accum == 1 && !isIntPair cls
    if f.rsvHi != 0 || f.rsvLo != 0 || f.rnd == 3 || bits dim 63 48 != 0 || cls == 0 || formatClass b.fmt != cls || !sw.2.2.2.2 ||
        segForbidden brd seg || opWordBad (c.reg f.sc) || !outFormatsOk cls oc.fmt (some d.fmt) (oc.kind != 0) || (s.square p).arr.otherSeg r.slot seg then illegal s
    else
      let bad := [checkOperand c (c.reg f.sa) m k false false false true, checkOperand c (c.reg f.sb) k n true false false true,
        checkOperand c (c.reg f.sc) m n false false true false, checkOperand c (c.reg f.sd) m n false true false false].filterMap id
      if bad.contains fIllegal then illegal s
      else if m = 0 ∨ n = 0 then .done s
      else match bad with
      | x :: _ => .fault x noStream 0 s
      | [] =>
        let sh := mmtShape brd s.cfg.device.shapePolicy seg m
        match (s.square p).arr.enter r.slot seg sh with
        | .illegal => illegal s
        | .wait ar => .stall (.array i) (s.setSquare p { s.square p with arr := ar })
        | .go ix ar =>
          let off := c.betaOff
          let op : MatOp := {
            kind := .mmt, slot := r.slot, seg := seg, segIx := ix, shape := sh, a := a, b := b, c := oc, d := d, m := m, n := n, k := k
            m0 := 0, n0 := 0, k0 := 0, base := ar.half * chunkRows sh long, alpha := sw.1, beta := if off then 0 else sw.2.1
            addC := sw.2.2.1 && !off, shift := sw.2.2.2.1, rnd := f.rnd.toNat, sat := f.sat, zero := false, flush := true
            wbase := f.wbase.toInt, long := long, front := {}, bufA := [], bufB := [], bufC := [], out := []
            holds := a.kind == 3 || b.kind == 3 || oc.kind == 3 || d.kind == 3, done := false }
          issueOp p r.slot op i ar (replayMat c cls f.rnd.toNat long s)) s

/-- MMP (R91, R93). Its C, D and SAB words are checked with and without FLUSH; without it D may be none (assumption 65). -/
def execMmp (r : CtxRef) (f : MmpF) (s : State) : Result :=
  runInstr (.mmp r f) r (fun p c s =>
    let i := Instr.mmp r f
    let dim := (c.reg f.srow).toNat
    let m := bits dim 15 0
    let base := bits dim 31 16
    let nw := bits dim 47 32
    let a := opWord (c.reg f.sa)
    let oc := opWord (c.reg f.sc)
    let d := opWord (c.reg f.sd)
    let cls := formatClass a.fmt
    let sw := scaleWord c cls f.sab
    let seg := f.seg.toNat
    let sh := f.shape.toNat
    let brd := s.boardOf c
    let long := c.accum == 1 && !isIntPair cls
    let mc := chunkRows sh long
    if f.rsvHi != 0 || f.rsvLo != 0 || f.rnd == 3 || sh == 0 || decide (4 < sh) || bits dim 63 48 != 0 || cls == 0 || !sw.2.2.2.2 ||
        (seg != 0 && segShape seg != sh) || segForbidden brd seg || m == 0 || decide (mc < m) || nw == 0 ||
        decide (blockWidth sh cls (seg != 0) < nw) || (if base < mc then decide (mc < base + m) else decide (2 * mc < base + m)) ||
        opWordBad (c.reg f.sc) || opWordBad (c.reg f.sd) || (f.flush && d.kind == 0) ||
        !outFormatsOk cls oc.fmt (if d.kind = 0 then none else some d.fmt) (oc.kind != 0) then illegal s
    else
      match (s.square p).arr.enterStep r.slot seg sh with
      | .illegal => illegal s
      | .wait ar => .stall (.array i) (s.setSquare p { s.square p with arr := ar })
      | .go ix ar =>
        let set := (ar.seg ix).front
        let kr := if set.loaded then set.kr else 0
        let bad := ([checkOperand c (c.reg f.sa) m kr false false false true] ++ (if f.flush then
          [checkOperand c (c.reg f.sc) m nw false false true false, checkOperand c (c.reg f.sd) m nw false true false false] else [])).filterMap id
        if set.loaded && formatClass set.fmt != cls then illegal s
        else match bad with
          | x :: _ => if bad.contains fIllegal then illegal s else .fault x noStream 0 s
          | [] =>
            let off := c.betaOff
            let op : MatOp := {
              kind := .mmp, slot := r.slot, seg := seg, segIx := ix, shape := sh, a := a, b := {kind := 0, fmt := 0, stride := 0, scale := 0, addr := 0}
              c := if f.flush then oc else {kind := 0, fmt := 0, stride := 0, scale := 0, addr := 0}
              d := if f.flush then d else {kind := 0, fmt := 0, stride := 0, scale := 0, addr := 0}
              m := m, n := nw, k := kr, m0 := 0, n0 := 0, k0 := 0, base := base, alpha := sw.1, beta := if off then 0 else sw.2.1
              addC := sw.2.2.1 && !off, shift := sw.2.2.2.1, rnd := f.rnd.toNat, sat := f.sat, zero := f.zero, flush := f.flush
              wbase := f.wbase.toInt, long := long, front := { set with kr := kr }, bufA := [], bufB := [], bufC := [], out := []
              holds := a.kind == 3 || (f.flush && (oc.kind == 3 || d.kind == 3)), done := false }
            issueOp p r.slot op i ar (replayMat c cls f.rnd.toNat long s)) s

/-- LOADW (R92): the back set takes a block of B; a poisoned granule faults and leaves the front set untouched (R113). -/
def execLoadw (r : CtxRef) (f : LoadwF) (s : State) : Result :=
  runInstr (.loadw r f) r (fun p c s =>
    let i := Instr.loadw r f
    let w := (c.reg f.skn).toNat
    let kr := bits w 15 0
    let nc := bits w 31 16
    let b := opWord (c.reg f.sb)
    let cls := formatClass b.fmt
    let seg := f.seg.toNat
    let sh := f.shape.toNat
    if f.rsv != 0 || sh == 0 || decide (4 < sh) || bits w 63 32 != 0 || cls == 0 || (seg != 0 && segShape seg != sh) ||
        segForbidden (s.boardOf c) seg || kr == 0 || decide (blockDepth sh cls < kr) || nc == 0 || decide (blockWidth sh cls (seg != 0) < nc) then illegal s
    else match checkOperand c (c.reg f.sb) kr nc true false false true with
      | some x => .fault x noStream 0 s
      | none =>
        match (s.square p).arr.enterStep r.slot seg sh with
        | .illegal => illegal s
        | .wait ar => .stall (.array i) (s.setSquare p { s.square p with arr := ar })
        | .go ix ar =>
          let none_ : OpWord := {kind := 0, fmt := b.fmt, stride := 0, scale := 0, addr := 0}
          let op : MatOp := {
            kind := .loadw, slot := r.slot, seg := seg, segIx := ix, shape := sh, a := none_, b := b, c := none_, d := none_, m := 0, n := nc, k := kr
            m0 := 0, n0 := 0, k0 := 0, base := 0, alpha := 0, beta := 0, addC := false, shift := 0, rnd := 0, sat := false, zero := false
            flush := false, wbase := 0, long := false, front := {}, bufA := [], bufB := [], bufC := [], out := [], holds := true, done := false }
          if b.kind = 3 then issueOp p r.slot op i ar s
          else
            let set := loadBlock s p c.shareBase op
            if set.2 then .fault fPoison noStream b.addr s
            else
              let g := ar.seg ix
              .done ((s.setSquare p { s.square p with arr := ar.setSeg ix { g with back := set.1 } }).setCtx p r.slot
                (c.markRead b.addr (b.shareEnd kr nc true - b.addr)))) s

/-- SWAP (R82, R92): front and back are exchanged in the context's columns; an MMP in flight has taken its front set. -/
def execSwap (r : CtxRef) (f : SwapF) (s : State) : Result :=
  runInstr (.swap r f) r (fun p c s =>
    let i := Instr.swap r f
    let seg := f.seg.toNat
    let sh := if seg = 0 then (s.square p).arr.shape else segShape seg
    if f.rsv != 0 || segForbidden (s.boardOf c) seg then illegal s
    else match (s.square p).arr.enterStep r.slot seg sh with
      | .illegal => illegal s
      | .wait ar => .stall (.array i) (s.setSquare p { s.square p with arr := ar })
      | .go ix ar =>
        let g := ar.seg ix
        .done (s.setSquare p { s.square p with arr := ar.setSeg ix { g with front := g.back, back := g.front } })) s

/-- MMP_TILE_COMPLETE (R81, R88, R91, R95, R357): the oldest tile of a context ends; it reads its operands, adds to the bank, and
flushes where it is due. A tile of an MMT is a LOADW, a SWAP and an MMP, and the MMT goes on to its next tile; with K zero it has no such step and
leaves sets and bank alone (R112). -/
def execMmpTileComplete (r : CtxRef) (s : State) : Result :=
  match s.physOf r.sq with
  | none => impossible "no such square"
  | some p =>
    match (s.square p).arr.front r.slot with
    | none => impossible "no tile is in flight"
    | some op =>
      let c := s.ctx p r.slot
      if op.kind = .loadw ∨ op.done ∨ op.needB ≠ 0 ∨ op.needA ≠ 0 ∨ op.needC ≠ 0 ∨ !op.out.isEmpty then impossible "the tile waits for a queue"
      else if !s.domainOpen 0 c.burgee then impossible "the governor delays the tile"
      else
        let g := (s.square p).arr.seg op.segIx
        let steps := op.kind == .mmt && op.k != 0
        let load := if op.kind = .mmt then loadBlock s p c.shareBase op else (op.front, false)
        let t := sumTile s p c.shareBase op load.1 g.bank
        let t := { t with sr := c.sr }
        let t := if op.block.last then flushTile p c.shareBase op t c.sr (s.unitSeed c op.m) else t
        if load.2 || t.poison then .next (contextFault p r.slot fPoison noStream 0 s)
        else
          let s := t.st
          let q := s.square p
          let g := if steps then { g with bank := t.bank, front := load.1, back := g.front } else if op.kind = .mmt then g else { g with bank := t.bank }
          let s := s.setSquare p { q with arr := q.arr.setSeg op.segIx g }
          let c := s.ctx p r.slot
          let c := if op.a.kind = 1 ∨ op.a.kind = 2 then c.markRead op.a.addr (op.a.shareEnd op.m op.k false - op.a.addr) else c
          let s := raiseFlags c.cmd t.flags (s.setCtx p r.slot { c with sr := t.sr })
          match (if op.kind = .mmt then op.nextTile else none) with
          | some op' => .next (feedArray p r.slot (putOp p r.slot (some { op' with out := t.out }) s))
          | none =>
            let q := s.square p
            let s := s.setSquare p { q with arr := { q.arr with half := if op.kind = .mmt then (if op.base = 0 then 1 else 0) else q.arr.half } }
            if op.holds then .next (feedArray p r.slot (putOp p r.slot (some { op with out := t.out, done := true, bufA := [], bufB := [], bufC := [] }) s))
            else .next (opOver p r.slot false (putOp p r.slot none s))

/-- SHAPE_SWITCH (R84, R98): the array takes the shape that an instruction waits for once no tile is in flight and no segment is
held. -/
def execShapeSwitch (sq shape : Nat) (s : State) : Result :=
  match s.physOf sq with
  | none => impossible "no such square"
  | some p =>
    let a := (s.square p).arr
    if a.want = some shape ∧ a.tiles.isEmpty ∧ a.segCount = 0 then
      .next (wakeArray p (s.setSquare p { s.square p with arr := a.switch shape }))
    else impossible "no instruction waits for this shape"

end Sys2Proof.Machine
end

