-- ==== Sys2Proof/Machine/HostAccess.lean ====
section
/-! DEFINITION. Who may write what over CXL.io (R266, R305), and the Halyard mailbox (R321, R380, R389, R400). -/

namespace Sys2Proof.Machine

/-- The hub answers Unsupported Request and counts the binding error (R266). -/
def bindError (q : BitVec 20) (s : State) : State :=
  emit .unsupported { s with sched := { s.sched with bindErr := satAdd 32 s.sched.bindErr 1, lastPasid := q } }

/-- The device is powered, out of reset and past its boot (R452). -/
def State.booted (s : State) : Bool := s.pwr.state != .off && !s.pwr.inReset && s.pwr.state != .boot

/-- The function answers: the device has booted and a module of the UCIe link, its only path to the host site, is up (R6, R302). -/
def State.hostSeen (s : State) : Bool := s.booted && decide (0 < s.pwr.modules)

/-- An access to BAR0 or BAR4: burgee 0 only (R266). -/
def fromManager (p : Pasid) (k : State → Result) (s : State) : Result :=
  if !s.hostSeen then impossible "no host access" else
  match p with
  | none => k s
  | some q => .next (bindError q s)

/-- The burgee that a request's PASID names while it is bound (R266). -/
def State.burgeeOf (s : State) (q : BitVec 20) : Option Nat :=
  (s.cfg.burgees.find? fun b => b.pasid == q && s.bound b.burgee).map (·.burgee)

/-- A write to burgee page `b`: page 0 without a PASID, another page under its burgee's PASID (R266, R305). -/
def fromPage (p : Pasid) (b : Nat) (k : State → Result) (s : State) : Result :=
  if !s.hostSeen then impossible "no host access" else
  match p with
  | none => if b = 0 then k s else .next (bindError s.sched.lastPasid s)
  | some q => if b ≠ 0 ∧ s.burgeeOf q = some b then k s else .next (bindError q s)

/-- A halted device answers only the mailbox (R390, R148); recovery reads as HALTED (R380). -/
def State.halted (s : State) : Bool := s.pwr.state == .halted || s.pwr.recovery

/-- A register write by the manager outside the mailbox: a halted device answers Unsupported Request. -/
def managerWrite (p : Pasid) (k : State → Result) (s : State) : Result :=
  fromManager p (fun s => if s.halted then .next (emit .unsupported s) else k s) s

/-- MGR_STATE.POWER (R319, R380). -/
def State.powerCode (s : State) : Nat := if s.pwr.recovery then 4 else s.pwr.state.code

-- ───────────────────────── mailbox

/-- Mailbox statuses (R321). -/
def mbOk : Nat := 0
def mbBusy : Nat := 1
def mbUnknown : Nat := 2
def mbBadLength : Nat := 3
def mbWrongState : Nat := 4

/-- The fatal records after which the hub restarts the core in the boot ROM (R390). -/
def State.coreDead (s : State) : Bool := s.elog.firstFatal == some 0x1002 || s.elog.firstFatal == some 0x1005

/-- The boot ROM answers (R390). -/
def State.inRom (s : State) : Bool := s.pwr.state == .halted && s.coreDead

/-- Requests of R389. -/
def logRequests : List Nat := [0x0120, 0x0121, 0x0122, 0x0130]

/-- The status that answers a request the present state does not take (R378, R380, R389, R400). -/
def State.mailboxRefuses (s : State) (code : Nat) : Option Nat :=
  if s.pwr.recovery then
    if [0x0110, 0x0111, 0x0112, 0x0120, 0x0121].contains code then none
    else if code = 0x0122 then some mbWrongState else some mbUnknown
  else if s.inRom then (if logRequests.contains code then none else some mbUnknown)
  else if s.sec.lc = .scrapped then
    if logRequests.contains code ∨ code = 0x0202 ∨ code = 0x0001 then none
    else if code = 0x0100 then some mbWrongState else some mbUnknown
  else if [0x0110, 0x0111, 0x0112].contains code then some mbWrongState
  else if [0x0100, 0x0101, 0x0102].contains code ∧ s.pwr.state ≠ .idle ∧ s.pwr.state ≠ .active then some mbWrongState
  else none

/-- Start a request's answer: STATE becomes RUNNING and the answer waits for MAILBOX_REQUEST_DONE. -/
def answer (status : Nat) (resp : List Byte) (s : State) : State :=
  { s with mbox := { s.mbox with st := .running, answer := (status, resp) } }

/-- A mailbox request (R321): ignored while another runs, refused by state, then by length; else `k` takes the body. -/
def mailboxTo (p : Pasid) (code len : Nat) (okLen : Nat → Bool) (k : List Byte → State → State) (s : State) : Result :=
  fromManager p (fun s =>
    if s.mbox.st = .running then .next s
    else match s.mailboxRefuses code with
      | some st => .next (answer st [] s)
      | none =>
        if !okLen len then .next (answer mbBadLength [] s)
        else .next (k (cellsAt s.mbox.buf 0 len) s)) s

/-- A mailbox request whose effect is `k`, which gives status, response and state. -/
def mailbox (p : Pasid) (code len : Nat) (okLen : Nat → Bool) (k : List Byte → State → Nat × List Byte × State) (s : State) : Result :=
  mailboxTo p code len okLen (fun body s =>
    let r := k body s
    answer r.1 r.2.1 r.2.2) s

/-- A request without a body that changes nothing. -/
def mailboxRead (p : Pasid) (code len : Nat) (resp : State → List Byte) (s : State) : Result :=
  mailbox p code len (· == 0) (fun _ s => (mbOk, resp s, s)) s

/-- MAILBOX_REQUEST_DONE (R321): the response lies in the buffer and STATE reads DONE. -/
def execMailboxRequestDone (s : State) : Result :=
  if s.mbox.st ≠ .running then impossible "no request runs"
  else
    let a := s.mbox.answer
    .next { s with mbox := { st := .done, status := a.1, respLen := a.2.length, buf := putCells s.mbox.buf 0 a.2, answer := (0, []) } }

/-- Request codes that a row gives. -/
def knownRequests : List Nat :=
  [0x0001, 0x0002, 0x0003, 0x0004, 0x0005, 0x0100, 0x0101, 0x0102, 0x0110, 0x0111, 0x0112, 0x0120, 0x0121, 0x0122, 0x0130,
   0x0200, 0x0201, 0x0202, 0x0300, 0x0301, 0x0302, 0x0303, 0x0304, 0x0305, 0x0306]

/-- A request of another code is answered with UNKNOWN (R321, R380). -/
def execUnknownRequest (p : Pasid) (code : BitVec 16) (_len : Nat) (s : State) : Result :=
  if knownRequests.contains code.toNat then impossible "the request is known"
  else fromManager p (fun s => if s.mbox.st = .running then .next s else .next (answer mbUnknown [] s)) s

end Sys2Proof.Machine
end

