-- ==== Sys2Proof/Machine/Towers.lean ====
section
/-! DEFINITION. Tower channels, frames, scrub and training (R144 to R152). A channel's number is 7t + c. -/

namespace Sys2Proof.Machine

/-- Data channels number c below 6. -/
def dataChan (ch : Nat) : Bool := decide (ch < 42) && decide (ch % 7 < 6)

/-- The tower key of a channel address (R141, inverse). -/
def keyOfChan (ch ca : Nat) : Nat := ch / 7 * towerSize + (ca / 2048 * 6 + ch % 7) * 2048 + ca % 2048

/-- Burgees that a partition's forfeits go to: those of it that are bound, or burgee 0 for partition 0. -/
def State.burgeesOf (s : State) (part : Nat) : List Nat :=
  let l := ((s.cfg.burgees.filter fun b => b.part == part && s.bound b.burgee).map (·.burgee))
  if part = 0 then 0 :: l else l

/-- A channel starts to retrain (R149, R151). -/
def startRetrain (ch : Nat) (s : State) : State :=
  let c := s.chan ch
  if c.st ≠ 0 then s
  else record 0x2405 (dieMem (ch / 7)) ch [] (s.setChan ch { c with st := 1, alignAt := [], since := s.up, lostFrom := s.devTime })

/-- A check-channel alignment error (R149 to R152): 16 within 1 s retrain the channel, and so does one that repeats. -/
def alignError (ch : Nat) (repeats : Bool) (s : State) : State :=
  let c := s.chan ch
  let l := s.up :: c.alignAt.filter fun t => decide (s.up < t + 1000000000)
  let s := record 0x2403 (dieMem (ch / 7)) ch [] (s.setChan ch { c with align := satAdd 32 c.align 1, alignAt := l })
  if repeats ∨ 16 ≤ l.length then startRetrain ch s else s

/-- Slots that are lost give every owning partition a forfeit with their number (R149, R259): cause 0x07 RETRAIN, 0x08 TIME_STEP. -/
def loseSlots (cause d0 : Nat) (slots : Regulator → Nat) (s : State) : State :=
  forAll (s.cfg.regulators.filter fun r => decide (0 < slots r)) (fun r s =>
    forAll (s.burgeesOf r.part) (fun b s => forfeit (if r.part = 0 then 2 else 3) cause b d0 (slots r) s) s) s

/-- Reserved slots of a partition on a channel that any part of a span of device time falls into, over one frame at most. -/
def Regulator.slotsIn (r : Regulator) (ch since till : Nat) : Nat :=
  ((List.range 64).filter fun k =>
    let n := since / chanSlotNs + k
    decide (n * chanSlotNs < till) && r.reserves ch n).length

/-- Report the reserved slots that a retraining channel has lost since it was last done (R149). -/
def reportLost (ch : Nat) (s : State) : State :=
  let c := s.chan ch
  if c.st ≠ 1 ∨ dataChan ch = false then s
  else loseSlots 0x07 (chanId ch) (fun r => r.slotsIn ch c.lostFrom s.devTime) (s.setChan ch { c with lostFrom := s.devTime })

/-- The same for every channel. -/
def reportAllLost (s : State) : State := forAll (s.tow.chans.map (·.1)) reportLost s

/-- CHANNEL_FRAME_START (R144, R149): a frame starts at every whole 8 µs of device time; a retraining channel has lost its reserved slots. -/
def execChannelFrameStart (s : State) : Result :=
  if s.devTime < s.tow.frameDue then impossible "no frame is due"
  else
    let n := s.devTime / 8000
    .next (reportAllLost { s with tow := { s.tow with frameDue := (n + 1) * 8000, frameNo := n % 125, refreshed := false, calibrated := false } })

/-- Slot `k` of the frame that has begun is in progress (R144). -/
def State.inSlot (s : State) (k : Nat) : Bool := s.frameSlot == k && decide (s.devTime < s.tow.frameDue)

/-- Slot 63 of this frame is for calibration (R144). -/
def State.calibrates (s : State) : Bool := s.frameOfMs % 16 == 0

/-- Towers that report a die temperature of 85 °C or more (R144). -/
def State.hotTowers (s : State) : List Nat := (List.range 6).filter fun t => (List.range 7).any fun c => decide (85 ≤ (s.chan (7 * t + c)).temp)

/-- Rows of every bank that one refresh covers: enough for every row within 32 ms with one refresh a frame, and within 16 ms with the second one
(R144; assumption 117). -/
def refreshRows : Nat := 102

/-- Rows of a bank (R141). -/
def bankRows : Nat := 393216

/-- Refresh the next rows of some towers. -/
def refresh (l : List Nat) (s : State) : State :=
  forAll l (fun t s => { s with tow := { s.tow with
    refreshRow := Assoc.set s.tow.refreshRow t ((Assoc.get s.tow.refreshRow t 0 + refreshRows) % bankRows) } }) s

/-- REFRESH_SLOT (R144, R152): slot 62 of each frame, and slot 63 as a second refresh of a hot tower in a frame without calibration. -/
def execRefreshSlot (s : State) : Result :=
  if s.inSlot 62 && !s.tow.refreshed then .next (refresh (List.range 6) { s with tow := { s.tow with refreshed := true } })
  else if s.inSlot 63 && !s.calibrates && !s.tow.calibrated && !s.hotTowers.isEmpty then
    .next (refresh s.hotTowers { s with tow := { s.tow with calibrated := true } })
  else impossible "no refresh slot is left"

/-- CALIBRATION_SLOT (R144, R149): slot 63 of every sixteenth frame; a channel that loses alignment retrains. -/
def execCalibrationSlot (lost : List Nat) (s : State) : Result :=
  if !s.inSlot 63 || !s.calibrates || s.tow.calibrated then impossible "no calibration slot"
  else if lost.any (fun ch => decide (42 ≤ ch)) then impossible "no such channel"
  else .next (forAll lost startRetrain { s with tow := { s.tow with calibrated := true } })

-- ───────────────────────── scrub

/-- The granule found is written back poisoned by a scrub: an uncorrectable one, or a poisoned one with a symbol corrected (R136). -/
def scrubPoisons (g : Granule) : Bool := match Code.decode g with
  | .clean _ _ => false
  | .poisoned _ fixed => !fixed.isEmpty
  | .uncorrectable => true

/-- Write a scrubbed granule back (R136, R146): it is no operation of R127. -/
def scrubBack (k : Nat) (g : Granule) (s : State) : State :=
  let ca := chanOfKey k
  let s := { s with tower := s.tower.put k (Code.scrubbed g) }
  if scrubPoisons g then
    let c := s.chan ca.1
    record 0x2402 (dieMem (ca.1 / 7)) ca.1 (leBytes 8 ca.2 ++ leBytes 8 0) (s.setChan ca.1 { c with poisonWr := satAdd 32 c.poisonWr 1 })
  else s

/-- Granules of a data channel. -/
def chanGranules : Nat := 12 * gib / 32

/-- Tower memory is being wiped: at boot, under CLEAR, or for a burgee or a hoist (R152, R274, R405). -/
def State.wipingTowers (s : State) : Bool := s.sec.wipeRun || s.hoist.clearing || !s.hoist.wiping.isEmpty || s.burgees.any (·.2.wiping)

/-- A wipe begins: patrol scrub stops, to start again from position 0 (R152; assumption 118). -/
def restartScrub (s : State) : State := { s with tow := { s.tow with chans := s.tow.chans.map fun c => (c.1, { c.2 with scrub := 0 }) } }

/-- TOWER_PATROL_SCRUB (R144, R146): one granule per data channel per 200 µs, in slot 63 of a frame without calibration. `upset` is what physics has
left in it. -/
def execTowerPatrolScrub (ch : Nat) (upset : Upset) (s : State) : Result :=
  let c := s.chan ch
  if !dataChan ch || c.st != 0 || s.up < c.nextScrub || !s.inSlot 63 || s.calibrates then impossible "no patrol read is due"
  else if s.wipingTowers then impossible "scrub has stopped"
  else
    let k := keyOfChan ch (c.scrub * 32)
    let g := Code.disturb (s.tower.granule k) upset
    let s := s.setChan ch { c with scrub := (c.scrub + 1) % chanGranules, nextScrub := nextDue c.nextScrub 200000 s.up }
    if Code.residue g = 0 then .next { s with tower := s.tower.put k g }
    else .next (scrubBack k g (countRead k 1 g s))

/-- SCRATCHPAD_SCRUB (R58, R146): once per 1 ms the next row of a bank of a square; an uncorrectable granule is written back poisoned. -/
def execScratchpadScrub (psq bank : Nat) (upset : Upset) (s : State) : Result :=
  let q := s.square psq
  let due := Assoc.get q.scrubDue bank 0
  if 180 ≤ psq ∨ 32 ≤ bank ∨ q.gated then impossible "no such bank is powered"
  else if s.up < due then impossible "no scrub is due"
  else
    let row := Assoc.get q.scrubRow bank 0
    let a := row * 1024 + bank * 32
    let k := psq * padSize + a
    let g := Code.disturb (s.scratch.granule k) upset
    let s := s.setSquare psq { q with scrubRow := Assoc.set q.scrubRow bank ((row + 1) % 8192), scrubDue := Assoc.set q.scrubDue bank (nextDue due 1000000 s.up) }
    if Code.residue g = 0 then .next { s with scratch := s.scratch.put k g }
    else
      let s := { s with scratch := s.scratch.put k (Code.scrubbed g) }
      let s := if Code.decode g = .uncorrectable then
          record 0x2400 (dieCompute psq) psq (leBytes 8 a ++ leBytes 1 1 ++ leBytes 7 0) s else s
      .next (if scrubPoisons g then record 0x2402 (dieCompute psq) psq (leBytes 8 a ++ leBytes 8 0) s else s)

/-- Bytes of the Halyard SRAM (R146, R369). -/
def sramSize : Nat := 0x400000

/-- An uncorrectable granule of the Halyard SRAM (R369, R383): fatal. -/
def sramUncorr (off : Nat) (s : State) : State := record 0x1005 dieHub noUnit (leBytes 4 off) s

/-- HALYARD_SRAM_SCRUB (R146): one granule per 8 µs. -/
def execHalyardSramScrub (upset : Upset) (s : State) : Result :=
  if s.up < s.tow.sramDue then impossible "no scrub is due"
  else
    let a := s.tow.sramScrub * 32
    let g := Code.disturb (s.sram.granule a) upset
    let s := { s with tow := { s.tow with sramScrub := (s.tow.sramScrub + 1) % (sramSize / 32), sramDue := nextDue s.tow.sramDue 8000 s.up } }
    if Code.residue g = 0 then .next { s with sram := s.sram.put a g }
    else
      let s := { s with sram := s.sram.put a (Code.scrubbed g) }
      match Code.decode g with
      | .uncorrectable => .next (sramUncorr a s)
      | .clean _ fixed | .poisoned _ fixed =>
        .next (if fixed.isEmpty then s else { s with tow := { s.tow with sramCorr := s.tow.sramCorr + 1 } })

/-- DEMAND_SCRUB (R147, R152): the scrub that a read with a syndrome has caused at a granule of a channel. Its own read, in which `upset` may add errors,
counts as one (R150); its write-back is discarded where a write to the granule has entered the bank queue since. -/
def execDemandScrub (ch granule : Nat) (upset : Upset) (s : State) : Result :=
  let k := keyOfChan ch (granule * 32)
  match s.tow.scrubs.find? (·.key == k) with
  | none => impossible "no read has caused a scrub there"
  | some x =>
    if !dataChan ch ∨ !s.runs ch then impossible "no such data channel runs"
    else
      let g := Code.disturb x.g upset
      let s := countRead k 1 g { s with tow := { s.tow with scrubs := s.tow.scrubs.filter (·.key != k) } }
      .next (if x.stale then s else scrubBack k g s)

/-- CHANNEL_RETRAIN_DONE (R149, R151): an attempt of at most 2 ms through steps 2 to 5 ends. The channel runs again, or after three failures in
succession fails for good, which is fatal. -/
def execChannelRetrainDone (ch : Nat) (ok : Bool) (step : Nat) (s : State) : Result :=
  let c := s.chan ch
  if 42 ≤ ch ∨ c.st ≠ 1 ∨ c.since + 2000000 < s.up then impossible "the channel does not retrain"
  else if ok then
    let s := reportLost ch s
    .next (s.setChan ch { s.chan ch with st := 0, fails := 0 })
  else if step < 2 ∨ 5 < step then impossible "no step of retraining"
  else
    let s := reportLost ch s
    let c := { s.chan ch with fails := c.fails + 1, since := s.up }
    .next (if c.fails < 3 then s.setChan ch c
      else record 0x2406 (dieMem (ch / 7)) ch (item ch ++ item step) (s.setChan ch { c with st := 2 }))

/-- MEM_CORR_SUMMARY (R151): every 60 s in which a channel corrected a symbol. -/
def execMemCorrSummary (s : State) : Result :=
  if s.up < s.tow.sumDue then impossible "no summary is due"
  else
    let a := (s.tow.chans.map (·.2.sum1)).sum
    let b := (s.tow.chans.map (·.2.sum2)).sum
    let chans := s.tow.chans.map fun c => (c.1, { c.2 with sum1 := 0, sum2 := 0 })
    let s := { s with tow := { s.tow with sumDue := nextDue s.tow.sumDue 60000000000 s.up, chans := chans } }
    .next (if a + b = 0 then s else record 0x2401 dieHub noUnit (item a ++ item b) s)

/-- Seconds in a row that have passed with more than 1,000 corrected symbols on a DQ, up to its last one counted (R151). -/
def Chan.hotRun (c : Chan) (dq sec : Nat) : Nat :=
  let r := Assoc.get c.rate dq (0, 0, 0)
  if 1000 < r.2.1 ∧ r.1 < sec then r.2.2 + 1 else r.2.2

/-- MEM_DQ_DEGRADED (R151): one DQ has exceeded 1,000 corrected symbols per second for 10 s; it is said once while that lasts. -/
def execMemDqDegraded (ch dq : Nat) (s : State) : Result :=
  let c := s.chan ch
  if 42 ≤ ch ∨ 32 ≤ dq ∨ c.hotRun dq (s.up / 1000000000) < 10 then impossible "the DQ has not corrected that many symbols"
  else if c.dqHot.contains dq then impossible "it was said"
  else .next (record 0x2404 (dieMem (ch / 7)) ch [] (s.setChan ch { c with dqHot := c.dqHot ++ [dq] }))

/-- The DQ with the most corrected symbols, the lowest on a tie, and its count (R150). -/
def Chan.worst (c : Chan) : Nat × Nat :=
  c.dq.foldl (fun b e => if b.2 < e.2 then e else b) (0xFFFF, 0)

/-- One record of MEM_STATUS (R150). -/
def Chan.status (c : Chan) : List Byte :=
  leBytes 4 c.corr1 ++ leBytes 4 c.corr2 ++ leBytes 4 c.uncorr ++ leBytes 4 c.poisonWr ++ leBytes 4 c.align ++
    leBytes 2 c.worst.1 ++ leBytes 2 c.worst.2 ++ leBytes 4 c.scrub ++ leBytes 1 (ofSigned 8 c.temp) ++ leBytes 1 c.st ++ leBytes 2 0

/-- MEM_STATUS (R150). -/
def execMemStatus (p : Pasid) (len : Nat) (s : State) : Result :=
  mailboxRead p 0x0001 len (fun s => (List.range 42).flatMap fun ch => (s.chan ch).status) s

end Sys2Proof.Machine
end

