-- ==== Sys2Proof/Machine/Streams.lean ====
section
/-! DEFINITION. Access streams (R114 to R121, R126 to R130): addresses, what a stream delivers, and how it closes. -/

namespace Sys2Proof.Machine

-- ───────────────────────── addresses (R116, R117, R120)

/-- Elements that a stream visits. -/
def Stream.total (t : Stream) : Nat := t.counts.foldl (· * ·) 1

/-- The step of dimension `d` in bytes. -/
def Ctx.stepOf (c : Ctx) (t : Stream) (d : Nat) : Int :=
  let v := t.strides.getD d 0
  if bit t.stepSel d then c.offsets.getD (v % 8).toNat 0 else v * 32

/-- Address of element `n`: each step is added once for every loop it closes (R116); a gather adds its index. -/
def Ctx.elemAddr (c : Ctx) (t : Stream) (n idx : Nat) : Int :=
  let c0 := t.counts.getD 0 1
  let c1 := t.counts.getD 1 1
  let c2 := t.counts.getD 2 1
  (t.base : Int) + (if t.indexed then (idx : Int) * c.stepOf t 0 else (n : Int) * c.stepOf t 0) + ((n / c0 : Nat) : Int) * c.stepOf t 1 +
    ((n / (c0 * c1) : Nat) : Int) * c.stepOf t 2 + ((n / (c0 * c1 * c2) : Nat) : Int) * c.stepOf t 3

/-- Addresses of an element's granules. -/
def Ctx.elemGranules (c : Ctx) (t : Stream) (n idx : Nat) : List Nat :=
  (List.range t.elem).map fun g =>
    let x := c.elemAddr t n idx + 32 * (g : Int)
    let y := if t.circ then (t.base : Int) + (x - t.base) % ((t.circLen * 32 : Nat) : Int) else x
    (y % (2 ^ 64 : Nat)).toNat

/-- Cut granules where they leave a 2 KiB stripe or do not follow one another (R120). -/
def splitRuns : List Nat → List (List Nat)
  | [] => []
  | a :: t =>
    match splitRuns t with
    | (b :: r) :: rest => if b = a + 32 ∧ b / 2048 = a / 2048 then (a :: b :: r) :: rest else [a] :: (b :: r) :: rest
    | l => [a] :: l

/-- The requests that an element is issued as. -/
def Stream.parts (t : Stream) (l : List Nat) : List (List Nat) := if t.endpoint = 2 then [l] else splitRuns l

-- ───────────────────────── which streams run (R115, R118)

def Stream.writes (t : Stream) : Bool := t.dir == 1 || t.dir == 3
def Stream.viaShare (t : Stream) : Bool := t.dir == 2 || t.dir == 3

/-- Every lower-numbered stream bound to the same queue has closed (R118). -/
def Ctx.turnOf (c : Ctx) (i : Nat) (t : Stream) : Bool :=
  (c.streamsOf t.queue).all fun j => decide (i ≤ j) || ((c.streams[j]?).map (·.closed)).getD true

def Ctx.running (c : Ctx) (i : Nat) : Bool := match c.streams[i]? with
  | some t => t.started && !t.closed && c.turnOf i t
  | none => false

/-- The tags of a stream. -/
def Square.tagsOf (q : Square) (slot i : Nat) : List Tag := q.tags.filter fun t => t.slot == slot && t.stream == i && !t.dead

/-- The index queue of a gather is over and holds no index for its next element (R117). -/
def Ctx.exhausted (c : Ctx) (t : Stream) : Bool :=
  t.indexed && t.part == 0 && t.indices.isEmpty && (c.queue t.indexQ).isEmpty && c.ended t.indexQ

-- ───────────────────────── closing (R117, R118)

/-- Mark the last entry of stream `i` in a queue. -/
def markLast (i : Nat) (l : List QEntry) : List QEntry :=
  match l.reverse.findIdx? (fun e => e.stream == i) with
  | some k => l.modify (l.length - 1 - k) fun e => { e with last := true }
  | none => l

/-- Close stream `i`: a share stream pushes its done granule, which is late where the kernel waits for it, and the streams chained to it start. -/
def Ctx.close (c : Ctx) (i : Nat) (late : Bool) : Ctx :=
  match c.streams[i]? with
  | none => c
  | some t =>
    let c := c.modStream i fun t => { t with closed := true, doneLate := late }
    let c := if t.viaShare then
        c.setQueue t.queue (c.queue t.queue ++ [{ g := Code.clean (BitVec.ofNat 256 t.moved), last := true, stream := i, late := late }])
      else c
    { c with streams := c.streams.map fun u => if u.start = 1 ∧ u.chain = i then { u with started := true } else u }

/-- A gather whose index stream has closed early issues no more (R117): its final granule carries LAST where it still can. -/
def stopGather (p slot i : Nat) (s : State) : State :=
  let c := s.ctx p slot
  let q := s.square p
  let tags := q.tagsOf slot i
  match c.streams[i]? with
  | none => s
  | some t =>
    let c := c.modStream i fun t => { t with stopped := true }
    match tags.foldl (fun b g => max b (g.first + 1)) 0 with
    | 0 =>
      let c := if t.dir = 0 then c.setQueue t.queue (markLast i (c.queue t.queue)) else c
      s.setCtx p slot c
    | m + 1 =>
      (s.setCtx p slot c).setSquare p { q with tags := q.tags.map fun g =>
        if g.slot = slot ∧ g.stream = i ∧ g.first = m ∧ !g.dead then { g with last := true } else g }

/-- Every element that a stream will issue has been issued. -/
def Stream.over (t : Stream) : Bool := t.stopped || decide (t.total ≤ t.issued)

/-- A stream that has come to its end: one that is over closes once its requests have ended and, where it moves granules to or from the share, its done
queue has room; a gather without further indices stops (R117, R118). -/
def State.closable (s : State) (p slot : Nat) : Option Nat :=
  let c := s.ctx p slot
  (List.range c.streams.length).find? fun i => c.running i && match c.streams[i]? with
    | some t => t.part == 0 && (if t.over then ((s.square p).tagsOf slot i).isEmpty && (!t.viaShare || decide (1 ≤ c.space t.queue)) else c.exhausted t)
    | none => false

/-- Close what has come to its end, as often as the count says (R118): a closing stream may start another that has no element. -/
def sweepN (p slot : Nat) : Nat → State → State
  | 0, s => s
  | n + 1, s =>
    let c := s.ctx p slot
    match s.closable p slot with
    | none => s
    | some i => sweepN p slot n (match c.streams[i]? with
        | some t => if t.over then s.setCtx p slot (c.close i (s.awaits p slot t.queue)) else stopGather p slot i s
        | none => s)

/-- Close streams, feed the array from what has arrived, and let a waiting context go on. -/
def sweep (p slot : Nat) (s : State) : State :=
  let s := sweepN p slot 40 s
  settle p slot (refeedArray p slot s)

-- ───────────────────────── delivery

/-- Record the generation that came with a watched read (R127): 32 entries, the first one of a page stays. -/
def Ctx.watchPage (c : Ctx) (i page : Nat) (gen : Option Nat) : Ctx :=
  match c.streams[i]? with
  | none => c
  | some t =>
    if !t.watch then c else
    let lose := fun (c : Ctx) =>
      if t.watchLost then c
      else (c.modStream i fun t => { t with watchLost := true }).count i fun n => { n with watchLost := satAdd 16 n.watchLost 1 }
    match gen with
    | none => lose c
    | some g =>
      if t.watchList.any (·.1 == page) then c
      else if 32 ≤ t.watchList.length then lose c
      else c.modStream i fun t => { t with watchList := t.watchList ++ [(page, g)] }

/-- Granules that a stream writes into the share become unread (R129); one that was unread stays unused. -/
def Ctx.markUnread (c : Ctx) (i a : Nat) (n : Nat) : Ctx :=
  let gs := (List.range n).map fun k => a / 32 + k
  let old := c.unread.filter fun e => gs.contains (e / 16)
  let c := old.foldl (fun c e => c.count (e % 16) fun m => { m with unused := m.unused + 1 }) c
  { c with unread := (c.unread.filter fun e => !gs.contains (e / 16)) ++ gs.map fun g => g * 16 + i }

/-- Give up a tag. -/
def freeTag (p id : Nat) (s : State) : State :=
  let q := s.square p
  s.setSquare p { q with tags := q.tags.filter (·.id != id) }

/-- Push what has arrived onto the queue, in element order. -/
def pushReady (p slot i : Nat) : Nat → State → State
  | 0, s => s
  | n + 1, s =>
    let l := (s.square p).tagsOf slot i
    match l.foldl (fun (b : Option Tag) g => match b with
        | some x => if g.first < x.first then some g else some x
        | none => some g) none with
    | none => s
    | some g =>
      if !g.ready then s else
      let c := s.ctx p slot
      match c.streams[i]? with
      | none => s
      | some t =>
        let late := s.awaits p slot t.queue
        let k := g.back.length
        let es := ((List.range k).zip g.back).map fun e => ({ g := e.2, last := g.last && e.1 + 1 == k, stream := i, late := late } : QEntry)
        let c := c.setQueue t.queue (c.queue t.queue ++ es)
        let c := c.modStream i fun t => { t with moved := t.moved + k }
        let c := c.count i fun m => { m with fetched := satAdd 64 m.fetched (32 * k) }
        pushReady p slot i n (freeTag p g.id (s.setCtx p slot c))

/-- The data of a live read tag has arrived (R118, R126, R129). -/
def arrive (p : Nat) (g : Tag) (gs : List Granule) (s : State) : State :=
  let c := s.ctx p g.slot
  match c.streams[g.stream]? with
  | none => freeTag p g.id s
  | some t =>
    if t.dir = 2 then
      let k := gs.length
      let s := forAll ((List.range k).zip gs) (fun e s => putPad p c.shareBase (g.place + 32 * e.1) e.2 s) s
      let c := (c.markUnread g.stream g.place k).modStream g.stream fun t => { t with moved := t.moved + k }
      let c := c.count g.stream fun m => { m with fetched := satAdd 64 m.fetched (32 * k) }
      sweep p g.slot (freeTag p g.id (s.setCtx p g.slot c))
    else
      let q := s.square p
      let s := s.setSquare p { q with tags := q.tags.map fun x => if x.id = g.id then { x with ready := true, back := gs } else x }
      sweep p g.slot (pushReady p g.slot g.stream 513 s)

/-- A live write tag's write is performed (R118). -/
def wrote (p : Nat) (g : Tag) (s : State) : State := sweep p g.slot (freeTag p g.id s)

end Sys2Proof.Machine
end

