-- ==== Sys2Proof/Machine/FabricSource.lean ====
section
/-! DEFINITION. The source hub and the router (R158 to R172, R176 to R179, R195 to R197): requests leave with SEQ and credit, answers
come back, operations are assembled, messages for others are forwarded and combined. -/

namespace Sys2Proof.Machine

-- ───────────────────────── sending (R165, R169, R170)

/-- Virtual channel of a request: radio for the burgees of partition 0 (R168). -/
def reqVc (radio : Bool) : Nat := if radio then 2 else 0

/-- The operations that stand before one in the hub. -/
def State.before (s : State) (o : FabOut) : List FabOut := s.hub.outs.takeWhile (·.id != o.id)

/-- A fence of the operation's context stands before it (R166). -/
def State.fenced (s : State) (o : FabOut) : Bool :=
  (s.before o).any fun f => f.kind == 5 && f.psq == o.psq && f.slot == o.slot

/-- The operation goes to one of the devices of another. -/
def FabOut.meets (o f : FabOut) : Bool := o.dests.any fun d => f.dests.any (·.1 == d.1)

/-- The requests of a burgee toward a destination leave in the order in which they reached the hub (R170, R171). -/
def State.firstOfPair (s : State) (o : FabOut) : Bool :=
  !(s.before o).any fun f => f.kind != 5 && !f.sent && f.burgee == o.burgee && f.meets o

/-- A LOAD, or a generation query, which the model counts with them (R128, R169). -/
def FabOut.reads (o : FabOut) : Bool := o.opcode == 1 || o.kind == 7

/-- Credits that requests hold toward a device on the operation's channel and in its class: LOAD, or writing (R169). -/
def State.creditsHeld (s : State) (o : FabOut) (d : Nat) : List FabOut :=
  s.hub.outs.filter fun f => f.kind != 5 && f.sent && f.radio == o.radio && f.reads == o.reads && f.dests.any (·.1 == d)

/-- A credit toward device `d` is free (R169): while another burgee waits for one, a burgee holds at most 16 of the 32. -/
def State.creditFree (s : State) (o : FabOut) (d : Nat) : Bool :=
  let held := s.creditsHeld o d
  if o.reads then decide (held.length < 256)
  else
    let other := s.hub.outs.any fun f => f.kind != 5 && !f.sent && f.burgee != o.burgee && f.radio == o.radio && !f.reads && f.dests.any (·.1 == d)
    decide (held.length < 32) && (!other || decide ((held.filter (·.burgee == o.burgee)).length < 16))

/-- Fabric bytes of an operation: out for what it writes, once for each other device, in for what comes back (R275). -/
def FabOut.fabricBytes (o : FabOut) (me : Nat) : Nat × Nat :=
  let n := (o.dests.filter (·.1 != me)).length
  if n = 0 then (0, 0)
  else if o.opcode = 1 then (0, o.size)
  else (32 * o.payload.length * n, if isAtomic o.opcode then 32 else 0)

/-- Buckets that an operation draws on when it is sent; a stream's request drew on them when the square issued it (R123, R276,
R296). -/
def State.sendDraws (s : State) (o : FabOut) : List Draw :=
  if o.kind = 0 then []
  else
    let n := o.fabricBytes s.deviceId
    (if n.1 = 0 then [] else s.draws o.burgee .fabricOut n.1) ++ (if n.2 = 0 then [] else s.draws o.burgee .fabricIn n.2) ++
      match o.lease with
      | some k => match s.cfg.leases.find? fun l => leaseKey l == k with
        | some l => [leaseDraw l o.size]
        | none => []
      | none => []

/-- Charge an operation's bytes to the regulators. -/
def chargeSend (o : FabOut) (s : State) : State :=
  if o.kind = 0 then s else
  let n := o.fabricBytes s.deviceId
  takeFloor o.burgee .fabricIn n.2 (takeFloor o.burgee .fabricOut n.1 (takeDraws (s.sendDraws o) s))

/-- The request as its home performs it. -/
def FabOut.request (o : FabOut) (me dst seq : Nat) : FabReq :=
  { src := me, burgee := o.burgee, seq, retry := o.retries != 0, radio := o.radio, rsvZero := true
    addr := BitVec.ofNat 64 (dst * 2 ^ 44 + fabOffset o.addr), size := o.size, fmt := o.fmt, payload := o.payload, tag := o.id
    watch := o.watch, tie := false }

/-- The request as it travels toward a device; a multicast request names none (R167). The header has no NOCOMBINE: a request with it leaves with the HELD count
at which no router holds it (R172; assumption 130). -/
def FabOut.wire (o : FabOut) (me dst seq : Nat) : Wire :=
  { opcode := o.opcode, vc := reqVc o.radio, retry := o.retries != 0, held := if o.noCombine then 2 else 0, size := o.size - 1, fmt := o.fmt, src := me
    dst := dst, burgee := o.burgee, seq := seq, addr := BitVec.ofNat 64 (dst * 2 ^ 44 + fabOffset o.addr), tag := o.id, group := o.group
    payload := (o.sub.map Config.subPayload).getD o.payload, watch := o.watch }

/-- The next SEQ of a burgee toward a device (R170); the first is 1 (assumption 37). -/
def takeSeq (d b : Nat) (s : State) : Nat × State :=
  let k := pairKey d b
  let q := Assoc.get s.hub.seqNext k 1
  (q, { s with hub := { s.hub with seqNext := Assoc.set s.hub.seqNext k ((q + 1) % seqMod) } })

/-- Replace an operation in the hub. -/
def putOut (o : FabOut) (s : State) : State :=
  { s with hub := { s.hub with outs := s.hub.outs.map fun f => if f.id = o.id then o else f } }

def dropOut (id : Nat) (s : State) : State := { s with hub := { s.hub with outs := s.hub.outs.filter (·.id != id) } }

/-- Muster has expelled the device, or this device is out of the fabric itself (R178, R414, R415). -/
def State.gone (s : State) (d : Nat) : Bool :=
  d != s.deviceId && ((s.peer d).expelled.isSome || s.muster.st == .expelled || s.muster.st == .isolated)

-- ───────────────────────── answers (R157, R161, R164, R174, R297)

/-- A reply's destination is a lease: mark it lost and record it (R297). -/
def loseLease (k : Nat) (s : State) : State :=
  if s.hub.lostLeases.any (·.1 == k) then s
  else
    let peer := ((s.cfg.leases.find? fun l => leaseKey l == k).map (·.peer)).getD 0
    record 0x4004 dieHub noUnit (item (k % 65536) ++ item peer) { s with hub := { s.hub with lostLeases := s.hub.lostLeases ++ [(k, peer)] } }

/-- Granules of zero data that travel poisoned (R178). -/
def poisonGranules (n : Nat) : List Granule := List.replicate n (Code.form 0 true)

/-- The 64-byte reply area (R161): a poisoned value poisons its granule. -/
def replyArea (o : FabOut) (r : FabResp) : List Granule :=
  let v := if isAtomic o.opcode then r.payload.head? else none
  let first := match v with
    | some g => g
    | none => Code.clean 0
  [first, Code.clean (bytesGranule [BitVec.ofNat 8 r.status, BitVec.ofNat 8 r.path, BitVec.ofNat 8 r.aflags])]

/-- A comparison of WAITSEM and of a command's wait (R67, R314): 0 unsigned ≥, 1 =, 2 ≠. -/
def semHolds (mode : Nat) (have_ want : Word) : Bool := match mode with
  | 0 => decide (want ≤ have_)
  | 1 => have_ == want
  | _ => have_ != want

/-- What an answered operation brings to the one who waits for it. -/
def deliver (o : FabOut) (r : FabResp) (s : State) : State :=
  let bad := r.status == stNotPresent || r.status == stDenied || r.status == stMalformedOp
  let lost := r.status == stNotPerformed || r.status == stUnknown
  match o.kind with
  | 0 =>
    match (s.square o.psq).tags.find? fun t => some t.id == o.sqTag with
    | none => s
    | some t =>
      if t.dead then freeTag o.psq t.id s
      else if o.lease.isSome && (bad || lost) then
        let s := if lost then loseLease (o.lease.getD 0) s else s
        contextFault o.psq o.slot fLease o.stream (t.addrs.headD 0) (freeTag o.psq t.id s)
      else if bad then contextFault o.psq o.slot fRegionBound o.stream (t.addrs.headD 0) (freeTag o.psq t.id s)
      else if t.write then wrote o.psq t s
      else
        let s := if o.watch then s.setCtx o.psq o.slot ((s.ctx o.psq o.slot).watchPage o.stream (t.addrs.headD 0 / 4096) r.gen) else s
        arrive o.psq t r.payload s
  | 1 =>
    match o.ret with
    | some a =>
      let c := s.ctx o.psq o.slot
      let gs := replyArea o r
      putPad o.psq c.shareBase (a + 32) (gs.getD 1 (Code.clean 0)) (putPad o.psq c.shareBase a (gs.getD 0 (Code.clean 0)) s)
    | none => s
  | 2 =>
    if bad || lost then contextFault o.psq o.slot fRegionBound noStream o.addr s
    else if o.opcode ≠ 1 then s
    else
      let c := s.ctx o.psq o.slot
      match c.wait, r.payload.head? with
      | .sem a v m _, some g =>
        let w := Code.value g
        if w.2 then contextFault o.psq o.slot fPoison noStream a s
        else if semHolds m (BitVec.ofNat 64 (fieldAt (granuleBytes w.1) (a % 32) 8)) v then s.setCtx o.psq o.slot { c with wait := .semSeen }
        else s.setCtx o.psq o.slot { c with wait := .sem a v m false }
      | _, _ => s
  | 4 =>
    if bad || lost then
      let s := if lost then loseLease (o.lease.getD 0) s else s
      s.modCmd o.cmd fun c => if c.status.isSome then c else { c with status := some stFault, reason := fLease, faultDev := s.deviceId }
    else if o.opcode = 1 then
      forAll ((List.range r.payload.length).zip r.payload) (fun e s => emit (.hostWrite (s.cfg.pasidOf o.burgee) (o.ret.getD 0 + 32 * e.1) e.2) s) s
    else s
  | 3 => if bad || lost then contextFault o.psq o.slot fRegionBound noStream o.addr s else s
  | _ => s

/-- An operation's last answer has come: its tag and credit are free, its flags and combining are counted, and its waiter gets what it
brought. An answer for a context that is gone is discarded (R179). -/
def answerOut (o : FabOut) (r : FabResp) (s : State) : State :=
  let s := dropOut o.id s
  let s := if r.combined then s.modCmd o.cmd fun c => { c with rolls := { c.rolls with combines := c.rolls.combines + 1 } } else s
  let s := if o.discard then s.modBurgee o.burgee fun b => { b with replyDrops := b.replyDrops + 1 }
    else
      let s := if isReduction o.opcode then raiseFlags o.cmd (r.aflags % 4) s else s
      deliver o r s
  let s := if o.discard && o.kind == 0 then match o.sqTag with
      | some t => freeTag o.psq t s
      | none => s
    else s
  let s := refillHub s
  if o.kind = 4 ∨ o.kind = 6 then s else settle o.psq o.slot s

/-- One destination has answered: the element is complete when every one has (R165). -/
def destAnswer (id src : Nat) (r : FabResp) (s : State) : State :=
  match s.hub.outs.find? (·.id == id) with
  | none => s
  | some o =>
    if !o.dests.any (·.1 == src) then s
    else
      let o := { o with dests := o.dests.filter (·.1 != src), status := if o.status = 0 then r.status else o.status }
      if o.dests.isEmpty then answerOut o { r with status := o.status } s else putOut o s

/-- The controllers and regulators let the hub perform an operation that names its own device; a stream's request drew on the regulators when its square
issued it (R123, R125). -/
def State.ownPasses (s : State) (o : FabOut) : Bool :=
  let r := o.request s.deviceId s.deviceId 0
  if o.kind = 0 then match s.homeBytes o.opcode r with
    | some (x, part) => s.passes hubRequester (some part) x o.size (o.opcode != 1) false
    | none => true
  else s.homePasses o.opcode r

/-- The hub performs an operation that names its own device (R125, R157). -/
def performOwn (o : FabOut) (s : State) : State :=
  let r := o.request s.deviceId s.deviceId 0
  let x := if o.kind = 0 then performOp o.opcode r s else performHere o.opcode r s
  destAnswer o.id s.deviceId { src := s.deviceId, tag := o.id, status := x.1.status, path := x.1.path, aflags := x.1.aflags,
                               payload := x.1.payload, combined := false, gen := x.1.gen } x.2

/-- The answer that stands for that of a home that is gone (R130, R178). -/
def lostAnswer (o : FabOut) (x : Nat) : FabResp :=
  let status := if o.opcode = 1 then 0 else if isAtomic o.opcode then stUnknown else stNotPerformed
  { src := x, tag := o.id, status := status, path := 0, aflags := 0
    payload := if o.opcode = 1 then poisonGranules (ceilDiv (o.addr % 32 + o.size) 32) else [], combined := false, gen := none }

/-- The operation's wires toward some of its destinations: one for a multicast element, one each otherwise. -/
def FabOut.wires (o : FabOut) (me : Nat) (l : List (Nat × Nat)) : List Wire :=
  if o.opcode = 3 then (if l.isEmpty then [] else [{ o.wire me 0 0 with dests := l }]) else l.map fun d => o.wire me d.1 d.2

/-- Send an operation (R165, R169, R170, R176): its requests leave with their SEQ, this device performs what names it, and for a home that is gone the answer
of R178 comes at once. -/
def sendOut (o : FabOut) (s : State) : State :=
  let me := s.deviceId
  let gone := o.dests.filter fun d => s.gone d.1
  let x := (o.dests.filter fun d => d.1 != me && !s.gone d.1).foldl (fun (a : List (Nat × Nat) × State) d =>
    let y := takeSeq d.1 o.burgee a.2
    (a.1 ++ [(d.1, y.1)], y.2)) ([], chargeSend o s)
  let o := { o with dests := x.1 ++ (o.dests.filter (·.1 == me)) ++ gone, sent := true, sentAt := s.up }
  let s := forAll (o.wires me x.1) sendWire (putOut o x.2)
  let s := if o.dests.any (·.1 == me) then performOwn o s else s
  forAll gone (fun d s => destAnswer o.id d.1 (lostAnswer o d.1) s) s

/-- The operation goes to another device, and nothing but the arbitration keeps it back: no fence or earlier request of its pair, no credit and no regulator
(R166, R169, R170, R276). -/
def State.egressReady (s : State) (o : FabOut) : Bool :=
  o.kind != 5 && !o.sent && o.dests.any (fun d => d.1 != s.deviceId && !s.gone d.1) && !s.fenced o && s.firstOfPair o &&
    o.dests.all (fun d => d.1 == s.deviceId || s.gone d.1 || s.creditFree o d.1) && s.mayDraw (s.sendDraws o)

/-- The direction whose floor an operation has at the source hub's egress: its replies for one that reads (R275). -/
def FabOut.egress (o : FabOut) : Resource := if o.reads then .fabricIn else .fabricOut

def State.outPart (s : State) (o : FabOut) : Nat := (s.cfg.partOf o.burgee).getD 0

/-- It is an operation's turn at the source hub's egress among those that are ready: the radio channel before the others (R168), then the partitions with
floor credit, one request each in rotation, then those without (R277). -/
def State.egressTurn (s : State) (o : FabOut) : Bool :=
  let ready := s.hub.outs.filter s.egressReady
  let floor := ready.filter fun f => s.hasFloor f.egress (s.outPart f)
  let l := if floor.isEmpty then ready else floor
  o.radio || (ready.all (fun f => !f.radio) && l.any (·.id == o.id) &&
    l.all fun f => decide (s.rotationOf .fabricOut (s.outPart o) ≤ s.rotationOf .fabricOut (s.outPart f)))

/-- FABRIC_REQUEST_SEND (R166, R168 to R170, R195, R196, R277): the operation leaves the hub, or is performed by it where it names its own
device. -/
def execFabricRequestSend (id : Nat) (s : State) : Result :=
  match s.hub.outs.find? (·.id == id) with
  | none => impossible "no such operation"
  | some o =>
    let me := s.deviceId
    if o.kind = 5 || o.sent || s.fenced o || !s.firstOfPair o then impossible "the operation may not leave"
    else if o.dests.any (fun d => d.1 != me && !s.gone d.1 && !s.creditFree o d.1) || !s.mayDraw (s.sendDraws o) then impossible "no credit"
    else if s.egressReady o && !s.egressTurn o then impossible "another request goes first"
    else whenServed (!o.dests.any (·.1 == me) || s.ownPasses o) (fun s =>
      .next (sendOut o (if s.egressReady o then noteServed .fabricOut (s.outPart o) s else s))) s

/-- A response reaches its source hub: the operation that its tag names, or none where an earlier response ended it. -/
def response (code : Nat) (ok : FabOut → Bool) (r : FabResp) (s : State) : Result :=
  let s := takeIn (fun w => w.opcode == code && w.src == r.src && w.tag == r.tag) s
  match s.hub.outs.find? (·.id == r.tag) with
  | none => .next s
  | some o => if o.sent && ok o then .next (destAnswer r.tag r.src r s) else .next s

/-- READ_DATA (R161): the answer of a LOAD, or the one that a generation query of a context that is gone still gets. -/
def execReadData (r : FabResp) (s : State) : Result :=
  let asks := s.hub.outs.any fun o => o.id == r.tag && o.kind == 7
  response (if asks then 0x84 else 0x80) (fun o => o.opcode == 1 || (o.kind == 7 && o.discard)) r s

/-- ATOMIC_DATA (R161). -/
def execAtomicData (r : FabResp) (s : State) : Result := response 0x81 (fun o => isAtomic o.opcode) r s

/-- ACKNOWLEDGMENT (R161, R164): the answer of stores, multicast elements, reductions and sub-command messages. -/
def execAcknowledgment (r : FabResp) (s : State) : Result := response 0x82 (fun o => o.opcode != 1 && !isAtomic o.opcode && o.kind != 7) r s

/-- A copy of an operation's request toward a device still waits at the hub for a link (R197). -/
def State.copyWaits (s : State) (id d : Nat) : Bool :=
  s.hub.waiting.any fun w => s.ownRequest w && w.tag == id && (w.dst == d || w.dests.any (·.1 == d))

/-- REQUEST_RETRANSMIT (R176): every 50 µs without an answer, with the same SEQ and RETRY set. -/
def execRequestRetransmit (id : Nat) (s : State) : Result :=
  match s.hub.outs.find? (·.id == id) with
  | none => impossible "no such operation"
  | some o =>
    let far := o.dests.filter fun d => d.1 != s.deviceId && !s.gone d.1 && !s.copyWaits id d.1
    if !o.sent || s.up < o.sentAt + 50000 || far.isEmpty then impossible "the request is not due"
    else
      let o := { o with retries := o.retries + 1, sentAt := s.up }
      .next (forAll (o.wires s.deviceId far) sendWire (countHub 2 (putOut o s)))

-- ───────────────────────── the operation window (R159, R160, R166)

/-- Operand granules that follow a header with this SIZE field (R160). -/
def operandGranules (op target sizeField : Nat) : Nat :=
  if op = 0x30 then 0 else if op = 0x11 then 2 else if isAtomic op then 1 else ceilDiv (target % 32 + sizeField + 1) 32

/-- A header breaks the table of R160 or the operation table (R159, R162). -/
def badHeader (h : List Byte) : Bool :=
  let op := fieldAt h 0 1
  let fmt := fieldAt h 1 1
  let n := fieldAt h 2 1 + 1
  let fl := fieldAt h 3 1
  let ret := fieldAt h 4 4
  let t := fieldAt h 8 8
  7 < fmt || decide (4 ≤ fl) || !allZero (h.drop 16) || (!bit fl 0 && ret != 0) || ret % 64 != 0 ||
    (if op = 0x30 then fmt != 0 else !(op == 0x02 || isAtomic op || isReduction op) || !fabReservedZero t || !wellSized op fmt (fabOffset t) n)

/-- Place the fence of a FENCE header or instruction (R67, R166): `stalls` where the context waits for it. -/
def placeFence (p slot : Nat) (stalls : Bool) (upTo : Nat) (s : State) : State :=
  let c := s.ctx p slot
  (newOut { id := 0, kind := 5, opcode := 0x30, dests := [], burgee := c.burgee, radio := s.radioBurgee c.burgee, addr := 0, size := 0, fmt := 0
            payload := [], noCombine := false, watch := stalls, sent := false, sentAt := 0, retries := 0, cmd := c.cmd, psq := p, slot := slot
            sqTag := some upTo, stream := noStream, ret := none, discard := false, group := 0, lease := none, status := 0 } s).2

/-- The operation that a header and its operands spell (R160), from the window write with a tag. -/
def windowOut (p slot i tag : Nat) (h : List Byte) (operands : List Granule) (s : State) : FabOut :=
  let c := s.ctx p slot
  let t := fieldAt h 8 8
  { id := 0, kind := 1, opcode := fieldAt h 0 1, dests := [(fabDevice t, 0)], burgee := c.burgee, radio := s.radioBurgee c.burgee, addr := t
    size := fieldAt h 2 1 + 1, fmt := fieldAt h 1 1, payload := operands, noCombine := bit (fieldAt h 3 1) 1, watch := false, sent := false
    sentAt := 0, retries := 0, cmd := c.cmd, psq := p, slot := slot, sqTag := some tag, stream := i
    ret := if bit (fieldAt h 3 1) 0 then some (fieldAt h 4 4) else none, discard := false, group := 0, lease := none, status := 0 }

/-- OPERATION_WINDOW_WRITE (R158 to R160, R166, R328): the granule that a stream's oldest window tag carries joins the operation that the hub
assembles; a whole operation enters the hub. -/
def execOperationWindowWrite (r : CtxRef) (i addr : Nat) (g : Granule) (s : State) : Result :=
  match s.physOf r.sq with
  | none => impossible "no such square"
  | some p =>
    match (s.square p).tags.find? fun t => t.slot == r.slot && t.stream == i && t.kind == 5 && !t.dead with
    | none => impossible "no window write is on its way"
    | some t =>
      if t.back.head? ≠ some g ∨ t.addrs.head? ≠ some addr then impossible "another granule comes first"
      else
        let key := ctxKey p r.slot * 16 + i
        let have_ := Assoc.get s.hub.windows key []
        let all := have_ ++ [g]
        let h := granuleBytes (Code.value (all.headD (Code.clean 0))).1
        let c := s.ctx p r.slot
        let rest := { t with back := t.back.drop 1, addrs := t.addrs.drop 1 }
        let q := s.square p
        let taken := s.setSquare p { q with tags := q.tags.map fun u => if u.id = t.id then rest else u }
        let ret := fieldAt h 4 4
        let need := operandGranules (fieldAt h 0 1) (fieldAt h 8 8) (fieldAt h 2 1)
        if addr ≠ opWindow + 32 * i then .next (contextFault p r.slot fRegionBound i addr s)
        else if have_.isEmpty ∧ isPoisoned g then .next (contextFault p r.slot fPoison i addr s)
        else if have_.isEmpty ∧ badHeader h then .next (contextFault p r.slot fIllegal i addr s)
        else if have_.isEmpty ∧ bit (fieldAt h 3 1) 0 ∧ !c.inShare ret 64 then .next (contextFault p r.slot fShareBound i ret s)
        else
          let over_ := decide (need < all.length)
          if over_ && s.ahead p r.slot t.id then impossible "an earlier request of the context waits in its square"
          else if over_ && fieldAt h 0 1 != 0x30 && fabDevice (fieldAt h 8 8) != s.deviceId && !s.hubRoom c.burgee then
            impossible "the request waits for a hub tag"
          else
            let s := { taken with hub := { taken.hub with
              windows := if over_ then Assoc.erase taken.hub.windows key else Assoc.set taken.hub.windows key all } }
            let s := if !over_ then s
              else if fieldAt h 0 1 = 0x30 then placeFence p r.slot false t.id s
              else
                let s := if fieldAt h 0 1 = 0x20 ∧ fieldAt h 1 1 ≠ 1 then breakReplay c.cmd s else s
                (newOut (windowOut p r.slot i t.id h (all.drop 1) s) s).2
            .next (refillHub (if rest.back.isEmpty then wrote p rest s else settle p r.slot s))

-- ───────────────────────── forwarding and combining (R165, R172, R173, R195 to R197)

/-- The request may open or join a combine entry (R172): a repeated one and one whose operand came with an error never do (assumption 131). -/
def mayCombine (m : Wire) : Bool :=
  combinable m.opcode && m.vc == 0 && m.parts.isEmpty && decide (m.held < 2) && (m.opcode == 1 || decide (m.size < 8)) && !m.retry &&
    m.payload.all fun g => Code.residue g == 0 && !isPoisoned g

/-- A request identical to those of an entry whose window runs (R172). -/
def State.joins (s : State) (m : Wire) (e : CombineEntry) : Bool :=
  e.opcode == m.opcode && e.dst == m.dst && e.addr == m.addr && e.size == m.size + 1 && e.fmt == m.fmt && !e.sent &&
    decide (s.up < e.openAt + s.hub.combineNs.toNat)

/-- The constituent that a request becomes: its operand is the 8 bytes of R167. -/
def partOf (m : Wire) : CombinePart :=
  { src := m.src, burgee := m.burgee, seq := m.seq, tag := m.tag, bad := false
    data := if m.opcode = 1 then [] else fitTo 8 (payloadBytes m.payload 0 (m.size + 1)) }

/-- A request opens a combine entry of this router (R172). -/
def openEntry (m : Wire) (s : State) : State :=
  let used := s.hub.combines.map (·.id)
  { s with hub := { s.hub with combines := s.hub.combines ++ [{
    id := firstFree used used.length 0, opcode := m.opcode, dst := m.dst, addr := m.addr, size := m.size + 1, fmt := m.fmt, held := m.held, openAt := s.up
    parts := [partOf m], first := m, sent := false }] } }

/-- REQUEST_FORWARD (R165, R172, R195). -/
def execRequestForward (m : Wire) (s : State) : Result :=
  if m.dests.any (·.1 == s.deviceId) || (m.dests.isEmpty && m.dst == s.deviceId) then impossible "the message is for this device"
  else
    let s := takeIn (fun w => { w with watch := m.watch, gen := m.gen } == m) s
    if !mayCombine m || s.hub.combineNs = 0 then .next (sendWire m s)
    else match s.hub.combines.find? (s.joins m) with
      | none => .next (openEntry m s)
      | some e =>
        if 16 ≤ e.parts.length ∨ e.parts.any (fun q => q.src == m.src && q.burgee == m.burgee) then .next (sendWire m s)
        else
          let join := fun (x : CombineEntry) => if x.id = e.id then
            { x with parts := x.parts ++ [partOf m], first := { x.first with watch := x.first.watch || m.watch } } else x
          .next { s with hub := { s.hub with combines := s.hub.combines.map join } }

/-- The message that a closed entry becomes (R167, R172): the combined request of the router, or its one request held once more. -/
def CombineEntry.close (e : CombineEntry) (me : Nat) : Wire :=
  if e.parts.length < 2 then { e.first with held := e.held + 1 }
  else { e.first with src := me, seq := 0, tag := e.id, payload := [], parts := e.parts }

/-- COMBINE_WINDOW_CLOSE (R172, R174). -/
def execCombineWindowClose (entry : Nat) (s : State) : Result :=
  match s.hub.combines.find? fun e => e.id == entry && !e.sent with
  | none => impossible "no such entry"
  | some e =>
    if s.up < e.openAt + s.hub.combineNs.toNat then impossible "the window is open"
    else
      let two := decide (2 ≤ e.parts.length)
      let combines := if two then s.hub.combines.map fun x => if x.id = entry then { x with sent := true } else x
        else s.hub.combines.filter (·.id != entry)
      .next (sendWire (e.close s.deviceId) { s with hub := { s.hub with
        combines := combines, combineCnt := if two then satAdd 64 s.hub.combineCnt 1 else s.hub.combineCnt } })

/-- The replies that the constituents would have had one after another, from the value before the first (R173). -/
def rebuild (op fmt n : Nat) (bad : Bool) : List CombinePart → Nat → List (CombinePart × Granule × Nat)
  | [], _ => []
  | q :: t, old =>
    let x := atomicResult op fmt n old q.data
    (q, oldValue (leBytes n old) bad, x.2) :: rebuild op fmt n bad t (x.1.getD old)

/-- COMBINED_DATA (R173, R180): each constituent gets its own reply, with its SEQ and tag and COMBINED set; that of a source that is gone is discarded. -/
def execCombinedData (entry : Nat) (r : FabResp) (s : State) : Result :=
  let s := takeIn (fun w => w.opcode == 0x83 && w.src == r.src && w.tag == entry) s
  match s.hub.combines.find? fun e => e.id == entry && e.sent with
  | none => .next s
  | some e =>
    let s := { s with hub := { s.hub with combines := s.hub.combines.filter (·.id != entry) } }
    let one := fun (q : CombinePart) (pl : List Granule) (fl : Nat) (s : State) => if s.gone q.src then s else
      dispatch { opcode := respCode e.opcode, vc := 1, combined := true, size := e.size - 1, fmt := r.status, src := r.src, dst := q.src, burgee := q.burgee
                 aflags := fl, seq := q.seq, addr := e.addr, tag := q.tag, payload := pl, gen := r.gen } s
    if e.opcode = 1 ∨ r.payload.isEmpty then .next (forAll e.parts (fun q s => one q r.payload 0 s) s)
    else
      let v := Code.value (r.payload.headD (Code.clean 0))
      let old := leNat ((granuleBytes v.1).take e.size)
      .next (forAll (rebuild e.opcode e.fmt e.size v.2 e.parts old) (fun x s => one x.1 [x.2.1] x.2.2 s) s)

/-- A multicast request as it goes on. -/
def multicastWire (r : FabReq) (group : Nat) (l : List (Nat × Nat)) : Wire :=
  { opcode := 3, vc := reqVc r.radio, retry := r.retry, size := r.size - 1, fmt := r.fmt, src := r.src, dst := 0, burgee := r.burgee, addr := r.addr
    tag := r.tag, group := group, dests := l, payload := r.payload }

/-- MSTORE (R165): the copy for this device is performed in the source's SEQ order, the rest goes on, one copy per link. -/
def execMstore (r : FabReq) (dests : McastDests) (s : State) : Result :=
  let s := takeIn (fun w => w.opcode == 0x03 && w.src == r.src && w.tag == r.tag) s
  let far := dests.l.filter (·.1 != s.deviceId)
  let s := if far.isEmpty then s else sendWire (multicastWire r dests.group far) s
  match dests.l.find? (·.1 == s.deviceId) with
  | none => .next s
  | some d => homeTurn 0x03 { r with seq := d.2 } s

end Sys2Proof.Machine
end

