-- ==== Sys2Proof/Machine/Access.lean ====
section
/-! DEFINITION. The access engine (R115 to R130): which request it issues next, where the request goes, its tag and its limits, replies
and acknowledgments, and the requests that a full bank queue holds back. -/

namespace Sys2Proof.Machine

/-- Where a request goes: its tag's kind with the other devices, or the fault that an address gives. -/
inductive Target where
  | go (kind : Nat) (dests : List Nat)
  | bad (reason addr : Nat)

/-- The multicast group that a base address names (R115, R165). -/
def HoistCfg.group (cfg : HoistCfg) (part base : Nat) : Option McastGroup :=
  cfg.mcast.find? fun g => g.part == part && g.id == base / 2 ^ 48

/-- The checks of a request's granule addresses before it is issued (R120, R295, R297), in the order of R69. Those outside the own share follow one
another. -/
def State.target (s : State) (c : Ctx) (t : Stream) (l : List Nat) : Target :=
  let a := l.headD 0
  match t.endpoint with
  | 0 =>
    if leaseWindow ≤ a ∧ a < leaseWindowEnd then
      match s.cfg.leaseOf c.burgee a with
      | none => .bad fRegionBound a
      | some (e, _) =>
        if a % 32 ≠ 0 then .bad fMisalign a
        else if s.hub.lostLeases.any (·.1 == leaseKey e) then .bad fLease a
        else .go 4 [e.peer]
    else if !s.cfg.owns c.burgee a (32 * l.length) then .bad fRegionBound a
    else if a % 32 ≠ 0 then .bad fMisalign a
    else .go 0 []
  | 1 =>
    if !fabReservedZero a then .bad fRegionBound a
    else if a % 32 ≠ 0 then .bad fMisalign a
    else if fabDevice a = s.deviceId ∧ t.writes ∧ opWindow ≤ fabOffset a ∧ fabOffset a < opWindow + 512 then .go 5 []
    else .go 3 [fabDevice a]
  | 2 =>
    match l.find? fun x => !c.inShare x 32 with
    | some x => .bad fShareBound x
    | none => match l.find? (· % 32 != 0) with
      | some x => .bad fMisalign x
      | none => .go 1 []
  | _ =>
    match s.cfg.group ((s.cfg.partOf c.burgee).getD 0) t.base with
    | none => .bad fRegionBound a
    | some g => if a % 32 ≠ 0 then .bad fMisalign a else .go 3 g.dests

/-- The index of a gather's next element, if it is there, and whether its granule is poisoned (R117). -/
def Ctx.nextIndex (c : Ctx) (t : Stream) : Option (Nat × Bool) :=
  if !t.indexed then some (0, false)
  else match t.indices with
    | x :: _ => some (x, false)
    | [] => match c.queue t.indexQ with
      | e :: _ => let v := Code.value e.g; some (fieldAt (granuleBytes v.1) 0 4, v.2)
      | [] => none

/-- The eight indices of a granule (R117). -/
def indicesOf (g : Granule) : List Nat := (List.range 8).map fun k => fieldAt (granuleBytes (Code.value g).1) (4 * k) 4

/-- Granules of a stream that are on their way to its queue. -/
def Square.inFlight (q : Square) (slot i : Nat) : Nat :=
  ((q.tagsOf slot i).filter (fun t => !t.write)).foldl (fun n t => n + t.addrs.length) 0

/-- The granule addresses of a stream's next request, and whether it ends its element. -/
def Ctx.nextRun (c : Ctx) (t : Stream) (idx : Nat) : List Nat × Bool :=
  let l := t.parts (c.elemGranules t t.issued idx)
  (l.getD t.part [], decide (l.length ≤ t.part + 1))

/-- Granules of the current element that earlier parts of it took. -/
def Ctx.partStart (c : Ctx) (t : Stream) (idx : Nat) : Nat :=
  (((t.parts (c.elemGranules t t.issued idx)).take t.part).map (·.length)).sum

/-- MULTICAST addresses carry the group's base offset (R165). -/
def State.wireAddrs (s : State) (c : Ctx) (t : Stream) (l : List Nat) : List Nat :=
  if t.endpoint ≠ 3 then l
  else match s.cfg.group ((s.cfg.partOf c.burgee).getD 0) t.base with
    | some g => l.map fun a => fabOffset (fabOffset a + g.base)
    | none => l

/-- The tower key of a request that this device performs in its own tower window by a fabric address (R125). -/
def State.ownTower (s : State) (dests : List Nat) (a : Nat) : Option Nat :=
  if dests.contains s.deviceId ∧ fabOffset a < towerWindow then some (s.cfg.key (fabOffset a)) else none

/-- The bank that a request goes to, if it goes to a tower of this device. -/
def State.bankFor (s : State) (kind : Nat) (dests : List Nat) (a : Nat) : Option Nat :=
  if kind = 0 then some (bankOfKey (s.cfg.key a)) else if kind = 3 then (s.ownTower dests a).map bankOfKey else none

/-- The resources that a request uses, with its bytes (R275). -/
def State.issueMoves (s : State) (t : Stream) (kind : Nat) (dests : List Nat) (a n : Nat) : List (Resource × Nat) :=
  let far := (dests.filter (· != s.deviceId)).length
  ((s.bankFor kind dests a).toList.map fun b => (.tower (chanId (b / 16)), n)) ++
    (if far = 0 then [] else if t.writes then [(.fabricOut, n * far)] else [(.fabricIn, n)])

/-- The buckets that a request draws on when it is issued (R123, R276, R296). -/
def State.issueDraws (s : State) (b : Nat) (t : Stream) (kind : Nat) (dests : List Nat) (a n : Nat) : List Draw :=
  ((s.issueMoves t kind dests a n).flatMap fun m => s.draws b m.1 m.2) ++ match s.cfg.leaseOf b a with
    | some (l, _) => if kind = 4 then [leaseDraw l n] else []
    | none => []

/-- Charge an issued request to the regulators (R276). -/
def chargeIssue (b : Nat) (t : Stream) (kind : Nat) (dests : List Nat) (a n : Nat) (s : State) : State :=
  forAll (s.issueMoves t kind dests a n) (fun m s => takeFloor b m.1 m.2 s) (takeDraws (s.issueDraws b t kind dests a n) s)

/-- A tag counts against a tower channel (R122): a request to a tower of this device whose data has not come. -/
def Tag.onChannel (me ch : Nat) (g : Tag) : Bool :=
  (g.kind == 0 || (g.kind == 3 && g.dests.contains me && decide (fabOffset (g.addrs.headD 0) < towerWindow))) && g.bank / 16 == ch

/-- Room under every limit of R122, where data that has arrived holds no tag, and bytes in the regulators' buckets (R123). -/
def State.hasRoom (s : State) (p slot i : Nat) (t : Stream) (kind : Nat) (dests : List Nat) (a n : Nat) : Bool :=
  let tags := (s.square p).tags.filter (!·.ready)
  let limit := if t.maxTags = 0 then 128 else t.maxTags
  decide (tags.length < 512) && decide ((tags.filter fun g => g.slot == slot && g.stream == i && !g.dead).length < limit) &&
    ((s.bankFor kind dests a).all fun b => decide ((tags.filter (Tag.onChannel s.deviceId (b / 16))).length < 128)) &&
    dests.all (fun d => d == s.deviceId || decide ((tags.filter fun g => g.dests.contains d).length < 256)) &&
    s.mayDraw (s.issueDraws (s.ctx p slot).burgee t kind dests a n)

/-- What a stream would issue now: nothing, nothing because its inbound queue is full or because a limit or a regulator holds it back, a fault of its
context, or a request. -/
inductive Plan where
  | wait
  | full
  | held
  | fault (reason detail : Nat)
  | issue (idx kind : Nat) (dests addrs : List Nat) (ends : Bool)

/-- The plan of stream `i` (R117, R118, R120, R122, R123). -/
def State.plan (s : State) (p slot i : Nat) : Plan :=
  let c := s.ctx p slot
  match c.streams[i]? with
  | none => .wait
  | some t =>
    if !c.active || !c.running i || t.stopped || t.total ≤ t.issued then .wait
    else match c.nextIndex t with
    | none => .wait
    | some (idx, poisoned) =>
      let r := c.nextRun t idx
      let k := r.1.length
      if t.dir = 0 ∧ 64 < c.occupancy t.queue + (s.square p).inFlight slot i + k then .full
      else if t.dir = 1 ∧ c.occupancy t.queue + c.partStart t idx < t.elem then .wait
      else if poisoned then .fault fPoison 0
      else
        let place := t.shareAddr + 32 * (t.issued * t.elem + c.partStart t idx)
        match s.target c t r.1 with
        | .bad f x => .fault f x
        | .go kind dests =>
          let l := s.wireAddrs c t r.1
          if t.viaShare && !c.inShare place (32 * k) then .fault fShareBound place
          else if s.hasRoom p slot i t kind dests (l.headD 0) (32 * k) then .issue idx kind dests l r.2 else .held

/-- The mark of what keeps a stream's next request back (R129): 1 its full queue, 2 a limit or a regulator. -/
def Plan.mark : Plan → Nat
  | .full => 1
  | .held => 2
  | _ => 0

/-- Mark a stream, and count the cycles of a mark that ends (R129). -/
def markStream (p slot i : Nat) (s : State) : State :=
  match (s.ctx p slot).streams[i]? with
  | none => s
  | some t =>
    let m := (s.plan p slot i).mark
    if t.blocked = m then s
    else
      let s := s.setCtx p slot ((s.ctx p slot).modStream i fun t => { t with blocked := m })
      if t.blocked = 1 then countFull p slot i s else if t.blocked = 2 then countHeld p slot i s else s

/-- Mark every stream of a square's contexts. -/
def markStreams (p : Nat) (s : State) : State :=
  forAll ((List.range 8).flatMap fun k => (List.range 16).map fun i => (k, i)) (fun e s => markStream p e.1 e.2 s) s

/-- A tower request enters its bank queue; a write makes what scrubs of its granules would write back old (R124, R145, R152). -/
def enterBank (p id : Nat) (s : State) : State :=
  match (s.square p).tags.find? (·.id == id) with
  | none => s
  | some t =>
    let q := s.square p
    let kept := (s.bankEntry t.bank (s.cfg.partOf (s.ctx p t.slot).burgee)).getD false
    let s := joinBank t.bank { sq := p, tag := id, kept := kept } (s.setSquare p { q with
      tags := q.tags.map fun u => if u.id = id then { u with held := false } else u })
    if t.write then outdate s.cfg.key (t.addrs.map fun a => (a, 32)) s else s

/-- Take the stream's granules for a write: from its queue, or from its share (R118). -/
def takeWrite (p : Nat) (c : Ctx) (i : Nat) (t : Stream) (place k : Nat) (s : State) : List Granule × Ctx :=
  let count := fun (c : Ctx) => c.count i fun m => { m with fetched := satAdd 64 m.fetched (32 * k), used := satAdd 64 m.used (32 * k) }
  if t.dir = 1 then (((c.queue t.queue).take k).map (·.g), count (c.setQueue t.queue ((c.queue t.queue).drop k)))
  else if t.dir = 3 then
    ((List.range k).map fun j => getPad s p c.shareBase (place + 32 * j),
      (count (c.markRead place (32 * k))).modStream i fun t => { t with moved := t.moved + k })
  else ([], c)

/-- The controller or the hub turns a new request away (R124, R125), or one of its context stands before it (R170). -/
def State.turnsAway (s : State) (p : Nat) (g : Tag) : Bool :=
  if g.kind = 0 then
    (s.bankEntry g.bank (s.cfg.partOf (s.ctx p g.slot).burgee)).isNone || !s.turnOf g.bank p ||
      (s.square p).tags.any fun u => u.kind == 0 && u.held && u.bank == g.bank
  else if g.kind = 3 ∨ g.kind = 4 then !s.hubTakes (outOfTag p g s) || s.ahead p g.slot g.id
  else false

/-- Issue a request (R122 to R125); a write to the own share is performed with it. -/
def issueRequest (p slot i idx kind : Nat) (dests addrs : List Nat) (ends : Bool) (s : State) : State :=
  let c := s.ctx p slot
  match c.streams[i]? with
  | none => s
  | some t =>
    let k := addrs.length
    let first := t.issued * t.elem + c.partStart t idx
    let place := t.shareAddr + 32 * first
    let a := addrs.headD 0
    let fresh := t.indexed && t.part == 0 && t.indices.isEmpty
    let c := if fresh then match c.queue t.indexQ with
        | e :: rest => ((c.setQueue t.indexQ rest).countUsed [e]).modStream i fun t => { t with indices := indicesOf e.g }
        | [] => c
      else c
    let w := takeWrite p c i t place k s
    let step := fun (t : Stream) => if ends then { t with part := 0, issued := t.issued + 1, indices := t.indices.drop 1 } else { t with part := t.part + 1 }
    let c := { (w.2.modStream i step) with lastStream := i }
    let q := s.square p
    let tag : Tag := {
      id := q.nextTag, slot, stream := i, write := t.writes, kind, dests, addrs, place, first, bank := (s.bankFor kind dests a).getD 0, held := false
      hub := none, last := ends && decide (t.total ≤ t.issued + 1), dead := false, back := w.1, ready := false }
    let s := chargeIssue c.burgee t kind dests a (32 * k) (s.setCtx p slot c)
    let full := s.turnsAway p tag
    let s := s.setSquare p { q with tags := q.tags ++ [{ tag with held := full }], nextTag := q.nextTag + 1, lastSlot := slot }
    if full then s
    else match kind with
      | 0 => enterBank p tag.id s
      | 1 => if t.writes then forAll (addrs.zip w.1) (fun e s => putPad p c.shareBase e.1 e.2 s) s else s
      | 3 | 4 => enterHub p tag s
      | _ => s

/-- The streams of a square in the order of the rotation over contexts and, in each, over its streams (R123). -/
def State.streamOrder (s : State) (psq : Nat) : List (Nat × Nat) :=
  (List.range 8).flatMap fun k =>
    let slot := ((s.square psq).lastSlot + 1 + k) % 8
    (List.range 16).map fun j => (slot, ((s.ctx psq slot).lastStream + 1 + j) % 16)

/-- The next stream that issues, with its plan. -/
def State.nextPlan (s : State) (psq : Nat) : Option (Nat × Nat × Plan) :=
  (s.streamOrder psq).findSome? fun e => match s.plan psq e.1 e.2 with
    | .fault f x => some (e.1, e.2, .fault f x)
    | .issue idx kind dests addrs ends => some (e.1, e.2, .issue idx kind dests addrs ends)
    | _ => none

/-- ACCESS_REQUEST_ISSUE (R123): the next context after the last one served, in it the next stream after the last one served, that has
a request ready and room for it. A cycle in which no stream is ready issues nothing. -/
def execAccessRequestIssue (psq : Nat) (s : State) : Result :=
  if 180 ≤ psq ∨ (s.square psq).gated ∨ s.pwr.issueStop then impossible "the engine does not run"
  else
    let s := markStreams psq (forAll ((List.range 8).filter fun k => (s.ctx psq k).active) (sweep psq) s)
    match s.nextPlan psq with
    | some (slot, i, .fault reason detail) => .next (contextFault psq slot reason i detail s)
    | some (slot, i, .issue idx kind dests addrs ends) => .next (sweep psq slot (issueRequest psq slot i idx kind dests addrs ends s))
    | _ => .next s

-- ───────────────────────── replies

/-- Reduce the errors of the spans of a tower request to its codewords as physics left them. -/
def towerGranules (t : Tag) (upset : List Upset) (s : State) : List Granule × State :=
  let n := 32 * t.addrs.length
  let a := t.addrs.headD 0
  let s := disturbSpan a n upset s
  let v := readDev a n s
  (t.addrs.map fun x => s.tower.granule (s.cfg.key x), v.2)

/-- A burst-time counter agrees with this end's (R131, R133): five burst times pass in 1 ns (assumption 133). -/
def State.inStep (s : State) (counter : BitVec 16) : Bool := (List.range 5).any fun k => counter == BitVec.ofNat 16 (5 * s.up + k)

/-- The channel issues the transfer of a queued request now (R145, R149, R277), and no earlier one of its bank that touches the same granules stands before
it, where one of them writes (R119, R152). -/
def State.issues (s : State) (p : Nat) (t : Tag) : Bool := s.runs (t.bank / 16) && s.issuable p t && s.channelTurn (t.bank / 16) (s.tagPart p t)

/-- STREAM_READ_REPLY (R118, R126, R127, R130, R147, R152): the data of a request to a tower or to the own share. Errors that physics left are corrected
by the consumer (R137). `counter` is the burst-time counter that came with the data, `again` the one that came with the repeated read where the first
disagrees; if it disagrees too the granules are returned as read and the channel retrains. -/
def execStreamReadReply (psq tag : Nat) (upset : List Upset) (timing : BurstTiming) (s : State) : Result :=
  match (s.square psq).tags.find? (·.id == tag) with
  | none => impossible "no such tag"
  | some t =>
    let ch := t.bank / 16
    let c := s.ctx psq t.slot
    if t.write || t.held || t.ready || decide (1 < t.kind) then impossible "no such read is under way"
    else if t.kind = 0 then whenServed (s.issues psq t) (fun s =>
      let r := towerGranules t upset (leaveBank t.bank psq tag (noteServed (.tower (chanId ch)) (s.tagPart psq t) s))
      let s := if s.inStep timing.counter then r.2
        else
          let x := alignError ch false r.2
          if s.inStep timing.again then x else alignError ch true x
      if t.dead then .next (freeTag psq tag s)
      else
        let a := t.addrs.headD 0
        let s := s.setCtx psq t.slot ((s.ctx psq t.slot).watchPage t.stream (a / 4096) (s.genOf a))
        .next (arrive psq t r.1 s)) s
    else if t.dead then .next (freeTag psq tag s)
    else
      let s := s.setCtx psq t.slot (c.watchPage t.stream 0 none)
      .next (arrive psq t (t.addrs.map fun a => getPad s psq c.shareBase a) s)

/-- STREAM_WRITE_ACK (R118, R130, R152): a write to a tower is performed and acknowledged, or one to the own share acknowledged. Where the tower finds its
burst-time counter out of step it rejects the burst, and the controller will issue it again before any later write to the same granules. -/
def execStreamWriteAck (psq : Nat) (burst : WriteBurst) (s : State) : Result :=
  let tag := burst.id
  match (s.square psq).tags.find? (·.id == tag) with
  | none => impossible "no such tag"
  | some t =>
    let ch := t.bank / 16
    let done := fun (s : State) => if t.dead then freeTag psq tag s else wrote psq t s
    if !t.write || t.held || decide (1 < t.kind) then impossible "no such write is under way"
    else if t.kind = 0 then whenServed (s.issues psq t) (fun s =>
      let x := noteServed (.tower (chanId ch)) (s.tagPart psq t) s
      if s.inStep burst.counter then .next (done (putDev (t.addrs.headD 0) t.back (leaveBank t.bank psq tag x)))
      else .next (alignError ch false x)) s
    else .next (done s)

-- ───────────────────────── held requests (R124)

/-- A context of a square whose END or SIGNALSEM waited for a bank and can go on. -/
def State.settling (s : State) (bank p : Nat) : Option Nat := (List.range 8).find? fun k => s.needsBank p k bank && s.settles p k

/-- A request in the hub waits for a bank and can be performed: its place in the home's buffer. -/
def State.homeFor (s : State) (bank : Nat) : Bool :=
  s.hub.homeWait.any fun h => s.homeReady h && (s.homeBytes h.opcode h.req).any fun x => (s.cfg.banksOf x.1 h.req.size true false).any (·.1 == bank)

/-- The first host access that waits for a bank and passes now. -/
def State.hostFor (s : State) (bank : Nat) : Bool := match s.tow.hostWait with
  | x :: _ => s.hostPasses x && (s.cfg.banksOf x.span.1 x.span.2.1 x.span.2.2 false).any (·.1 == bank)
  | [] => false

/-- Serve the requests that one requester has waiting for a bank. -/
def serveHeld (bank q : Nat) (s : State) : Option State :=
  if q < hubRequester then match s.heldTag bank q with
    | some t => some (enterBank q t.id (if t.dead then s else countHeld q t.slot t.stream s))
    | none => (s.settling bank q).map fun k => settle q k s
  else if s.homeFor bank then some (drainHome s.hub.homeWait.length s)
  else if s.hostFor bank then match s.tow.hostWait with
    | x :: rest => some (performHost x { s with tow := { s.tow with hostWait := rest } })
    | [] => none
  else none

/-- HELD_REQUEST_ADMIT (R124): a bank with room takes the oldest held request of the next requester in rotation, a square or the hub. -/
def execHeldRequestAdmit (bank : Nat) (s : State) : Result :=
  match (s.rotation bank).findSome? fun q => (serveHeld bank q s).map fun t => rotate bank q t with
  | some t => .next t
  | none => impossible "the bank takes no held request"

end Sys2Proof.Machine
end

