-- ==== Sys2Proof/Machine/EnergyPools.lean ====
section
/-! DEFINITION. Energy pools and admission (R344 to R356). Pools and claims are counted in µJ. -/

namespace Sys2Proof.Machine

/-- TIME cycles of an energy window (R344). -/
def windowCycles : Nat := 10000000

/-- Tenant reserves of the POWER record in force (R347). -/
def State.tenantReserves (s : State) : List (Nat × Nat) := s.energy.power.reserves

def State.sumReserves (s : State) : Nat := (s.tenantReserves.map (·.2)).sum

/-- Reserve of a partition before scaling, in mJ. -/
def State.reserveOf (s : State) (p : Nat) : Nat :=
  if p = 0 then s.energy.power.radioMj else ((s.tenantReserves.find? (·.1 == p)).map (·.2)).getD 0

/-- The reserves are scaled down under a budget (R347). -/
def State.scaledDown (s : State) (budget : Nat) : Bool := decide (budget - s.energy.power.radioMj < s.sumReserves)

/-- Pool size of a partition's reserve under a budget, in µJ (R347). -/
def State.poolSize (s : State) (budget p : Nat) : Nat :=
  let r := s.reserveOf p
  if p ≠ 0 ∧ s.scaledDown budget then r * 1000 * (budget - s.energy.power.radioMj) / max 1 s.sumReserves else r * 1000

/-- Size of the common pool under a budget, before a carried deficit (R347). -/
def State.commonSize (s : State) (budget : Nat) : Nat :=
  if s.scaledDown budget then 0 else (budget - s.energy.power.radioMj - s.sumReserves) * 1000

/-- Claims of the commands on a window: (partition, from its reserve, from the common pool). -/
def State.claimsOn (s : State) (w : Nat) : List (Nat × Nat × Nat) :=
  s.sched.cmds.flatMap fun c => (c.2.claims.filter (·.1 == w)).map fun x => ((s.cfg.partOf c.2.burgee).getD 0, x.2.1, x.2.2)

/-- The common pool admits nothing new while a die is at 110 °C or more (R361). -/
def State.commonShut (s : State) : Bool := !s.energy.pace50.isEmpty

/-- What a window has for a partition: its reserve and the common pool (R351). A window not yet begun is projected from the present
one's pools less the claims that already lie on it. -/
def State.available (s : State) (w p : Nat) : Nat × Nat :=
  let x := if w = s.energy.window then (Assoc.get s.energy.poolRes p 0, s.energy.common)
    else
      let l := s.claimsOn w
      (s.poolSize s.energy.budget p - ((l.filter (·.1 == p)).map (·.2.1)).sum, s.commonSize s.energy.budget - (l.map (·.2.2)).sum)
  (x.1, if s.commonShut then 0 else x.2)

/-- The parts of a span of `dur` cycles from now that fall in the present window and the seven after it (R351). -/
def State.overlaps (s : State) (dur : Nat) : List (Nat × Nat) :=
  (List.range 8).map fun k =>
    let lo := if k = 0 then s.up else s.energy.due + (k - 1) * windowCycles
    let hi := s.energy.due + k * windowCycles
    (s.energy.window + k, min hi (s.up + dur) - max lo s.up)

/-- A charge spread evenly over the span (R351): (window, µJ); what rounding leaves falls on the present window. -/
def State.spreadCharge (s : State) (charge dur : Nat) : List (Nat × Nat) :=
  let l := (s.overlaps dur).map fun e => (e.1, if dur = 0 then 0 else charge * e.2 / dur)
  let rest := charge - (l.map (·.2)).sum
  (l.map fun e => if e.1 = s.energy.window then (e.1, e.2 + rest) else e).filter (·.2 != 0)

/-- The share of a command's estimate that lies on this device (R351). -/
def State.localEstimate (s : State) (d : Cmd) : Nat :=
  let total := s.cfg.squareCount d.board
  let own := (s.cfg.leaves d.board).length
  if d.opcode = 1 ∧ s.cfg.spansDevices d.board ∧ total ≠ 0 then d.energyUj * own / total else d.energyUj

/-- The charge that this device claims: the estimate, times 1.5 under penalty (R351, R354). -/
def State.localCharge (s : State) (d : Cmd) : Nat :=
  let base := s.localEstimate d
  if (s.burgee d.burgee).penalty then base * 3 / 2 else base

/-- A claim draws on the reserve first and then on the common pool (R352). -/
def splitClaim (res amount : Nat) : Nat × Nat := (min res amount, amount - min res amount)

/-- Every window's claim fits (R351). -/
def State.claimFits (s : State) (p : Nat) (l : List (Nat × Nat)) : Bool :=
  l.all fun e => let a := s.available e.1 p; decide (e.2 ≤ a.1 + a.2)

/-- Draw an amount of the present window from a partition's reserve, then the common pool; what they cannot cover is a deficit (R353,
R354). -/
def drawPools (p amount : Nat) (s : State) : State :=
  let r := Assoc.get s.energy.poolRes p 0
  let a := splitClaim r amount
  let c := min s.energy.common a.2
  { s with energy := { s.energy with poolRes := Assoc.set s.energy.poolRes p (r - a.1), common := s.energy.common - c, deficit := s.energy.deficit + (a.2 - c) } }

/-- Take a command's claims (R351, R352): the present window's come off its pools now, and PWR_USED counts the estimate (R323). -/
def takeClaims (n p : Nat) (l : List (Nat × Nat)) (s : State) : State :=
  let claims := l.map fun e => let x := splitClaim (s.available e.1 p).1 e.2; (e.1, x.1, x.2)
  let nowAmt := ((l.filter (·.1 == s.energy.window)).map (·.2)).sum
  let est := ((s.cmd n).map s.localEstimate).getD 0
  let s := drawPools p nowAmt s
  let s := s.modCmd n fun c => { c with claims := claims }
  { s with energy := { s.energy with admittedUj := s.energy.admittedUj + est } }

/-- A command's unused claims on the present and later windows return to their pools (R354); what the common pool gets back covers its
deficit first. -/
def returnClaims (n : Nat) (s : State) : State :=
  match s.cmd n with
  | none => s
  | some c =>
    let p := (s.cfg.partOf c.burgee).getD 0
    let back := (c.claims.filter (·.1 == s.energy.window)).foldl (fun a e =>
      let used := min (e.2.1 + e.2.2) c.usedUj
      let fromRes := min e.2.1 used
      (a.1 + (e.2.1 - fromRes), a.2 + (e.2.2 - (used - fromRes)))) (0, 0)
    let s := { s with energy := { s.energy with
      poolRes := Assoc.set s.energy.poolRes p (Assoc.get s.energy.poolRes p 0 + back.1), common := s.energy.common + (back.2 - s.energy.deficit)
      deficit := s.energy.deficit - back.2 } }
    s.modCmd n fun c => { c with claims := [] }

/-- A class 0 command on a TEMPO board of partition 0 is never held (R353). -/
def State.neverHeld (s : State) (d : Cmd) : Bool :=
  d.cls == 0 && d.opcode == 1 && match s.cfg.board d.board with
    | some b => b.tempo && b.part == 0
    | none => false

/-- The largest claim on one window that any budget could admit (R356), in µJ. -/
def State.claimLimit (s : State) (p : Nat) : Nat :=
  let others := ((s.tenantReserves.filter (·.1 != p)).map (·.2)).sum
  (min 18000 (s.energy.cap * 10) - (if p = 0 then 0 else s.energy.power.radioMj) - others) * 1000

/-- Class, promotion, then age (R355, R313). -/
def Cmd.ahead (a b : Cmd) : Bool :=
  decide (a.cls < b.cls) || (a.cls == b.cls && ((a.promoted && !b.promoted) || (a.promoted == b.promoted && decide (a.id < b.id))))

/-- A command waits for energy and goes before another (R355). -/
def State.energyHead (s : State) (n : Nat) (d : Cmd) : Bool :=
  s.sched.cmds.all fun e => e.1 == n || e.2.stage != .energy || !e.2.ahead d

end Sys2Proof.Machine
end

