-- ==== Sys2Proof/Machine/Sync.lean ====
section
/-! DEFINITION. The synchronisation class (R67, R128): semaphores, barriers, fences and CHECKGEN. -/

namespace Sys2Proof.Machine

/-- A synchronisation instruction: reserved bits hold zero, and MODE is at most `maxMode` (R67). DESIGN CHOICE: a MODE, SA, SB, LEVEL or ID that the
instruction does not use and that is not zero faults with ILLEGAL, where R67 calls none of them reserved there (assumption 142). -/
def sync (i : Instr) (r : CtxRef) (f : SyncF) (maxMode : Nat) (useSa useSb useLevel useId : Bool) (body : Nat → Ctx → State → Effect) (s : State) : Result :=
  runInstr i r (fun p c s =>
    if f.rsvHi ≠ 0 ∨ f.rsvLo ≠ 0 ∨ maxMode < f.mode.toNat ∨ (!useSa ∧ f.sa ≠ 0) ∨ (!useSb ∧ f.sb ≠ 0) ∨ (!useLevel ∧ f.level ≠ 0) ∨ (!useId ∧ f.id ≠ 0)
    then illegal s
    else body p c s) s

/-- The checks of a semaphore address, in the order of R69 (R67, R296): a local one lies in the burgee's regions. -/
def State.semCheck (s : State) (c : Ctx) (a : Nat) : Option Nat :=
  if isFabric a then (if !fabReservedZero a then some fRegionBound else if a % 8 ≠ 0 then some fMisalign else none)
  else if !s.cfg.owns c.burgee a 8 then some fRegionBound
  else if a % 8 ≠ 0 then some fMisalign
  else none

/-- WAITSEM (R67, R158, R162): the context waits; on a fabric address the hub loads the granule that holds the semaphore, once it has a tag and the
context's earlier requests have reached it (R125, R170). -/
def execWaitsem (r : CtxRef) (f : SyncF) (s : State) : Result :=
  match sync (.waitsem r f) r f 2 true true false false (fun p c s =>
    let a := (c.reg f.sa).toNat
    match s.semCheck c a with
    | some e => .fault e noStream a s
    | none => .stall (.sem a (c.reg f.sb) f.mode.toNat false) (openToTime p r.slot s)) s with
  | .next t => .next (refillHub t)
  | o => o

/-- WAITSEM_SATISFIED (R57, R67): the comparison holds; every line of the context is invalidated and it goes on. A poisoned semaphore
faults its reader (R140). -/
def execWaitsemSatisfied (r : CtxRef) (s : State) : Result :=
  match s.physOf r.sq with
  | none => impossible "no such square"
  | some p =>
    let c := s.ctx p r.slot
    let go := fun (s : State) =>
      let s := invalidateLines p r.slot s
      advance p r.slot (s.setCtx p r.slot { s.ctx p r.slot with wait := .none })
    match c.wait with
    | .semSeen => .next (go s)
    | .sem a v m _ =>
      if isFabric a then impossible "the semaphore is remote"
      else whenServed (s.passesFor p c.burgee a 8 false) (fun s =>
        let x := readDev a 8 (chargeFor c.burgee a 8 false false s)
        if x.1.2 then .next (contextFault p r.slot fPoison noStream a x.2)
        else if semHolds m (BitVec.ofNat 64 (leNat x.1.1)) v then .next (go x.2)
        else impossible "the comparison does not hold") s
    | _ => impossible "the context waits for no semaphore"

/-- SIGNALSEM (R57, R67, R158): once every earlier write of the context is performed and its dirty lines are written back, the
semaphore is written, or added to atomically. -/
def execSignalsem (r : CtxRef) (f : SyncF) (s : State) : Result :=
  match s.physOf r.sq with
  | none => impossible "no such square"
  | some p =>
    match sync (.signalsem r f) r f 1 true true false false (fun p c s =>
      let a := (c.reg f.sa).toNat
      match s.semCheck c a with
      | some e => .fault e noStream a s
      | none => .stall (.signal a (c.reg f.sb) (f.mode == 1)) (openToTime p r.slot s)) s with
    | .next t => .next (settle p r.slot t)
    | o => o

/-- LEVEL is reserved, or above the level of the board that the command addresses (R67). -/
def State.badLevel (s : State) (c : Ctx) (level : Nat) : Bool :=
  level == 0 || level == 7 || match s.cmd c.cmd with
    | some d => (s.levelAt d c.sqLogical level).isNone
    | none => true

/-- What a member waits for at a barrier of a level. -/
def State.barrierAt (s : State) (m : MemberRun) (level : Nat) : Option Nat := match (s.ctx m.psq m.slot).wait with
  | .barrier l id => if l = level then some id else none
  | _ => none

/-- BARRIER (R67, R69): the context waits for the other members at LEVEL. Its ID must be that of the members that wait already, and no
member may have ended. -/
def execBarrier (r : CtxRef) (f : SyncF) (s : State) : Result :=
  sync (.barrier r f) r f 0 false false true true (fun p c s =>
    let level := f.level.toNat
    if s.badLevel c level then illegal s
    else
      let others := (s.levelMembers c level).filter fun m => !(m.psq == p && m.slot == r.slot)
      let clash := others.any fun m => (m.started && m.ended) || match s.barrierAt m level with
        | some id => id != f.id.toNat
        | none => false
      if clash then .fault fBarrier noStream 0 s else .stall (.barrier level f.id.toNat) (openToTime p r.slot s)) s

/-- BARRIER_COMPLETE (R67, R80): every member at LEVEL has arrived, and all of this device go on; `remote` holds the IDs at which the members of other
devices wait. One of another ID faults this context with BARRIER_MISMATCH (assumption 112). -/
def execBarrierComplete (m : BarrierMet) (s : State) : Result :=
  let r := m.ctx
  match s.physOf r.sq with
  | none => impossible "no such square"
  | some p =>
    let c := s.ctx p r.slot
    match c.wait with
    | .barrier level id =>
      let l := s.levelMembers c level
      let far := match (s.cmd c.cmd).bind fun d => s.levelAt d c.sqLogical level with
        | some x => s.remoteCount x
        | none => 0
      if m.remote.length ≠ far ∨ !l.all (fun m => s.barrierAt m level == some id) then impossible "a member has not arrived"
      else if m.remote.any (· != id) then .next (contextFault p r.slot fBarrier noStream 0 s)
      else .next (forAll l (fun m s => advance m.psq m.slot (s.setCtx m.psq m.slot { s.ctx m.psq m.slot with wait := .none })) s)
    | _ => impossible "the context waits at no barrier"

/-- FENCE (R67, R166): MODE 0 scratchpad writes, 1 device-memory writes, 2 fabric operations. -/
def execFence (r : CtxRef) (f : SyncF) (s : State) : Result :=
  match s.physOf r.sq with
  | none => impossible "no such square"
  | some p =>
    match sync (.fence r f) r f 2 false false false false (fun p _ s =>
      let s := if f.mode = 0 then s else openToTime p r.slot s
      .stall (.fence f.mode.toNat) (if f.mode = 2 then placeFence p r.slot true (s.square p).nextTag s else s)) s with
    | .next t => .next (settle p r.slot t)
    | o => o

/-- CHECKGEN (R128): the context waits for the stream's watched reads, then for the answers of the pages' homes. A stream that the table does not have
has watched nothing: the instruction never faults for it. -/
def execCheckgen (r : CtxRef) (f : SyncF) (s : State) : Result :=
  match s.physOf r.sq with
  | none => impossible "no such square"
  | some p =>
    match sync (.checkgen r f) r f 0 false true false true (fun _ _ s =>
      let i := f.id.toNat
      if 16 ≤ i then illegal s else .stall (.gen i f.sb.toNat false []) (openToTime p r.slot s)) s with
    | .next t => .next (settle p r.slot t)
    | o => o

/-- The generation queries of a context have been answered and leave the hub (R128). -/
def dropQueries (p slot : Nat) (s : State) : State :=
  let mine := fun (o : FabOut) => o.kind == 7 && o.psq == p && o.slot == slot
  let s' := { s with hub := { s.hub with outs := s.hub.outs.filter fun o => !mine o } }
  refillHub (forAll (s.hub.outs.filter mine) (fun o s => takeIn (fun w => w.opcode == 0x84 && w.tag == o.id) s) s')

/-- Whether a watched page's generation differs from the recorded one (R128): at this device, or as its home answered; none where no answer is there. A home
that muster has expelled counts as a difference (assumption 134). -/
def State.pageDiffers (s : State) (c : Ctx) (t : Stream) (remote : List (Nat × Nat)) (k page gen : Nat) : Option Bool :=
  let h := s.pageHome c t page
  if h.1 = s.deviceId then some ((Assoc.get s.tow.gens h.2 0).toNat != gen % 65536)
  else if s.gone h.1 then some true
  else (Assoc.find remote k).map fun g => g % 65536 != gen % 65536

/-- CHECKGEN_RESULT (R128): `remote` holds the generations that the other homes answered, by position in the watch list; the burgee's earlier writes toward
this device have been performed. SB receives the result, STALE counts the mismatches, and the watch list and WATCH_LOST are cleared. -/
def execCheckgenResult (r : CtxRef) (remote : List (Nat × Nat)) (s : State) : Result :=
  match s.physOf r.sq with
  | none => impossible "no such square"
  | some p =>
    let c := s.ctx p r.slot
    match c.wait with
    | .gen i sb asked writes =>
      if !asked then impossible "a watched read is under way"
      else if !writes.all s.writeOver || s.hub.outs.any (fun o => o.kind == 7 && o.psq == p && o.slot == r.slot && !o.sent) then
        impossible "a query has not been performed"
      else
        let l := (c.streams[i]?.map (·.watchList)).getD []
        let lost := (c.streams[i]?.map (·.watchLost)).getD false
        let checks := ((List.range l.length).zip l).map fun e => c.streams[i]?.bind fun t => s.pageDiffers c t remote e.1 e.2.1 e.2.2
        if checks.any (·.isNone) then impossible "a home has not answered"
        else
          let n := (checks.filter fun x => x == some true).length
          let res := n % 65536 + (if lost then 2 ^ 62 else 0) + (if n ≠ 0 ∨ lost then 2 ^ 63 else 0)
          let c := c.setReg (BitVec.ofNat 5 sb) (BitVec.ofNat 64 res)
          let c := (c.modStream i fun t => { t with watchList := [], watchLost := false }).count i fun m => { m with stale := satAdd 16 m.stale n }
          let tag := ((s.cmd c.cmd).map (·.tag.toNat)).getD 0
          let s := dropQueries p r.slot (s.setCtx p r.slot { c with wait := .none })
          let s := if n = 0 then s
            else record 0x7001 (dieCompute p) c.sqLogical (leBytes 1 c.burgee ++ leBytes 1 i ++ leBytes 2 n ++ leBytes 4 tag ++ leBytes 8 0) s
          .next (advance p r.slot s)
    | _ => impossible "the context waits for no check"

end Sys2Proof.Machine
end

