-- ==== Sys2Proof/Machine/Reduce.lean ====
section
/-! DEFINITION. The reduction class (R68, R74, R75): the binomial tree, its steps inside the package and over the fabric. -/

namespace Sys2Proof.Machine

/-- Fabric operation and format of a reduction's OP (R68, R75): adds in FP32, BF16 and INT32, max and min in FP32 (assumption 41), and
long-adds. -/
def reduceCode : Nat → Nat × Nat
  | 0 => (0x20, 5)
  | 1 => (0x20, 6)
  | 2 => (0x20, 1)
  | 3 => (0x22, 5)
  | 4 => (0x21, 5)
  | _ => (0x23, 7)

/-- own OP received, granule by granule: own operand first, rounded per add (R74). Poison on either side poisons the receiving granule
(R75), and any HI or LO of a long-add sets its window flag (R106, R111). -/
def combine (op : Nat) (own got : List Granule) : List Granule × Nat :=
  (own.zip got).foldl (fun (a : List Granule × Nat) e =>
    let mine := (Code.value e.1).1
    if isPoisoned e.1 || isPoisoned e.2 then (a.1 ++ [Code.form mine true], a.2)
    else
      let x := reduceResult (reduceCode op).1 (reduceCode op).2 (granuleBytes mine) (granuleBytes (Code.value e.2).1)
      let w := if op = 5 then (Acc.ofBits (bytesGranule x.1)).windowFlags else 0
      (a.1 ++ [Code.form (bytesGranule x.1) false], a.2 ||| x.2 ||| w)) ([], 0)

-- ───────────────────────── the tree

/-- A partner in the tree: a member square of this device, or a logical square of another one. -/
inductive Partner where
  | near (m : MemberRun)
  | far (device sq : Nat)

/-- Relabelled index (R74). -/
def relabel (n root j : Nat) : Nat := (j + n - root % n) % n

/-- The step in which index `r` sends: the number of its trailing zeros; the root never sends. -/
def sendStep : Nat → Nat → Option Nat
  | 0, _ => none
  | k + 1, r => if r = 0 then none else if r % 2 = 1 then some 0 else (sendStep k (r / 2)).map (· + 1)

/-- The indices that send to `r`, in the order of their steps (R74). -/
def sendersTo (n r : Nat) : List Nat :=
  ((List.range 8).filter fun s => r % 2 ^ (s + 1) = 0 ∧ r + 2 ^ s < n ∧ 2 ^ s < n).map fun s => r + 2 ^ s

/-- A context's place in the tree of a level: the level, its members' number, the index of its own member, and its position within that member. Squares
at one position of each member reduce with one another (assumption 42). -/
structure TreePlace where
  board : Level
  n     : Nat
  j     : Nat
  pos   : Nat
  r     : Nat

def State.treePlace (s : State) (c : Ctx) (level : Nat) : Option TreePlace :=
  match (s.cmd c.cmd).bind fun d => s.levelAt d c.sqLogical level with
  | none => none
  | some b =>
    let n := b.members.length
    some { board := b, n, j := b.me, pos := (b.members.getD b.me []).idxOf (s.deviceId, c.sqLogical), r := relabel n b.reduceRoot b.me }

/-- The partner with a relabelled index. -/
def State.partner (s : State) (c : Ctx) (t : TreePlace) (r : Nat) : Option Partner :=
  match (t.board.members.getD ((r + t.board.reduceRoot) % t.n) [])[t.pos]? with
  | none => none
  | some (dev, sq) =>
    if dev = s.deviceId then (s.cmd c.cmd).bind fun d => (s.memberAt d sq).map .near
    else some (.far dev sq)

/-- Local squares that send to this one, in the order of their steps. -/
def State.nearSenders (s : State) (c : Ctx) (t : TreePlace) : List MemberRun :=
  (sendersTo t.n t.r).filterMap fun r => match s.partner c t r with
    | some (.near m) => some m
    | _ => none

/-- The other local squares of the tree. -/
def State.nearOthers (s : State) (c : Ctx) (t : TreePlace) : List MemberRun :=
  ((List.range t.n).filter (· != t.r)).filterMap fun r => match s.partner c t r with
    | some (.near m) => some m
    | _ => none

/-- The remote members of the tree, as (device, logical square). -/
def State.farOthers (s : State) (c : Ctx) (t : TreePlace) : List (Nat × Nat) :=
  (List.range t.n).filterMap fun r => match s.partner c t r with
    | some (.far d q) => some (d, q)
    | _ => none

/-- The sender whose step comes next at a receiver (R74); none once every sender's has come. -/
def Ctx.nextSender (c : Ctx) (t : TreePlace) : Option Nat := (sendersTo t.n t.r)[c.redStep]?

-- ───────────────────────── issue (R68)

/-- The values of a waiting reduction that every member must share: OPC, OP, length and TAG. -/
def reduceKey (w : Wait) : Option (Nat × Nat × Nat × Nat) := match w with
  | .reduce opc op _ _ _ len tag => some (opc, op, len, tag)
  | _ => Option.none

/-- The address checks of a reduction (R68, R69): the source lies in the share; the destination does, or, with REDUCE_REMOTE, lies in the
burgee's regions. DESIGN CHOICE: an address that is not granule aligned faults with MISALIGN, where R68 names no fault (assumption 143). -/
def State.reduceBad (s : State) (c : Ctx) (remote : Bool) (src dst len : Nat) : Option (Nat × Nat) :=
  let n := 32 * len
  if remote && !s.cfg.owns c.burgee dst n then some (fRegionBound, dst)
  else if !c.inShare src n then some (fShareBound, src)
  else if !remote && !c.inShare dst n then some (fShareBound, dst)
  else if src % 32 ≠ 0 then some (fMisalign, src)
  else if dst % 32 ≠ 0 then some (fMisalign, dst)
  else none

/-- Members whose values differ from the root's fault with REDUCE_MISMATCH (R68). -/
def faultMismatch (p slot : Nat) (s : State) : State :=
  let c := s.ctx p slot
  match c.wait with
  | .reduce opc op level _ _ len tag =>
    match s.treePlace c level with
    | none => s
    | some t =>
      if t.r = 0 then
        let off := (s.nearOthers c t).find? fun m => match reduceKey (s.ctx m.psq m.slot).wait with
          | some k => k != (opc, op, len, tag)
          | none => false
        match off with
        | some m => contextFault m.psq m.slot fReduce noStream 0 s
        | none => s
      else match s.partner c t 0 with
        | some (.near m) => match reduceKey (s.ctx m.psq m.slot).wait with
          | some k => if k = (opc, op, len, tag) then s else contextFault p slot fReduce noStream 0 s
          | none => s
        | _ => s
  | _ => s

/-- A reduction instruction issues (R68, R75): the context waits with its tensor; with REDUCE_REMOTE a member that receives first writes
its own tensor to its destination in device memory. DESIGN CHOICE: a length in s[SL] outside 1 to share/32 faults with ILLEGAL, where R9 and R68 name no
fault (assumption 143). -/
def reduceInstr (i : Instr) (opc : Nat) (r : CtxRef) (f : ReduceF) (s : State) : Result :=
  match s.physOf r.sq with
  | none => impossible "no such square"
  | some p =>
    match runInstr i r (fun p c s =>
      let level := f.level.toNat
      let op := f.op.toNat
      let src := (c.reg f.sa).toNat
      let dst := (c.reg f.sb).toNat
      let len := (c.reg f.sl).toNat
      if f.rsv ≠ 0 ∨ 5 < op ∨ s.badLevel c level ∨ len = 0 ∨ c.shareLen / 32 < len then illegal s
      else
        let t := s.treePlace c level
        let remote := (t.map (·.board.reduceRemote)).getD false
        match s.reduceBad c remote src dst len with
        | some (e, a) => .fault e noStream a s
        | none =>
          let s := openToTime p r.slot s
          let s := if opc ≠ 2 ∧ op < 2 then breakReplay c.cmd s else s
          let own := (List.range len).map fun k => getPad s p c.shareBase (src + 32 * k)
          let receives := match t with
            | some t => !(sendersTo t.n t.r).isEmpty
            | none => false
          let s := if remote && receives && opc != 2 then putDev dst own s else s
          let c := (s.ctx p r.slot).markRead src (32 * len)
          .stall (.reduce opc op level src dst len f.tag.toNat) (s.setCtx p r.slot { c with tensor := own, redStep := 0, redGot := false })) s with
    | .next t => .next (faultMismatch p r.slot t)
    | o => o

/-- REDUCE (R68, R74). -/
def execReduce (r : CtxRef) (f : ReduceF) (s : State) : Result := reduceInstr (.reduce r f) 0 r f s
/-- ALLREDUCE (R68). -/
def execAllreduce (r : CtxRef) (f : ReduceF) (s : State) : Result := reduceInstr (.allreduce r f) 1 r f s
/-- BCAST (R68). -/
def execBcast (r : CtxRef) (f : ReduceF) (s : State) : Result := reduceInstr (.bcast r f) 2 r f s

-- ───────────────────────── steps (R74, R75)

/-- Cut `n` granules from address `a` where 256-byte blocks end: (address, first granule, granules). -/
def blockCut : Nat → Nat → Nat → Nat → List (Nat × Nat × Nat)
  | 0, _, _, _ => []
  | k + 1, a, i, n =>
    if n = 0 then [] else
    let m := min n (8 - a / 32 % 8)
    (a, i, m) :: blockCut k (a + 32 * m) (i + m) (n - m)

/-- One request of a tree step. `to_` is the context that receives, where it is on this device. -/
def stepOut (p slot op fmt dev addr : Nat) (l : List Granule) (to_ : Option Nat) (s : State) : FabOut :=
  let c := s.ctx p slot
  { id := 0, kind := 3, opcode := op, dests := [(dev, 0)], burgee := c.burgee, radio := s.radioBurgee c.burgee, addr := dev * 2 ^ 44 + addr
    size := 32 * l.length, fmt := fmt, payload := l, noCombine := false, watch := false, sent := false, sentAt := 0, retries := 0, cmd := c.cmd
    psq := p, slot := slot, sqTag := none, stream := noStream, ret := to_, discard := false, group := 0, lease := none, status := 0 }

/-- Bring as many of the requests into the hub as it has tags for; answers how many went. -/
def pushOuts : List FabOut → Nat → State → Nat × State
  | [], n, s => (n, s)
  | o :: t, n, s => if o.dests.all (·.1 == s.deviceId) || s.hubRoom o.burgee then pushOuts t (n + 1) (newOut o s).2 else (n, s)

/-- A context's reduction is over. -/
def reduceDone (p slot : Nat) (s : State) : State :=
  advance p slot (s.setCtx p slot { s.ctx p slot with wait := .none, tensor := [], redGot := false, redStep := 0 })

/-- Put a tensor at a share address. -/
def putTensor (p slot a : Nat) (l : List Granule) (s : State) : State :=
  let base := (s.ctx p slot).shareBase
  forAll ((List.range l.length).zip l) (fun e s => putPad p base (a + 32 * e.1) e.2 s) s

/-- A member receives the root's result (R68); a range that leaves its share faults it. -/
def receiveResult (m : MemberRun) (remote : Bool) (a : Nat) (l : List Granule) (s : State) : State :=
  if !remote && !(s.ctx m.psq m.slot).inShare a (32 * l.length) then contextFault m.psq m.slot fShareBound noStream a s
  else reduceDone m.psq m.slot (if remote then putDev a l s else putTensor m.psq m.slot a l s)

/-- Local members that have come to this reduction and, for ALLREDUCE, have sent. -/
def State.reducing (s : State) (opc : Nat) (m : MemberRun) : Bool :=
  let c := s.ctx m.psq m.slot
  match c.wait with
  | .reduce o _ _ _ _ _ _ => o == opc && (opc != 1 || c.redGot)
  | _ => false

/-- Where the share of a context slot on another device's logical square begins in that device's scratchpad window (R156). -/
def farPad (sq slot : Nat) : Nat := scratchWindow + sq * 2 ^ 26 + slot * 2 ^ 23

/-- The requests that copy the root's result to the remote members (R68, R75): into their shares, or their device memory. -/
def State.copies (s : State) (p slot : Nat) (t : TreePlace) (remote : Bool) (a : Nat) (l : List Granule) : List FabOut :=
  (s.farOthers (s.ctx p slot) t).flatMap fun x =>
    let base := if remote then 0 else farPad x.2 slot
    (blockCut (l.length + 1) a 0 l.length).map fun e => stepOut p slot 0x02 0 x.1 (base + e.1) ((l.drop e.2.1).take e.2.2) none s

/-- The root distributes a result: first to the remote members as the hub's tags allow, then to the local ones, and all go on. -/
def distribute (p slot opc : Nat) (t : TreePlace) (remote : Bool) (sent : Nat) (dstOf : MemberRun → Nat) (own : Nat) (l : List Granule) (s : State) : Result :=
  let c := s.ctx p slot
  let near := s.nearOthers c t
  if !near.all (s.reducing opc) then impossible "a member has not arrived"
  else
    let outs := (s.copies p slot t remote own l).drop sent
    let x := pushOuts outs 0 s
    if x.1 < outs.length then
      if x.1 = 0 then impossible "no hub tag is free"
      else .next (x.2.setCtx p slot { x.2.ctx p slot with redStep := c.redStep + x.1 })
    else
      let s := forAll near (fun m s => receiveResult m remote (dstOf m) l s) x.2
      .next (reduceDone p slot (if opc = 2 then (if remote then putDev own l s else putTensor p slot own l s) else s))

/-- The destination that a member's own instruction names. -/
def State.dstOf (s : State) (m : MemberRun) : Nat := match (s.ctx m.psq m.slot).wait with
  | .reduce _ _ _ _ dst _ _ => dst
  | _ => 0

/-- The receiver has come to the reduction and the sender is the one whose step comes next there (R74). -/
def State.takesFrom (s : State) (t : TreePlace) (m : MemberRun) : Bool :=
  let d := s.ctx m.psq m.slot
  match d.wait with
  | .reduce _ _ level _ _ _ _ => match s.treePlace d level with
    | some u => d.nextSender u == some t.r
    | none => false
  | _ => false

/-- A step of a sender has come at the receiver. -/
def countStep (m : MemberRun) (s : State) : State :=
  s.setCtx m.psq m.slot { s.ctx m.psq m.slot with redStep := (s.ctx m.psq m.slot).redStep + 1 }

/-- A member sends its tensor to its receiver (R74, R75): over the fabric as many requests at a time as the hub has tags for. -/
def sendTensor (p slot : Nat) (t : TreePlace) (opc op dst : Nat) (to_ : Partner) (s : State) : Result :=
  let c := s.ctx p slot
  let sent := fun (s : State) => if opc = 0 then reduceDone p slot s else s.setCtx p slot { s.ctx p slot with redGot := true }
  let have_ := (sendersTo t.n t.r).length
  let push := fun (outs : List FabOut) (last : State → State) =>
    let outs := outs.drop (c.redStep - have_)
    let x := pushOuts outs 0 s
    if x.1 = 0 && !outs.isEmpty then impossible "no hub tag is free"
    else if x.1 < outs.length then Host.Outcome.next (x.2.setCtx p slot { x.2.ctx p slot with redStep := c.redStep + x.1 })
    else .next (sent (last x.2))
  let code := reduceCode op
  let cut := fun (a : Nat) (l : List Granule) => (blockCut (l.length + 1) a 0 l.length).map fun e => (e.1, (l.drop e.2.1).take e.2.2)
  -- under REDUCE_REMOTE a member that has received sends what its device memory holds (R75)
  let l := if t.board.reduceRemote && have_ != 0 then (List.range c.tensor.length).map fun k => s.tower.granule (s.cfg.key (dst + 32 * k)) else c.tensor
  match to_ with
  | .near m =>
    if !s.takesFrom t m then impossible "an earlier step comes first"
    else if t.board.reduceRemote then
      push ((cut (s.dstOf m) l).map fun e => stepOut p slot code.1 code.2 s.deviceId e.1 e.2 (some (ctxKey m.psq m.slot)) s) (countStep m)
    else
      let d := s.ctx m.psq m.slot
      let x := combine op d.tensor c.tensor
      let s := putTensor m.psq m.slot (s.dstOf m) c.tensor (raiseFlags c.cmd x.2 s)
      .next (sent (countStep m (s.setCtx m.psq m.slot { s.ctx m.psq m.slot with tensor := x.1 })))
  | .far dev sq =>
    if t.board.reduceRemote then push ((cut dst l).map fun e => stepOut p slot code.1 code.2 dev e.1 e.2 none s) id
    else push ((cut dst l).map fun e => stepOut p slot 0x02 0 dev (farPad sq slot + e.1) e.2 none s) id

/-- The root of the tree finishes (R68, R75): the result lies at its destination, and under ALLREDUCE goes to every member. -/
def rootStep (p slot : Nat) (t : TreePlace) (opc src dst have_ : Nat) (s : State) : Result :=
  let c := s.ctx p slot
  let remote := t.board.reduceRemote
  let result := if remote then (List.range c.tensor.length).map fun k => s.tower.granule (s.cfg.key (dst + 32 * k)) else c.tensor
  match opc with
  | 0 => .next (reduceDone p slot (if remote then s else putTensor p slot dst result s))
  | 1 => distribute p slot 1 t remote (c.redStep - have_) (fun _ => dst) dst result (if remote then s else putTensor p slot dst result s)
  | _ => distribute p slot 2 t remote c.redStep s.dstOf dst ((List.range c.tensor.length).map fun k => getPad s p c.shareBase (src + 32 * k)) s

/-- A far sender's step has come at this member (R74, R75): what the sender stored at the destination in the share joins the tensor, own operand first;
under REDUCE_REMOTE the home has applied it to device memory already. -/
def joinRemote (p slot : Nat) (t : TreePlace) (op dst : Nat) (s : State) : State :=
  let c := s.ctx p slot
  let c' := { c with redStep := c.redStep + 1 }
  if t.board.reduceRemote then s.setCtx p slot c'
  else
    let x := combine op c.tensor ((List.range c.tensor.length).map fun k => getPad s p c.shareBase (dst + 32 * k))
    raiseFlags c.cmd x.2 (s.setCtx p slot { c' with tensor := x.1 })

/-- REDUCE_TREE_STEP (R68, R74, R75): the step of a far sender has come at this member; or, once every reduction sent to it has arrived and is
acknowledged, the member performs its own sending step, or, as the root, finishes; or the root's result has come from another device. `root` holds the
OPC, OP, length and TAG of a root on another device: a member whose own differ faults with REDUCE_MISMATCH. A large tensor takes as many steps as the
hub's tags demand. -/
def execReduceTreeStep (x : TreeStep) (s : State) : Result :=
  let r := x.ctx
  match s.physOf r.sq with
  | none => impossible "no such square"
  | some p =>
    let c := s.ctx p r.slot
    match c.wait with
    | .reduce opc op level src dst len tag =>
      match s.treePlace c level with
      | none => impossible "no such level"
      | some t =>
        let far : Nat → Bool := fun j => match s.partner c t j with
          | some (.far _ _) => true
          | _ => false
        let mine := s.hub.outs.any fun o => o.kind == 3 && o.ret == some (ctxKey p r.slot)
        if t.r ≠ 0 ∧ far 0 ∧ x.root.any (· != (opc, op, len, tag)) then .next (contextFault p r.slot fReduce noStream 0 s)
        else if opc = 2 ∧ t.r = 0 then rootStep p r.slot t 2 src dst 0 s
        else if opc = 2 ∨ c.redGot then
          if far 0 then .next (reduceDone p r.slot s) else impossible "the root copies to its own device's members"
        else match c.nextSender t with
          | some j => if far j then .next (joinRemote p r.slot t op dst s) else impossible "a reduction sent here has not arrived"
          | none =>
            if mine then impossible "a reduction sent here is not acknowledged"
            else if t.r = 0 then rootStep p r.slot t opc src dst (sendersTo t.n t.r).length s
            else match (sendStep 8 t.r).bind fun k => s.partner c t (t.r - 2 ^ k) with
              | none => impossible "no receiver"
              | some to_ => sendTensor p r.slot t opc op dst to_ s
    | _ => impossible "the context is in no reduction"

end Sys2Proof.Machine
end

