-- ==== Sys2Proof/Machine/Launch.lean ====
section
/-! DEFINITION. Launch on a member square (R56, R57, R70, R71, R114, R115, R118, R121, R463). -/

namespace Sys2Proof.Machine

/-- The 128 bytes of a kernel descriptor, by field (R70). -/
structure KernelDesc where
  codeAddr  : Nat
  codeLen   : Nat
  entry     : Nat
  paramAddr : Nat
  paramLen  : Nat
  qdir      : Nat
  accum     : Nat
  streams   : Nat
  streamAddr : Nat
  m         : Nat
  n         : Nat
  k         : Nat
  rsvZero   : Bool
  sregs     : List Nat

def parseKernel (l : List Byte) : KernelDesc :=
  { codeAddr := fieldAt l 0 8, codeLen := fieldAt l 8 4, entry := fieldAt l 12 4, paramAddr := fieldAt l 16 8, paramLen := fieldAt l 24 4
    qdir := fieldAt l 28 1, accum := fieldAt l 29 1, streams := fieldAt l 30 2, streamAddr := fieldAt l 32 8, m := fieldAt l 40 4
    n := fieldAt l 44 4, k := fieldAt l 48 4, rsvZero := allZero ((l.drop 52).take 12)
    sregs := (List.range 8).map fun i => fieldAt l (64 + 8 * i) 8 }

/-- The faults of R463, ILLEGAL before REGION_BOUND. -/
def KernelDesc.fault (d : KernelDesc) (b : Nat) (s : State) : Option Nat :=
  if !d.rsvZero || 2 < d.accum || d.codeLen < 8 || 65536 < d.codeLen || d.codeLen % 8 != 0 || d.codeLen ≤ d.entry || d.entry % 8 != 0 ||
    4096 < d.paramLen || 16 < d.streams || d.codeAddr % 64 != 0 || d.streamAddr % 64 != 0 then some fIllegal
  else if !s.cfg.owns b d.codeAddr d.codeLen || !s.cfg.owns b d.paramAddr d.paramLen ||
    (d.streams != 0 && !s.cfg.owns b d.streamAddr (64 + 64 * d.streams)) then some fRegionBound
  else none

/-- One descriptor of the stream table (R115). -/
def parseStream (l : List Byte) : Stream :=
  let kind := fieldAt l 8 1
  let q := fieldAt l 9 1
  let fl := fieldAt l 10 1
  { base := fieldAt l 0 8, endpoint := bits kind 1 0, dir := bits kind 3 2, queue := bits q 2 0, indexed := bit q 3, indexQ := bits q 6 4
    watch := bit fl 0, circ := bit fl 1, start := fieldAt l 11 1, chain := fieldAt l 12 1, elem := fieldAt l 13 1, stepSel := fieldAt l 14 1
    counts := (List.range 4).map fun d => fieldAt l (16 + 4 * d) 4, strides := (List.range 4).map fun d => toSigned 32 (fieldAt l (32 + 4 * d) 4)
    circLen := fieldAt l 48 4, shareAddr := fieldAt l 52 4, maxTags := fieldAt l 56 2 }

/-- Reserved bits of a stream descriptor are set (R9, R115). -/
def streamReserved (l : List Byte) : Bool :=
  fieldAt l 8 1 / 16 != 0 || bit (fieldAt l 9 1) 7 || 4 ≤ fieldAt l 10 1 || 16 ≤ fieldAt l 14 1 || fieldAt l 15 1 != 0 || !allZero ((l.drop 58).take 6)

/-- Stream `i` breaks R115, R118 or R121 within its table. -/
def badStream (ts : List Stream) (i : Nat) (t : Stream) (qdir : Nat) (tempo : Bool) : Bool :=
  t.base % 32 != 0 || (t.endpoint == 3 && bits t.base 47 44 != 0) || 2 < t.start ||
    (if t.start = 1 then decide (i ≤ t.chain) else t.chain != 0) || t.elem == 0 || 8 < t.elem ||
    (if t.circ then decide (t.circLen < t.elem) else t.circLen != 0) ||
    (if t.viaShare then t.shareAddr % 32 != 0 else t.shareAddr != 0) || 512 < t.maxTags ||
    (t.endpoint == 3 && !t.writes) || (t.endpoint == 2 && t.dir == 3) || (t.watch && t.writes) || (t.indexed && 2 ≤ t.endpoint) ||
    (t.indexed && t.indexQ == t.queue) || (t.dir == 1) != bit qdir t.queue ||
    (t.indexed && !ts.any fun u => u.dir == 0 && u.queue == t.indexQ) ||
    (t.start != 0 && (ts.take i).any fun u => u.queue == t.queue) || (tempo && t.endpoint != 2)

/-- The table's streams, or ILLEGAL. -/
def streamTable (l : List Byte) (n qdir : Nat) (tempo : Bool) : Option (List Int × List Stream) :=
  let raw := (List.range n).map fun i => (l.drop (64 + 64 * i)).take 64
  let ts := raw.map parseStream
  let offs := (List.range 8).map fun i => fieldAt l (8 * i) 8
  if offs.any (fun o => o % 32 != 0) || raw.any streamReserved || (List.range n).any fun i => match ts[i]? with
      | some t => badStream ts i t qdir tempo
      | none => false
  then none
  else some (offs.map (toSigned 64), ts.map fun t => { t with started := t.start == 0 })

/-- Lock a TEMPO kernel's code in the instruction cache, where `loadCode` has brought the whole of it (R56): at most 32 KiB in all; the oldest locked
kernel without a running launch gives way. -/
def lockCode (p : Nat) (e : Nat × Nat × Nat) : Nat → State → Option State
  | 0, _ => none
  | n + 1, s =>
    let q := s.square p
    if q.locked.contains e then some s
    else if (q.locked.map (·.2.2)).sum + e.2.2 ≤ 32768 then some (s.setSquare p { q with locked := q.locked ++ [e] })
    else match q.locked.findIdx? fun x => !((s.ctx p x.1).active && (s.ctx p x.1).codeAddr == x.2.1) with
      | some i => lockCode p e n (s.setSquare p { q with locked := q.locked.eraseIdx i })
      | none => none

/-- COUNT_ADDR of the parameter block (R129, R140): 64-byte aligned in the burgee's regions, and not poisoned. -/
def State.countAddr (s : State) (b : Nat) (d : KernelDesc) : Nat :=
  if d.paramLen < 8 then 0
  else
    let v := s.tower.read s.cfg.key d.paramAddr 8
    let a := leNat v.1
    if v.2 || a % 64 != 0 || !s.cfg.owns b a 64 then 0 else a

/-- The controllers serve the reads of a launch: the descriptor, the code and the stream table that it names (R124, R149). -/
def State.launchPasses (s : State) (p : Nat) (d : Cmd) : Bool :=
  let part := s.cfg.partOf d.burgee
  let k := parseKernel (s.tower.read s.cfg.key d.desc 128).1
  s.passes p part d.desc 128 false && ((k.fault d.burgee s).isSome || (s.passes p part k.codeAddr k.codeLen false &&
    (k.streams == 0 || s.passes p part k.streamAddr (64 + 64 * k.streams) false)))

/-- Registers at launch (R71). -/
def launchRegs (m : MemberRun) (h : Share) (d : Cmd) (k : KernelDesc) : Vector Word 32 :=
  let low := [0, m.base, m.len, m.index, if m.root then 1 else 0, h.size, d.tag.toNat, d.squares]
  Vector.ofFn fun i => BitVec.ofNat 64 ((low ++ k.sregs).getD i.val 0)

/-- The context slot as it starts a command: its vector and predicate registers, queues, loop state and call stack stay (R60, R71); the
generator is seeded (R109), and the slot's data-cache lines and unlocked code lines are invalidated (R56, R57). -/
def startCtx (p : Nat) (m : MemberRun) (h : Share) (n : Nat) (d : Cmd) (k : KernelDesc) (s : State) : State :=
  let c := s.ctx p m.slot
  let ksplit := (s.levelsOf d m.sq).any (·.split == 3)
  let s := dropCode p m.slot (invalidateLines p m.slot s)
  s.setCtx p m.slot { c with
    cmd := n, active := true, wiping := false, burgee := d.burgee, pc := k.entry, codeAddr := k.codeAddr, codeLen := k.codeLen
    entry := k.entry, regs := launchRegs m h d k, qdir := k.qdir, sr := seedOf s.cfg.device.srSeed m.sq m.base
    accum := if k.accum = 0 then s.cfg.device.accum else k.accum - 1, wait := .none, offsets := [], streams := [], lastStream := 15
    rangeBase := m.base, seedSq := m.sq, rangeLen := m.len, unread := [], launched := s.up, shareBase := h.base, shareLen := h.size, sqLogical := m.sq
    ksplit := ksplit }

/-- The launch of command `d`, numbered `n`, on a member (R56, R70, R71, R114, R140, R463): it checks its descriptor and stream table and starts its
context. A check that fails is a context fault of the launch. -/
def launchMember (r : CtxRef) (n : Nat) (d : Cmd) (s : State) : Result :=
  match s.physOf r.sq with
  | none => impossible "no such square"
  | some p =>
    match d.members.find? fun m => m.psq == p && m.slot == r.slot && !m.started && !m.ended, s.cfg.share r.sq r.slot with
    | some m, some h =>
      let c := s.ctx p r.slot
      if d.stage ≠ .launched || c.active || c.wiping || s.pwr.issueStop then impossible "the slot cannot start the command"
      else if !s.launchPasses p d then impossible "the memory controller holds the launch's reads back"
      else
        let mark := fun (d : Cmd) => { d with members := d.members.map fun x => if x.psq = p ∧ x.slot = r.slot then { x with started := true } else x }
        let s := s.modCmd n mark
        let v := readDev d.desc 128 s
        let k := parseKernel v.1.1
        let tempo := ((s.cfg.board d.board).map (·.tempo)).getD false
        let s := startCtx p m h n d k (cancelTelltale p v.2)
        let fail := fun (e : Nat) (s : State) => Host.Outcome.next (contextFault p r.slot e noStream d.desc s)
        if v.1.2 then fail fPoison s
        else match k.fault d.burgee s with
        | some e => fail e s
        | none =>
          let code := readDev k.codeAddr k.codeLen s
          let table := if k.streams = 0 then (([], false), code.2) else readDev k.streamAddr (64 + 64 * k.streams) code.2
          let s := table.2
          if code.1.2 || table.1.2 then fail fPoison s
          else match (if tempo then lockCode p (r.slot, k.codeAddr, k.codeLen) 64 s else some s) with
          | none => fail fIllegal s
          | some s =>
            let s := if tempo then loadCode p r.slot k.codeAddr k.codeLen s else s
            match (if k.streams = 0 then some ([], []) else streamTable table.1.1 k.streams k.qdir tempo) with
            | none => fail fIllegal s
            | some (offs, ts) =>
              let ca := s.countAddr d.burgee k
              let s := if k.paramLen < 8 then s else (readDev k.paramAddr 8 s).2
              let s := s.modCmd n fun d => { d with countAddr := if d.countAddr = 0 then ca else d.countAddr }
              .next (sweep p r.slot (s.setCtx p r.slot { s.ctx p r.slot with offsets := offs, streams := ts }))
    | _, _ => impossible "no such member"

/-- KERNEL_LAUNCH (R48, R70, R463): under the configuration that the command's board reads. -/
def execKernelLaunch (r : CtxRef) (n : Nat) (s : State) : Result :=
  match s.cmd n with
  | none => impossible "no such command"
  | some d => inView d.board (launchMember r n d) s

end Sys2Proof.Machine
end

