-- ==== Sys2Proof/Machine/Commands.lean ====
section
/-! DEFINITION. Board commands (R17, R71, R73, R77 to R79, R129, R315, R316, R318, R332, R336, R354): launching one on its members, and
ending it with its records, its semaphore and its interrupt. -/

namespace Sys2Proof.Machine

/-- The context slot of a burgee's command on a square (R268). -/
def HoistCfg.slotFor (cfg : HoistCfg) (b cls sq : Nat) : Option Nat :=
  let own := cfg.shares.filter fun h => h.sq == sq && h.burgee == b
  let low := fun (l : List Share) => (l.map (·.slot)).min?
  let plain := low (own.filter fun h => !h.reserve)
  if cls = 1 then (match low (own.filter (·.reserve)) with
    | some x => some x
    | none => plain) else plain

/-- The burgee has a reserve slot on every local square of a board (R287). -/
def HoistCfg.reservedOn (cfg : HoistCfg) (b board : Nat) : Bool :=
  (cfg.leaves board).all fun sq => cfg.shares.any fun h => h.sq == sq && h.burgee == b && h.reserve

/-- The pennant (R332). -/
def State.pennant (s : State) : Word :=
  let idle := s.pwr.state != .active
  BitVec.ofNat 64 (s.ident.numlib.toNat * 2 ^ 32 + (if idle then 15 else s.cfg.device.accum) * 2 ^ 28 +
    (if idle then 15 else s.cfg.device.shapePolicy) * 2 ^ 24 + s.numSquares * 2 ^ 16 + s.ident.vtab.toNat * 2 ^ 8 + s.ident.stepping.toNat)

/-- Launched commands with a member on a physical square that has not ended. -/
def State.runningOn (s : State) (p : Nat) : List (Nat × Cmd) :=
  s.sched.cmds.filter fun c => c.2.stage == .launched && c.2.members.any fun m => m.psq == p && !m.ended

/-- A board's SHAPE_PIN where it divides the array (R83, R289). -/
def Board.dividing (b : Board) : Option Nat := if b.shapePin = 0 ∨ b.shapePin = 4 then none else some b.shapePin

/-- A square can take a command of a board beside what runs there (R289): all pin one shape, and a segment is left. -/
def State.squareTakes (s : State) (b : Board) (p : Nat) : Bool :=
  let l := s.runningOn p
  l.isEmpty || match b.dividing with
    | none => false
    | some sh => decide (l.length < shapeSegs sh) && l.all fun c => match s.cfg.board c.2.board with
      | some x => x.dividing == some sh
      | none => false

/-- The physical squares of a board's local tree. -/
def State.squaresOf (s : State) (board : Nat) : List Nat := (s.cfg.leaves board).filterMap s.physOf

/-- A command's context slots are ready: none runs or is being wiped (R291). -/
def State.slotsReady (s : State) (d : Cmd) : Bool :=
  (s.cfg.leaves d.board).all fun sq => match s.physOf sq, s.cfg.slotFor d.burgee d.cls sq with
    | some p, some k => !(s.ctx p k).active && !(s.ctx p k).wiping
    | _, _ => false

/-- A command can start on its board's squares now. -/
def State.canStart (s : State) (d : Cmd) : Bool :=
  match s.cfg.board d.board with
  | none => false
  | some b => (s.squaresOf d.board).all (s.squareTakes b) && s.slotsReady d && !s.hoist.held.contains d.board && !s.sched.stopped &&
      !s.pwr.issueStop

/-- The leaves of a command's board with their ranges (R73): the extents come from its kernel descriptor, a sub-command's from the device that
sent it (R77). -/
def State.leavesFor (s : State) (d : Cmd) : List Leaf :=
  let m := peekDev s (d.desc + 40) 4
  let n := peekDev s (d.desc + 44) 4
  let k := peekDev s (d.desc + 48) 4
  match d.sub with
  | none => s.cfg.spread d.board m n k
  | some _ =>
    s.cfg.spreadN boardDepth d.board d.above { m := d.ranges.getD 0 (0, m), n := d.ranges.getD 1 (0, n), k := d.ranges.getD 2 (0, k)
                                               last := d.subLast, root := d.subRoot }

/-- Launch a command on its members: local contexts start at their KERNEL_LAUNCH, remote members get sub-commands (R77, R78). `desc` is
the kernel, `bound` its bound in µs. -/
def launchCommand (n desc bound : Nat) (s : State) : State :=
  match s.cmd n with
  | none => s
  | some d =>
    let d := { d with desc := desc }
    let leaves := s.leavesFor d
    let members := leaves.filterMap fun l => if l.remote.isSome then none else
      match s.physOf l.sq, s.cfg.slotFor d.burgee d.cls l.sq with
      | some p, some k => some ({ psq := p, sq := l.sq, slot := k, index := l.index, base := l.base, len := l.len, root := l.root } : MemberRun)
      | _, _ => none
    let remotes := leaves.filterMap fun l => match l.remote with
      | some (dev, b) => some (l, ({ device := dev, board := b, base := l.base, len := l.len, squares := Config.remoteSquares dev b } : RemoteRun))
      | none => none
    let tempo := ((s.cfg.board d.board).map (·.tempo)).getD false
    let squares := if d.sub.isSome then d.squares else s.cfg.squareCount d.board
    let d := { d with stage := .launched, launchAt := s.up, startStamp := s.stamp, boundUs := bound, members := members
                      remotes := remotes.map (·.2), pennant := s.pennant, generation := s.gen, tempoHeld := tempo, squares := squares }
    let s := s.modBurgee d.burgee fun b => { b with msLaunches := b.msLaunches + 1 }
    let sub := fun (x : Leaf × RemoteRun) => ({
      src := s.deviceId, srcCmd := n, origin := s.origin d, board := x.2.board, burgee := d.burgee, cls := d.cls, tag := d.tag, desc := desc
      m := x.1.ranges.m, n := x.1.ranges.n, k := x.1.ranges.k, last := x.1.ranges.last, isRoot := x.1.root, above := x.1.above, squares := squares, energyUj := d.energyUj * x.2.squares / max 1 squares, boundUs := bound } : SubCmd)
    forAll remotes (fun x s => sendSub x.2.device d.burgee n (.start (sub x)) s) (s.setCmd n d)

/-- A command that will not launch, or that a fault of its form ends, takes its status (R310, R356). -/
def endCommand (n status reason : Nat) (s : State) : State :=
  s.modCmd n fun c => { c with stage := .ended, status := some (c.status.getD status), reason := if c.status.isSome then c.reason else reason }

/-- Cancel a launched command with a status (R78, R79, R284). -/
def cancelCommand (n status reason : Nat) (s : State) : State :=
  cancelMembers n (s.modCmd n fun c => if c.status.isSome then c else { c with status := some status, reason := reason })

-- ───────────────────────── holds (R47, R50)

/-- How long a command has waited in hold steps, the present one included (R50). -/
def State.heldNs (s : State) (d : Cmd) : Nat :=
  d.holdNs + (if s.hoist.held.contains d.board && d.stage != .launched && d.stage != .ended then s.up - max s.hoist.holdSince d.readAt else 0)

/-- The hold step is over: what the held boards' commands have waited in it stays with them (R50). -/
def endHold (s : State) : State :=
  { s with sched := { s.sched with cmds := s.sched.cmds.map fun c =>
      (c.1, if s.heldNs c.2 = c.2.holdNs then c.2 else { c.2 with holdNs := s.heldNs c.2, holdGen := s.hoist.newGen.toNat }) } }

/-- A command that misses its deadline and would not have without its waits in hold steps: its burgee's forfeit has the hoist as reason (R50). -/
def judgeDeadline (d : Cmd) (s : State) : State :=
  match d.deadline with
  | none => s
  | some t =>
    let w := s.heldNs d
    if w ≠ 0 ∧ t ≤ s.devTime ∧ s.devTime < t + w then forfeit 4 0x06 d.burgee (w / 1000) (if d.holdNs = 0 then s.hoist.newGen.toNat else d.holdGen) s
    else s

-- ───────────────────────── completion

/-- One counter record (R129). -/
def StreamCnt.record (c : StreamCnt) : List Byte :=
  leBytes 8 c.fetched ++ leBytes 8 c.used ++ leBytes 8 c.early ++ leBytes 8 c.late ++ leBytes 8 c.unused ++ leBytes 8 c.empty ++
    leBytes 8 c.full ++ leBytes 2 c.stale ++ leBytes 2 c.watchLost ++ leBytes 4 c.held

/-- The roll record (R336). -/
def Cmd.rollRecord (d : Cmd) : List Byte :=
  let window := bit d.aflags 3 || bit d.aflags 4
  leBytes 8 (min d.rolls.sum (2 ^ 64 - 1)) ++ leBytes 4 (min d.rolls.steals (2 ^ 32 - 1)) ++ leBytes 4 (min d.rolls.combines (2 ^ 32 - 1)) ++
    leBytes 4 (min d.rolls.ties (2 ^ 32 - 1)) ++ leBytes 4 (min d.rolls.routes (2 ^ 32 - 1)) ++ leBytes 4 (min d.rolls.falls (2 ^ 32 - 1)) ++ leBytes 4 0 ++
    leBytes 8 d.pennant.toNat ++ leBytes 8 d.generation.toNat ++ leBytes 2 d.squares ++
    leBytes 1 ((if d.replay && !window then 1 else 0) + (if d.tempoHeld then 2 else 0)) ++ leBytes 13 0

/-- Write the counter records and the roll record (R129, R336): each one that lies in the burgee's regions. -/
def writeCounters (d : Cmd) (s : State) : State :=
  if d.countAddr = 0 then s else
  let put := fun (a : Nat) (bs : List Byte) (s : State) => if s.cfg.owns d.burgee a bs.length then writeDev a bs false s else s
  put (d.countAddr + 1024) d.rollRecord (forAll d.cnts (fun e s => put (d.countAddr + 64 * e.1) e.2.record s) s)

def Cmd.flag (d : Cmd) (i : Nat) : Bool := bit d.flags i

/-- The signal of a command (R308, R315). -/
def signalCommand (d : Cmd) (s : State) : State :=
  if d.flag 3 then signalLocal d.signalAddr d.signalValue (d.flag 4) (chargeFor d.burgee d.signalAddr 8 true (d.flag 4) s) else s

/-- A span of device memory that the hub reads or writes for dispatch is served by its controllers (R124, R149). -/
def State.hubServes (s : State) (o n : Nat) (writes : Bool) : Bool := o + n > towerWindow || s.passes hubRequester none o n writes

/-- The controllers serve what the completion of a command writes: its counter and roll records, its signal and its completion record (R315). -/
def State.completionPasses (s : State) (d : Cmd) : Bool :=
  let g := s.burgee d.burgee
  d.sub.isSome || ((d.countAddr == 0 || s.hubServes d.countAddr 1088 true) &&
    (!d.flag 3 || s.passesFor hubRequester d.burgee d.signalAddr 8 true (d.flag 4)) &&
    (d.neural.isSome || s.hubServes (g.cplBase.toNat * 32 + 32 * (g.cplWrite.toNat % 2 ^ g.cplLog2.toNat)) 32 true))

/-- The 32 bytes of a completion record (R316). -/
def Cmd.record (d : Cmd) (status energy start stop : Nat) : List Byte :=
  let faulty := status == stFault || status == stOverrun
  leBytes 4 d.tag.toNat ++ leBytes 1 status ++ leBytes 1 (if faulty then d.reason else 0) ++ leBytes 1 d.aflags ++ leBytes 1 0 ++
    leBytes 2 d.faultSq ++ leBytes 2 (d.faultDev % 1024) ++ leBytes 4 start ++ leBytes 4 stop ++ leBytes 4 (min energy (2 ^ 32 - 1)) ++
    leBytes 4 d.index ++ leBytes 4 0

/-- Write a record into a burgee's completion ring (R316). -/
def writeCompletion (b : Nat) (bs : List Byte) (s : State) : State :=
  let g := s.burgee b
  let a := g.cplBase.toNat * 32 + 32 * (g.cplWrite.toNat % 2 ^ g.cplLog2.toNat)
  let s := if s.cfg.owns b a 32 then writeDev a bs false s else s
  s.modBurgee b fun g => { g with cplWrite := g.cplWrite + 1, cmdDone := satAdd 64 g.cmdDone 1 }

/-- Raise a burgee's vector (R317, R318). -/
def raiseVector (b vector : Nat) (ok irq : Bool) (s : State) : State :=
  if b = 0 then (if ok then (if irq then fire 6 s else s) else fire 7 s)
  else match s.cfg.burgee b with
    | none => s
    | some r => if ok then (if irq then fire (r.vectorBase + vector) s else s) else fire r.vectorBase s

/-- Under-declaration and penalty (R354): `energy` is the measured energy. -/
def judgeEstimate (d : Cmd) (energy : Nat) (s : State) : State :=
  let under := decide (5 * d.energyUj + 4000 < 4 * energy)
  let g := s.burgee d.burgee
  let recent := (under :: g.under).take 16
  let clean := if under then 0 else g.clean + 1
  let count := (recent.filter id).length
  let say := fun (x : Nat) => record 0x5001 dieHub noUnit (leBytes 1 d.burgee ++ leBytes 1 x ++ leBytes 2 0 ++ leBytes 4 count ++ leBytes 8 0)
  if !g.penalty && 4 ≤ count then say 1 (s.setBurgee d.burgee { g with under := recent, clean := clean, penalty := true })
  else if g.penalty && 64 ≤ clean then say 0 (s.setBurgee d.burgee { g with under := recent, clean := clean, penalty := false })
  else s.setBurgee d.burgee { g with under := recent, clean := clean }

/-- End a command: counters, signal, record, interrupt and energy, in the order of R315. A sub-command reports to its issuer instead (R335),
and a command that the device issued itself writes no record. -/
def finishCommand (n energy : Nat) (s : State) : State :=
  match s.cmd n with
  | none => s
  | some d =>
    let ran := d.stage != .ended || d.launchAt != 0
    let status := d.status.getD (if d.isFallback then stFallback else stOk)
    let ok := status == stOk || status == stFallback
    let s := if d.sub.isSome then s else writeCounters d s
    let s := if ok && d.sub.isNone then signalCommand d s else s
    let start := if ran then d.startStamp else s.stamp
    let s := match d.sub with
      | some (src, cmd) => sendSub src d.burgee n (.ended cmd {
          status := status, reason := d.reason, aflags := d.aflags, sq := d.faultSq, steals := d.rolls.steals, combines := d.rolls.combines
          ties := d.rolls.ties, routes := d.rolls.routes, falls := d.rolls.falls, replay := d.replay, energyUj := energy
          streams := d.cnts.map fun (e : Nat × StreamCnt) => (e.1, e.2.fields) }) s
      | none =>
        if d.neural.isSome then s
        else raiseVector d.burgee (bits d.flags 8 6) ok (d.flag 5) (writeCompletion d.burgee (d.record status (energy + d.remoteUj) start s.stamp) s)
    let s := s.modBurgee d.burgee fun b => { b with energyUj := satAdd 64 b.energyUj (energy + d.remoteUj) }
    let s := if ran then judgeEstimate d (energy + d.remoteUj) s else s
    (returnClaims n s).dropCmd n

end Sys2Proof.Machine
end

