-- ==== Sys2Proof/Machine/Mapping.lean ====
section
/-! DEFINITION. The physical layer's limits (R204, R206), and the mapping engine of a baseband die (R214, R215): scrambling, modulation and layer mapping of TS 38.211
(assumption 135). -/

namespace Sys2Proof.Machine

-- ───────────────────────── limits (R204)

/-- A PRACH format that the device detects. -/
def prachOk (p : PrachFormat) : Bool := match p with
  | .long n => decide (n ≤ 3)
  | .shortA n => decide (1 ≤ n) && decide (n ≤ 3)
  | .shortB n => decide (1 ≤ n) && decide (n ≤ 4)
  | .shortC n => n == 0 || n == 2

/-- What a CONFIG.request asks of the physical layer is supported. -/
def extrasOk (scs bwMhz : Nat) (x : CellExtras) : Bool :=
  !x.fr2 && !x.longCp && !x.sul && decide (x.ssbCase ≤ 2) && x.prach.all (fun p => prachOk p.1 && decide (p.2 ≤ 1)) &&
    (if scs = 0 then decide (5 ≤ bwMhz) && decide (bwMhz ≤ 50) else scs == 1 && decide (10 ≤ bwMhz) && decide (bwMhz ≤ 100))

/-- A PDSCH PDU keeps the limits: QPSK to 1024QAM, up to 8 layers, up to 12 DMRS ports of type 2 or 8 of type 1. Two codewords carry more than 4 layers. -/
def pdschOk (d : DlPdu) : Bool :=
  decide (1 ≤ d.layers) && decide (d.layers ≤ 8) && d.words.length == (if 4 < d.layers then 2 else 1) && d.words.all (fun w => [2, 4, 6, 8, 10].contains w.qm) &&
    (if d.dmrsType = 2 then decide (d.dmrsPorts ≤ 12) else d.dmrsType == 1 && decide (d.dmrsPorts ≤ 8))

/-- An uplink allocation of a cell with `rx` antennas keeps the limits. Modulation order 1 is π/2-BPSK, which DFT-s-OFDM alone has. -/
def allocOk (rx : Nat) (a : UlAlloc) : Bool := match a.kind with
  | .pusch => ([2, 4, 6, 8].contains a.qm || (a.dfts && a.qm == 1)) && decide (1 ≤ a.layers) && decide (a.layers ≤ if rx ≤ 4 then 4 else 8) && decide (a.harq < 16)
  | .pucch => decide (a.format ≤ 4)
  | .srs => [1, 2, 4].contains a.ports && [2, 4, 8].contains a.comb
  | .prach => prachOk a.prach

/-- Allocations of a kind that a die's engine serves in a slot (R206); none for PUSCH, whose decoders have queues. -/
def engineLimit (k : AllocKind) : Option Nat := match k with
  | .prach => some 16
  | .srs => some 64
  | .pucch => some 256
  | .pusch => none

-- ───────────────────────── scrambling (R214, R215)

/-- One step of the two registers of the length-31 Gold sequence. -/
def goldStep (x : BitVec 31 × BitVec 31) : BitVec 31 × BitVec 31 :=
  let put := fun (r : BitVec 31) (b : Bool) => (r >>> 1) ||| (if b then (1 : BitVec 31) <<< 30 else 0)
  (put x.1 (x.1.getLsbD 3 ^^ x.1.getLsbD 0), put x.2 (x.2.getLsbD 3 ^^ x.2.getLsbD 2 ^^ x.2.getLsbD 1 ^^ x.2.getLsbD 0))

/-- The registers after `n` steps. -/
def goldAfter : Nat → BitVec 31 × BitVec 31 → BitVec 31 × BitVec 31
  | 0, x => x
  | n + 1, x => goldAfter n (goldStep x)

/-- The next `n` bits. -/
def goldBits : Nat → BitVec 31 × BitVec 31 → List Bool
  | 0, _ => []
  | n + 1, x => (x.1.getLsbD 0 ^^ x.2.getLsbD 0) :: goldBits n (goldStep x)

/-- The first `n` bits of the sequence that c_init starts, the first 1,600 steps left out. -/
def goldSeq (cInit n : Nat) : List Bool := goldBits n (goldAfter 1600 (1, BitVec.ofNat 31 cInit))

/-- Scramble coded bits with a sequence that starts afresh from the codeword's c_init. -/
def scramble (w : DlWord) (l : List Bool) : List Bool := (l.zip (goldSeq w.cInit l.length)).map fun b => b.1 ^^ b.2

-- ───────────────────────── modulation (R215)

def sign (b : Bool) : Int := if b then -1 else 1

/-- The amplitude that the bits of one dimension select, before normalisation. -/
def amplitude : List Bool → Int
  | [] => 1
  | [b] => sign b
  | b :: c :: t => sign b * ((2 ^ (t.length + 1) : Nat) - amplitude (c :: t))

/-- A point's real and imaginary amplitude: even bits select the one, odd bits the other. -/
def point (l : List Bool) : Int × Int :=
  let part := fun (k : Nat) => amplitude ((((List.range l.length).zip l).filter fun b => b.1 % 2 == k).map (·.2))
  (part 0, part 1)

/-- The number under the root of the normalisation 1/√n of a modulation order. -/
def norm (qm : Nat) : Nat := if qm = 2 then 2 else if qm = 4 then 10 else if qm = 6 then 42 else if qm = 8 then 170 else 682

/-- The largest r below 2^n with r²·d ≤ a. -/
def rootBelow (a d : Nat) : Nat → Nat
  | 0 => 0
  | n + 1 =>
    let r := rootBelow (a / 4) d n * 2
    if (r + 1) * (r + 1) * d ≤ a then r + 1 else r

/-- √(a/d) rounded to nearest; the point tables have no ties. -/
def rootNear (a d : Nat) : Nat :=
  let r := rootBelow a d 24
  if (2 * r + 1) * (2 * r + 1) * d ≤ 4 * a then r + 1 else r

/-- An amplitude k/√n in 16-bit fixed point, scaled by 2^−1 in Q15. -/
def q15Point (n : Nat) (k : Int) : BitVec 16 := BitVec.ofInt 16 (k.sign * (rootNear (k.natAbs * k.natAbs * 2 ^ 28) n : Nat))

/-- An amplitude k/√n in BF16, rounded once with RNE. -/
def bf16Point (n : Nat) (k : Int) : BitVec 16 :=
  let a := k.natAbs * k.natAbs
  let down := ((List.range 16).find? fun j => decide (n ≤ a * 4 ^ j)).getD 0
  let mant := rootNear (a * 4 ^ (7 + down)) n
  BitVec.ofNat 16 ((if k < 0 then 32768 else 0) + (127 - down) * 128 + (mant - 128))

/-- A point as the mapping engine emits it. -/
def emitPoint (squares : Bool) (qm : Nat) (l : List Bool) : BitVec 16 × BitVec 16 :=
  let p := point l
  let f := if squares then bf16Point (norm qm) else q15Point (norm qm)
  (f p.1, f p.2)

/-- The points of a codeword. -/
def modulate (squares : Bool) (w : DlWord) (l : List Bool) : List (BitVec 16 × BitVec 16) :=
  (chunksOf w.qm (l.length / max 1 w.qm) (scramble w l)).map (emitPoint squares w.qm)

-- ───────────────────────── layer mapping (R214)

/-- Deal points out to `v` layers, one after another. -/
def dealLayers {α : Type} (v : Nat) (l : List α) : List (List α) :=
  (List.range v).map fun k => (((List.range l.length).zip l).filter fun x => x.1 % v == k).map (·.2)

/-- Codewords to layers: one goes to all of them, of two the first takes the lower half, rounded down. -/
def mapLayers {α : Type} (layers : Nat) (words : List (List α)) : List (List α) := match words with
  | [a] => dealLayers layers a
  | [a, b] => dealLayers (layers / 2) a ++ dealLayers (layers - layers / 2) b
  | _ => []

/-- A downlink PDU with its payload, through stages 1 to 6 of R214. -/
def mapPdu (squares : Bool) (d : DlPdu) (payload : List Byte) : Mapped :=
  { pdu := d.id, layers := mapLayers d.layers (d.words.map fun w =>
      modulate squares w (if d.pdsch then Config.ldpcCoded w payload else Config.polarCoded w payload)) }

end Sys2Proof.Machine
end

