-- ==== Sys2Proof/Machine/Radio.lean ====
section
/-! DEFINITION. Cells: rings, messages, slots, the uplink chain, measurements and neural functions (R204 to R233). A slot's number is
the count of slots since the start of a frame of SFN 0. -/

namespace Sys2Proof.Machine

-- ───────────────────────── time of slots (R250; symbol lengths of TS 38.211, assumption 44)

/-- The GPS epoch in device time (R250). -/
def gpsEpoch : Nat := 315964819000000000

/-- Slot length in ns by SCS (R204). -/
def slotNs (scs : Nat) : Nat := if scs = 0 then 1000000 else 500000

/-- Slots of a 10 ms frame. -/
def slotsPerFrame (scs : Nat) : Nat := if scs = 0 then 10 else 20

def slotStart (alpha scs slot : Nat) : Nat := gpsEpoch + alpha + slot * slotNs scs

/-- Samples at 122.88 Msps up to the start of a symbol: symbol 0 of each half millisecond is longer. -/
def symbolSamples (scs sym : Nat) : Nat :=
  if scs = 0 then sym * 8768 + 64 * ((sym + 6) / 7) else sym * 4384 + (if sym = 0 then 0 else 64)

def symbolStart (alpha scs slot sym : Nat) : Nat := slotStart alpha scs slot + symbolSamples scs sym * 3125 / 384

/-- SFN of a slot. -/
def sfnOf (scs slot : Nat) : Nat := slot / slotsPerFrame scs % 1024

-- ───────────────────────── messages (R207 to R210)

/-- Index of a message in the FAPI type table of SCF 222, which the spec does not lay out (assumption 45). -/
def msgConfig : Nat := 0
def msgStart : Nat := 1
def msgStop : Nat := 2
def msgDlTti : Nat := 3
def msgUlTti : Nat := 4
def msgUlDci : Nat := 5
def msgTxData : Nat := 6

/-- Index of an error code (R209, R211, R212). -/
def errState : Nat := 1
def errConfig : Nat := 2
def errSlot : Nat := 3
def errTx : Nat := 4

/-- Fields of a report of the UCI engine, its quality field invalid (R221). -/
def UciReport.fields (r : UciReport) : List Int :=
  let word := fun (l : List Bool) => [(l.length : Int)] ++ l.map fun b => if b then 1 else 0
  [(r.alloc : Int)] ++ word r.harqAck ++ word r.sr ++ word r.csi ++ [r.ta, r.rssi, Config.fapiInvalid 12]

/-- Type, fields and data of an uplink message's body. A field that the device does not measure holds its invalid value (R221). -/
def UlMsg.parts : UlMsg → Nat × List Int × List Byte
  | .configResponse ok => (7, [Config.fapiMsgCode (if ok then 0 else errConfig)], [])
  | .stopIndication => (8, [], [])
  | .slotIndication n => (9, [n], [])
  | .rxData n a data => (10, [n, a], data)
  | .crc n a ok => (11, [n, a, if ok then 0 else 1, Config.uplinkMeasure n a 0, Config.uplinkMeasure n a 1, Config.fapiInvalid 11], [])
  | .uci n l => (12, (n : Int) :: l.flatMap UciReport.fields, [])
  | .srs n l => (13, (n : Int) :: l.flatMap (fun r => (r.alloc : Int) :: r.ta :: Config.fapiInvalid 13 :: r.channel), [])
  | .rach n l => (14, (n : Int) :: l.flatMap (fun p => [(p.index : Int), p.ta, p.power]), [])
  | .error c t n => (15, [Config.fapiMsgCode c, t, n], [])

def HoistCfg.cells (cfg : HoistCfg) : List CellRec := match cfg.radio with
  | some r => r.cells
  | none => []

def HoistCfg.cellRec (cfg : HoistCfg) (c : Nat) : Option CellRec := cfg.cells.find? (·.id == c)
def HoistCfg.flows (cfg : HoistCfg) : List FlowRec := match cfg.radio with
  | some r => r.flows
  | none => []

/-- The device offset of a region offset: its units in ascending tower, then unit (R155, inverse). -/
def Region.deviceOffset (r : Region) (a : Nat) : Nat :=
  let u := a / gib
  let t := (bitList 6 r.mask).getD (u / max 1 r.units) 0
  (t * 72 + r.first + u % max 1 r.units) * gib + a % gib

/-- The ring directory (R207). -/
def HoistCfg.directory (cfg : HoistCfg) (off : Nat) : Option Nat :=
  (cfg.regions.find? fun r => r.part == 0 && r.id == 1).map (·.deviceOffset off)

/-- Write a field of the cell's directory entry. -/
def writeEntry (c : Cell) (off v : Nat) (s : State) : State :=
  match s.cfg.directory (64 + 64 * c.dirIndex + off) with
  | some a => writeDev a (leBytes 4 v) false s
  | none => s

/-- Read a field of the cell's directory entry. -/
def State.entryField (s : State) (c : Cell) (off n : Nat) : Nat :=
  match s.cfg.directory (64 + 64 * c.dirIndex + off) with
  | some a => peekDev s a n
  | none => 0

/-- The device reads a field of the cell's directory entry from its tower (R150). -/
def noteField (c : Cell) (off n : Nat) (s : State) : State :=
  match s.cfg.directory (64 + 64 * c.dirIndex + off) with
  | some a => (readDev a n s).2
  | none => s

/-- The controllers serve a span of a cell's rings (R124, R149). -/
def State.ringServes (s : State) (o n : Nat) (writes : Bool) : Bool := decide (towerWindow < o + n) || s.passes hubRequester (some 0) o n writes

/-- Change a cell. -/
def State.modCell (n : Nat) (f : Cell → Cell) (s : State) : State :=
  { s with radio := { s.radio with cells := Assoc.modify s.radio.cells n f } }

/-- Free 64-byte blocks of the uplink ring. -/
def State.ulRoom (s : State) (c : Cell) : Nat := c.ulSize / 64 - (c.ulWrite + 2 ^ 32 - s.entryField c 52 4) % 2 ^ 32

/-- One ring entry (R208). -/
def ringEntry (typ cell len seq : Nat) (body : List Byte) : List Byte :=
  leBytes 2 typ ++ leBytes 2 cell ++ leBytes 4 len ++ leBytes 4 seq ++ leBytes 4 0 ++ body

/-- Blocks that a body takes (R208). -/
def ringBlocks (len : Nat) : Nat := ceilDiv (16 + len) 64

/-- Write an uplink message if the ring has room for it and a PAD that it may need, and the controllers take it (R124, R208, R213). -/
def tryPublish (cell : Nat) (m : UlMsg) (s : State) : Option State :=
  match s.cell cell with
  | none => some s
  | some c =>
    let x := m.parts
    let body := Config.fapiBody x.1 x.2.1 x.2.2
    let size := c.ulSize / 64
    let at_ := c.ulWrite % max 1 size
    let need := ringBlocks body.length
    let pad := if at_ + need ≤ size then 0 else size - at_
    if !c.dirRead ∨ s.ulRoom c < need + pad ∨ !s.ringServes (c.ulBase + 64 * ((at_ + pad) % max 1 size)) (16 + body.length) true then none
    else
      let s := noteField c 52 4 s
      let s := if pad = 0 then s
        else writeDev (c.ulBase + 64 * at_) (ringEntry 0xFFFF cell (64 * pad - 16) c.ulSeq []) false s
      let seq := if pad = 0 then c.ulSeq else c.ulSeq + 1
      let s := writeDev (c.ulBase + 64 * ((at_ + pad) % max 1 size)) (ringEntry (Config.fapiType x.1).toNat cell body.length seq body) false s
      let c := { c with ulWrite := (c.ulWrite + pad + need) % 2 ^ 32, ulSeq := (seq + 1) % 2 ^ 32 }
      some ((writeEntry c 48 c.ulWrite s).setCell cell c)

/-- The deadline of a waiting message has passed (R213). -/
def UlWait.over (w : UlWait) (now : Nat) : Bool := w.due.any fun t => decide (t ≤ now)

/-- Drop the waiting messages of a cell whose deadline has passed, counted and recorded (R213, R232). -/
def dropOverdue (cell : Nat) (s : State) : State := match s.cell cell with
  | none => s
  | some c =>
    let l := c.waiting.filter (·.over s.devTime)
    if l.isEmpty then s
    else
      let die := dieBase (((s.cfg.cellRec cell).map (·.bDie)).getD 0)
      forAll l (fun _ s => record 0x3003 die noUnit [] s) (s.setCell cell { c with
        waiting := c.waiting.filter fun w => !w.over s.devTime
        cnt := { c.cnt with ringFull := satAdd 32 c.cnt.ringFull l.length } })

/-- Publish the waiting messages of a cell while there is room; the count bounds them. -/
def drainUl (cell : Nat) : Nat → State → State
  | 0, s => s
  | n + 1, s => match s.cell cell with
    | none => s
    | some c => match c.waiting with
      | [] => s
      | m :: t => match tryPublish cell m.msg (s.setCell cell { c with waiting := t }) with
        | some s => drainUl cell n s
        | none => s

/-- Send an uplink message, by a deadline if it has one: it waits behind those that wait for room (R213). -/
def publishBy (cell : Nat) (m : UlMsg) (due : Option Nat) (s : State) : State :=
  let s := dropOverdue cell (s.modCell cell fun c => { c with waiting := c.waiting ++ [{ msg := m, due := due }] })
  drainUl cell (match s.cell cell with
    | some c => c.waiting.length
    | none => 0) s

/-- Send an uplink message without a deadline. -/
def publish (cell : Nat) (m : UlMsg) (s : State) : State := publishBy cell m none s

/-- ERROR.indication (R209). -/
def sendError (cell code mtype slot : Nat) (s : State) : State := publish cell (.error code mtype slot) s

/-- A cell changes state (R210, R232). -/
def enterCell (cell : Nat) (st : CellSt) (s : State) : State :=
  match s.cell cell with
  | none => s
  | some c => if c.st = st then s else
    record 0x3000 (dieBase (((s.cfg.cellRec cell).map (·.bDie)).getD 0)) noUnit [] (s.setCell cell { c with st := st })

/-- Entries that the radio stack has published (R207): a running cell has read DL_WRITE at its slot boundary (R212). -/
def State.published (s : State) (c : Cell) : Nat :=
  ((if c.st = .running then c.dlWrite else s.entryField c 40 4) + 2 ^ 32 - c.dlRead) % 2 ^ 32

/-- The block of the next downlink entry past any PAD, and the blocks that it and the PAD take (R208). -/
def State.nextEntry (s : State) (c : Cell) : Nat × Nat :=
  let size := max 1 (c.dlSize / 64)
  let at_ := c.dlRead % size
  let pad := if peekDev s (c.dlBase + 64 * at_) 2 = 0xFFFF then size - at_ else 0
  let b := (at_ + pad) % size
  (b, pad + ringBlocks (peekDev s (c.dlBase + 64 * b + 4) 4))

/-- Take the next downlink entry: its message is the command's. -/
def withMessage (cell : Nat) (k : Cell → State → State) (s : State) : Result :=
  match s.cell cell with
  | none => impossible "no such cell"
  | some c =>
    if !c.dirRead || s.published c == 0 then impossible "no message is published"
    else
      let e := s.nextEntry c
      let a := c.dlBase + 64 * e.1
      let n := 16 + peekDev s (a + 4) 4
      let c := { c with dlRead := (c.dlRead + e.2) % 2 ^ 32 }
      whenServed (s.ringServes a n false) (fun s => .next (k c (writeEntry c 44 c.dlRead ((readDev a n (noteField c 40 4 s)).2.setCell cell c)))) s

-- ───────────────────────── doorbell, configuration, start, stop

/-- CELL_DOORBELL (R207, R311): a TARGET 1 doorbell. -/
def execCellDoorbell (p : Pasid) (page : Nat) (value : BitVec 32) (s : State) : Result :=
  if 256 ≤ page then impossible "no such page" else
  fromPage p page (fun s =>
    let g := s.burgee page
    let n := value.toNat % 65536
    match s.cell n with
    | some c =>
      if !g.en || s.cfg.partOf page != some 0 then .next (s.modBurgee page fun g => { g with dbErr := satAdd 32 g.dbErr 1 })
      else if c.dirRead && !c.dirDue then .next s
      else match s.cfg.directory 0 with
        | none => .next s
        | some d =>
          match (List.range (peekDev s d 2)).find? fun i => match s.cfg.directory (64 + 64 * i) with
            | some a => peekDev s a 2 == n
            | none => false with
          | none => .next s
          | some i =>
            let a := (s.cfg.directory (64 + 64 * i)).getD 0
            let v := readDev a 64 s
            let f := fieldAt v.1.1
            if v.1.2 then .next v.2
            else .next (v.2.setCell n { c with dirRead := true, dirDue := false, dirIndex := i, dlSize := f 4 4, dlBase := f 8 8, ulBase := f 16 8
                                               ulSize := f 24 4, statusAddr := f 32 8, dlRead := f 44 4, ulWrite := f 48 4 })
    | none => .next (s.modBurgee page fun g => { g with dbErr := satAdd 32 g.dbErr 1 })) s

/-- A vendor TLV in its range, set in the cell's parameters (R211). -/
def Tlvs.put (t : Tlvs) (tag : Nat) (v : Int) : Option Tlvs :=
  let n := v.toNat
  let nat := fun (lo hi : Nat) (x : Tlvs) => if (lo : Int) ≤ v ∧ v ≤ (hi : Int) then some x else none
  match tag with
  | 0xA001 => nat 0 4095 { t with neuralBoard := n }
  | 0xA002 => nat 0 2 { t with neuralMode := n }
  | 0xA003 => nat 20 300 { t with neuralBudget := n }
  | 0xA004 => nat 1 16 { t with maxIter := n }
  | 0xA005 => nat 10 100 { t with ulWindow := n }
  | 0xA006 => if -30 ≤ v ∧ v ≤ -6 then some { t with agcTarget := v } else none
  | 0xA007 => nat 0 288 { t with rampSamples := n }
  | 0xA008 => if 0 ≤ v ∧ bits n 15 0 ≤ 10000 ∧ n / 65536 ≤ 10000 then some { t with paLead := bits n 15 0, paLag := n / 65536 } else none
  | 0xA009 => nat 0 400 { t with prachThresh := n }
  | _ => some t

def Tlvs.putAll : List (Nat × Int) → Tlvs → Option Tlvs
  | [], t => some t
  | (tag, v) :: r, t => match t.put tag v with
    | some t => Tlvs.putAll r t
    | none => none

/-- A neural board is one of partition 0 with a FLAGFALL record that has the mode's entry (R225). -/
def HoistCfg.neuralOk (cfg : HoistCfg) (t : Tlvs) : Bool :=
  t.neuralMode == 0 || match cfg.board t.neuralBoard, cfg.flagfalls.find? (·.board == t.neuralBoard) with
    | some b, some f => b.part == 0 && decide (t.neuralMode ≤ f.entries.length)
    | _, _ => false

/-- Every port that carries a flow of the cell has a peer entry for it (R237). -/
def State.peersOk (s : State) (cell : Nat) : Bool :=
  (s.cfg.flows.filter (·.cell == cell)).all fun f => s.fh.peers.any fun p => p.cell == cell && p.port == f.port

/-- CONFIG_REQUEST (R204, R210, R211, R225, R237). -/
def execConfigRequest (cell : Nat) (r : ConfigReq) (s : State) : Result :=
  withMessage cell (fun c s =>
    if c.st = .running then sendError cell errState (Config.fapiType msgConfig).toNat 0 s
    else match s.cfg.cellRec cell, Tlvs.putAll r.tlvs {} with
      | some e, some t =>
        if extrasOk r.scs r.bwMhz r.extras ∧ r.bwMhz = e.bwMhz ∧ r.scs = e.scs ∧ r.tx = e.tx ∧ r.rx = e.rx ∧ r.duplex = e.duplex ∧ s.cfg.neuralOk t ∧ s.peersOk cell then
          let s := s.modCell cell fun c => { c with tlv := t, cnt := {}, ulSeq := 0, starting := false, stopped := none }
          publish cell (.configResponse true) (enterCell cell .configured s)
        else publish cell (.configResponse false) (s.modCell cell fun c => { c with ulSeq := 0 })
      | _, _ => publish cell (.configResponse false) (s.modCell cell fun c => { c with ulSeq := 0 })) s

/-- START_REQUEST (R210, R258, R425). -/
def execStartRequest (cell : Nat) (s : State) : Result :=
  withMessage cell (fun c s =>
    if c.st = .configured ∧ s.muster.st ≠ .benched ∧ s.time.st ≠ .freerun ∧ s.time.st ≠ .acquiring then s.modCell cell fun c => { c with starting := true }
    else sendError cell errState (Config.fapiType msgStart).toNat 0 s) s

/-- STOP_REQUEST (R210, R233): the cell stops at its next slot boundary. -/
def execStopRequest (cell : Nat) (s : State) : Result :=
  withMessage cell (fun c s =>
    if c.st = .running then s.modCell cell fun c => { c with stopping := true }
    else sendError cell errState (Config.fapiType msgStop).toNat 0 s) s

/-- OTHER_DOWNLINK_MESSAGE (R209). -/
def execOtherDownlinkMessage (cell : Nat) (mtype : BitVec 16) (s : State) : Result :=
  withMessage cell (fun _ s => sendError cell errState mtype.toNat 0 s) s

-- ───────────────────────── slot messages (R212)

/-- The slot boundary at which a STOP.request takes or took effect (R210, R233). -/
def Cell.stopAt (c : Cell) : Option Nat :=
  if c.stopSlot.isSome then c.stopSlot else if c.stopping then some (c.slotNow.getD 0 + 1) else if c.st = .running then none else c.stopped

/-- A message for a slot: discarded without an answer after a stop, answered by an error in another state or when late, and else taken. -/
def slotMessage (cell msg slot : Nat) (take : State → State) (s : State) : Result :=
  withMessage cell (fun c s =>
    let typ := (Config.fapiType msg).toNat
    if c.stopAt.any fun n => decide (n < slot) then s
    else if c.st ≠ .running then sendError cell errState typ slot s
    else if slot < c.slotNow.getD 0 + 2 then
      let s := record 0x3001 (dieBase (((s.cfg.cellRec cell).map (·.bDie)).getD 0)) noUnit (item slot ++ item typ) s
      if c.lateSlots.contains slot then s
      else sendError cell errSlot typ slot (s.modCell cell fun c =>
        { c with lateSlots := slot :: c.lateSlots, cnt := { c.cnt with dlLate := satAdd 32 c.cnt.dlLate 1 } })
    else take s) s

/-- DL_TTI_REQUEST (R212, R214). -/
def execDlTtiRequest (cell slot : Nat) (pdus : List DlPdu) (s : State) : Result :=
  slotMessage cell msgDlTti slot (fun s => s.modCell cell fun c => { c with dl := Assoc.set c.dl slot (Assoc.get c.dl slot [] ++ pdus) }) s

/-- UL_DCI_REQUEST (R209). -/
def execUlDciRequest (cell slot : Nat) (dcis : List DlPdu) (s : State) : Result :=
  slotMessage cell msgUlDci slot (fun s => s.modCell cell fun c => { c with dci := Assoc.set c.dci slot (Assoc.get c.dci slot [] ++ dcis) }) s

/-- TX_DATA_REQUEST (R209, R212). -/
def execTxDataRequest (cell slot : Nat) (pdus : List TxPdu) (s : State) : Result :=
  slotMessage cell msgTxData slot (fun s => s.modCell cell fun c => { c with tx := Assoc.set c.tx slot (Assoc.get c.tx slot [] ++ pdus) }) s

/-- Allocations of a kind that a die's engine has for the time of a cell's slot (R206): those of all cells of the die whose slots overlap it. -/
def State.engineLoad (s : State) (e : CellRec) (slot : Nat) (k : AllocKind) : Nat :=
  let from_ := slot * slotNs e.scs
  (s.cfg.cells.map fun x => if x.bDie ≠ e.bDie then 0 else match s.cell x.id with
    | none => 0
    | some c => (c.allocs.filter fun r => r.alloc.kind == k && decide (r.slot * slotNs x.scs < from_ + slotNs e.scs) &&
        decide (from_ < (r.slot + 1) * slotNs x.scs)).length).sum

/-- Take one allocation of a slot with its gain freeze (R217, R222). One outside the limits of R204, or beyond those of its engine in R206, is not served and
answered with MSG_SLOT_ERR (assumption 136). -/
def takeAlloc (cell slot : Nat) (e : CellRec) (a : UlAlloc) (s : State) : State :=
  if !allocOk e.rx a || (engineLimit a.kind).any fun n => decide (n ≤ s.engineLoad e slot a.kind) then
    sendError cell errSlot (Config.fapiType msgUlTti).toNat slot s
  else s.modCell cell fun c => { c with
    allocs := c.allocs ++ [{ slot := slot, alloc := a }], freezes := c.freezes ++ [(slot * 14 + a.firstSym, slot * 14 + a.lastSym)] }

/-- UL_TTI_REQUEST (R204, R206, R217, R222): the slot's allocations. -/
def execUlTtiRequest (cell slot : Nat) (allocs : List UlAlloc) (s : State) : Result :=
  slotMessage cell msgUlTti slot (fun s => match s.cfg.cellRec cell with
    | some e => forAll allocs (takeAlloc cell slot e) s
    | none => s) s

/-- A payload of a TX_Data (R209, R212): inline, or at a pointer into partition 0's regions; none where a granule is poisoned or the pointer leaves them. -/
def State.txPayload (s : State) (t : TxPdu) : Option (List Byte) :=
  if t.poison then none
  else match t.pointer with
    | none => some t.bytes
    | some (o, n) =>
      let v := s.tower.read s.cfg.key o n
      if s.cfg.rangeIn (fun r => r.part == 0) o n && !v.2 then some v.1 else none

/-- The payload of a downlink PDU of a slot: a PDSCH has that of its TX_Data, and none outside the limits of R204 (assumption 136). -/
def State.dlPayload (s : State) (tx : List TxPdu) (d : DlPdu) : Option (List Byte) :=
  if !d.pdsch then some d.payload
  else if !pdschOk d then none
  else (tx.find? (·.id == d.id)).bind s.txPayload

/-- Reads of tower memory that the pointers of a slot's payloads cause (R150). -/
def notePayload (t : TxPdu) (s : State) : State := match t.pointer with
  | some (o, n) => if s.cfg.rangeIn (fun r => r.part == 0) o n then (readDev o n s).2 else s
  | none => s

/-- A cell precoded on squares (R215, R216): TX of 8 or more in category A. -/
def CellRec.onSquares (e : CellRec) : Bool := decide (8 ≤ e.tx) && e.split == 0

/-- Execute a slot's downlink (R212, R214, R215): each PDSCH without a good payload fails with MSG_TX_ERR, and the mapping engine puts out the rest. -/
def runDownlink (cell slot : Nat) (s : State) : State :=
  match s.cell cell with
  | none => s
  | some c =>
    let tx := Assoc.get c.tx slot []
    let l := (Assoc.get c.dl slot [] ++ Assoc.get c.dci slot []).map fun d => (d, s.dlPayload tx d)
    let bad := l.filter (·.2.isNone)
    let squares := ((s.cfg.cellRec cell).map CellRec.onSquares).getD false
    let grid := l.filterMap fun x => x.2.map (mapPdu squares x.1)
    let s := forAll bad (fun _ s => sendError cell errTx (Config.fapiType msgDlTti).toNat slot s) (forAll tx notePayload s)
    s.modCell cell fun c => { c with
      cnt := { c.cnt with txErr := satAdd 32 c.cnt.txErr bad.length }
      grid := grid
      dl := c.dl.filter (slot < ·.1), tx := c.tx.filter (slot < ·.1), dci := c.dci.filter (slot < ·.1) }

/-- A stopped cell whose indications are all delivered sends STOP.indication and is CONFIGURED (R210, R233). -/
def finishStop (cell : Nat) (s : State) : State :=
  match s.cell cell with
  | none => s
  | some c =>
    if c.stopSlot.isSome && c.allocs.isEmpty then
      enterCell cell .configured (publish cell .stopIndication (s.setCell cell { c with
        stopping := false, stopSlot := none, stopped := c.stopSlot, slotNow := none, dl := [], tx := [], dci := [], grid := [], freezes := [], gains := []
        clips := [] }))
    else s

/-- SLOT.indication leaves within 10 µs of its slot's boundary (R213). -/
def slotIndicationDue (s : State) (e : CellRec) (slot : Nat) : Nat := slotStart s.time.alpha e.scs slot + 10000

/-- SLOT_BOUNDARY (R210, R212, R213, R233). -/
def execSlotBoundary (cell slot : Nat) (s : State) : Result :=
  match s.cell cell, s.cfg.cellRec cell with
  | some c, some e =>
    if s.devTime < slotStart s.time.alpha e.scs slot then impossible "the boundary is not reached"
    else if c.st = .configured ∧ c.starting then
      if slot % slotsPerFrame e.scs = 0 ∧ sfnOf e.scs slot % 2 = 0 then
        let s := s.setCell cell { c with starting := false, stopped := none, slotNow := some slot, lateSlots := [], seqIds := [], sentIds := []
                                         dlWrite := s.entryField c 40 4, cnt := { c.cnt with slots := satAdd 32 c.cnt.slots 1 } }
        .next (publishBy cell (.slotIndication slot) (some (slotIndicationDue s e slot)) (enterCell cell .running s))
      else .next s
    else if c.st ≠ .running then impossible "the cell does not run"
    else if (c.slotNow.map fun m => decide (slot ≤ m)).getD false then impossible "the boundary has been read"
    else if c.stopSlot.isSome then impossible "the cell has stopped"
    else
      let s := drainUl cell c.waiting.length (dropOverdue cell s)
      if c.stopping then
        .next (finishStop cell (s.modCell cell fun c => { c with stopSlot := some slot, allocs := c.allocs.filter (·.slot < slot) }))
      else
        let s := s.modCell cell fun c => { c with
          dlWrite := s.entryField c 40 4, slotNow := some slot, lateSlots := c.lateSlots.filter (fun x => decide (slot ≤ x + 4))
          freezes := c.freezes.filter (fun f => decide (slot * 14 ≤ f.2 + 28))
          cnt := { c.cnt with slots := satAdd 32 c.cnt.slots 1 } }
        .next (publishBy cell (.slotIndication slot) (some (slotIndicationDue s e slot)) (runDownlink cell slot s))
  | _, _ => impossible "no such cell"

-- ───────────────────────── gain (R222)

/-- The first symbol of the merged freeze that covers a symbol: freezes that touch or overlap merge. -/
def freezeStart (l : List (Nat × Nat)) : Nat → Nat → Nat
  | 0, x => x
  | n + 1, x => if 1 ≤ x && l.any (fun f => decide (f.1 ≤ x - 1) && decide (x - 1 ≤ f.2)) then freezeStart l n (x - 1) else x

def frozen (l : List (Nat × Nat)) (x : Nat) : Bool := l.any fun f => decide (f.1 ≤ x) && decide (x ≤ f.2)

/-- The gain in sixteenths of a dB that brings a symbol of the given power, in sixteenths of a dB below full scale, to the target. -/
def gainFor (target : Int) (below : Nat) : Int := max (-384) (min 768 (target * 16 + below))

/-- A sample of magnitude `x` exceeds 16 bits after a gain of g/16 dB, that is a factor of 10^(g/320): compared exactly. -/
def saturates (x : Nat) (g : Int) : Bool :=
  if 0 ≤ g then decide (32767 ^ 320 < x ^ 320 * 10 ^ g.toNat) else decide (32767 ^ 320 * 10 ^ (-g).toNat < x ^ 320)

/-- The gain of antenna `a`'s symbol `x`: the freeze keeps that of its first symbol. -/
def Cell.gain (c : Cell) (x a below : Nat) : Int × Cell :=
  let own := gainFor c.tlv.agcTarget below
  if !frozen c.freezes x then (own, c)
  else
    let f := freezeStart c.freezes (c.freezes.length * 14) x
    match Assoc.find c.gains (f * 256 + a) with
    | some g => (g, c)
    | none => (own, { c with gains := Assoc.set (c.gains.filter fun e => decide (x ≤ e.1 / 256 + 280)) (f * 256 + a) own })

-- ───────────────────────── the uplink chain (R217 to R220)

/-- Receive antennas of a cell, as its uplink U-plane flows (R36). -/
def HoistCfg.ulFlows (cfg : HoistCfg) (cell : Nat) : List FlowRec := cfg.flows.filter fun f => f.cell == cell && f.uplink && !f.cplane

/-- Cycles of a code block's decode (R217). -/
def decodeCycles (rows zc iters : Nat) : Nat := 16 + iters * (ceilDiv (rows * zc) 128 + 4)

/-- The latest moment for an allocation's indications (R213). -/
def indicationDeadline (alpha scs slot lastSym : Nat) : Nat := symbolStart alpha scs slot (lastSym + 1) + slotNs scs

/-- When the die's queue would be empty with a further block of `cycles`, in device time: eight decoders share the work, at 0.8 ns a
cycle (R206, R218; assumption 46). -/
def State.queueEmpty (s : State) (die cycles : Nat) : Nat :=
  s.devTime + (((Assoc.get s.radio.queues die []).map fun b => decodeCycles b.rows b.zc b.limit).sum + cycles) / 10

/-- A block's iteration limit and whether it is capped (R218). -/
def State.iterLimit (s : State) (die rows zc maxIter due : Nat) : Nat × Bool :=
  let meets := fun (i : Nat) => decide (s.queueEmpty die (decodeCycles rows zc i) + 20000 ≤ due)
  if maxIter ≤ 2 ∨ meets maxIter then (maxIter, false)
  else
    let l := ((List.range maxIter).filter fun i => decide (2 ≤ i) && meets i)
    (l.getLast?.getD 2, true)

/-- Bytes that a HARQ buffer takes: whole granules (R219). -/
def harqBytes (ncb : Nat) : Nat := ceilDiv ncb 32 * 32
def harqKey (a : UlAlloc) (number : Nat) : Nat := (a.ue * 16 + a.harq) * 1024 + number

/-- Free the buffers of an allocation's HARQ process. -/
def Cell.freeHarq (c : Cell) (a : UlAlloc) : Cell := { c with harq := Assoc.dropRange c.harq (harqKey a 0) (harqKey a 0 + 1024) }

/-- The process holds buffers. -/
def Cell.hasHarq (c : Cell) (a : UlAlloc) : Bool := c.harq.any fun b => decide (harqKey a 0 ≤ b.1) && decide (b.1 < harqKey a 0 + 1024)

/-- The lowest place for a buffer of `n` bytes in `total` bytes (assumption 137). -/
def Cell.harqPlace (c : Cell) (n total : Nat) : Option Nat :=
  ((0 :: c.harq.map fun b => b.2.off + harqBytes b.2.len).filter fun o => decide (o + n ≤ total) &&
    c.harq.all fun b => decide (o + n ≤ b.2.off) || decide (b.2.off + harqBytes b.2.len ≤ o)).min?

/-- A cell with buffers for `blocks` code blocks of an allocation from `number` on; none where they do not all fit (R219, R220). -/
def Cell.placeHarq (total : Nat) (a : UlAlloc) : Nat → Cell → Option Cell
  | 0, c => some c
  | n + 1, c => (c.harqPlace (harqBytes a.ncb) total).bind fun o =>
      Cell.placeHarq total a n { c with harq := Assoc.set c.harq (harqKey a (a.blocks - (n + 1))) { off := o, len := a.ncb, filled := false } }

/-- The allocation's run as it stands in its cell changes. -/
def Cell.modAlloc (c : Cell) (r : AllocRun) (g : AllocRun → AllocRun) : Cell :=
  { c with allocs := c.allocs.map fun x => if x.slot = r.slot ∧ x.alloc = r.alloc then g x else x }

/-- An allocation's LLRs are not kept: HARQ_NOSTORE is counted and recorded (R220, R232). -/
def noStore (cell : Nat) (r : AllocRun) (s : State) : State :=
  let s := s.modCell cell fun c => ({ c with cnt := { c.cnt with noStore := satAdd 32 c.cnt.noStore 1 } }).modAlloc r fun x => { x with noStore := true }
  record 0x3006 (dieBase (((s.cfg.cellRec cell).map (·.bDie)).getD 0)) noUnit [] s

/-- Take buffers for new data, or for a retransmission whose process holds none (R219, R220). None fit: the block is not stored. -/
def takeHarq (cell units : Nat) (r : AllocRun) (s : State) : State :=
  match s.cell cell with
  | none => s
  | some c =>
    let c := c.modAlloc r fun x => { x with begun := true }
    if !r.alloc.newData && c.hasHarq r.alloc then s.setCell cell c
    else match (c.freeHarq r.alloc).placeHarq (units * 192 * mib) r.alloc r.alloc.blocks with
      | some c => s.setCell cell c
      | none => noStore cell r (s.setCell cell (c.freeHarq r.alloc))

/-- The granules of a HARQ buffer, as offsets in device memory (R30, R219). -/
def HoistCfg.harqGranules (cfg : HoistCfg) (cell : Nat) (b : HarqBuf) : List Nat :=
  match cfg.regions.find? fun r => r.part == 0 && r.harq with
  | none => []
  | some g => (List.range (harqBytes b.len / 32)).map fun i => g.deviceOffset (firstSlice cell cfg.cells * 192 * mib + b.off + 32 * i)

/-- The LLRs of a HARQ buffer, and whether a granule of it is poisoned. -/
def State.harqLlrs (s : State) (cell : Nat) (b : HarqBuf) : List Byte × Bool :=
  let l := (s.cfg.harqGranules cell b).map fun a => s.tower.read s.cfg.key a 32
  (fitTo b.len (l.flatMap (·.1)), l.any (·.2))

/-- Write the LLRs of a HARQ buffer to tower memory. -/
def writeHarq (cell : Nat) (b : HarqBuf) (llrs : List Byte) (s : State) : State :=
  let l := s.cfg.harqGranules cell b
  forAll ((List.range l.length).zip l) (fun x s => writeDev x.2 (fitTo 32 ((fitTo b.len llrs).drop (32 * x.1))) false s) s

/-- Queue one code block (R218). -/
def queueBlock (cell : Nat) (e : CellRec) (r : AllocRun) (number : Nat) (s : State) : State :=
  match s.cell cell with
  | none => s
  | some c =>
    let due := indicationDeadline s.time.alpha e.scs r.slot r.alloc.lastSym
    let l := s.iterLimit e.bDie r.alloc.rows r.alloc.zc c.tlv.maxIter due
    let b : Block := { id := s.radio.nextBlk, cell := cell, slot := r.slot, alloc := r.alloc.id, number := number, rows := r.alloc.rows
                       zc := r.alloc.zc, limit := l.1, capped := l.2, due := due }
    let s := { s with radio := { s.radio with nextBlk := s.radio.nextBlk + 1
                                              queues := Assoc.set s.radio.queues e.bDie (Assoc.get s.radio.queues e.bDie [] ++ [b]) } }
    if !l.2 then s
    else
      let first := c.iterSlot != some r.slot
      let s := s.modCell cell fun c => { c with iterSlot := some r.slot, cnt := { c.cnt with iterCap := satAdd 32 c.cnt.iterCap 1 } }
      if first then record 0x3005 (dieBase e.bDie) noUnit [] s else s

/-- Queue code blocks of an allocation whose LLRs all exist (R217, R218); the first of them take its buffers. -/
def queueBlocks (cell : Nat) (r : AllocRun) (blocks : List Nat) (s : State) : State :=
  match s.cfg.cellRec cell with
  | none => s
  | some e =>
    if blocks.isEmpty then s
    else
      let s := s.modCell cell fun c => c.modAlloc r fun x => { x with queued := x.queued ++ blocks, neural := none }
      forAll blocks (queueBlock cell e r) (if r.begun then s else takeHarq cell e.units r s)

/-- The burgee of partition 0 that a neural command runs for: the lowest with a slot on every square of the board (assumption 43). -/
def HoistCfg.neuralBurgee (cfg : HoistCfg) (board : Nat) : Nat :=
  ((cfg.burgees.filter fun b => b.part == 0 && (cfg.leaves board).all fun sq => (cfg.slotFor b.burgee 0 sq).isSome).map (·.burgee)).min?.getD 0

/-- Issue the neural command of an allocation (R225): the primary kernel of the mode's entry, with an absolute deadline. -/
def issueNeural (cell : Nat) (e : CellRec) (r : AllocRun) (s : State) : State :=
  match s.cell cell with
  | none => s
  | some c =>
    match s.cfg.flagfalls.find? (·.board == c.tlv.neuralBoard) with
    | none => s
    | some f =>
      let n := s.sched.nextCmd
      let arrival := symbolStart s.time.alpha e.scs r.slot (r.alloc.lastSym + 1) + c.tlv.ulWindow * 1000
      let d : Cmd := { id := n, burgee := s.cfg.neuralBurgee c.tlv.neuralBoard, opcode := 1, cls := 0, board := c.tlv.neuralBoard
                       fallback := c.tlv.neuralMode - 1, energyUj := Config.neuralEnergy c.tlv.neuralBoard, maxDurUs := c.tlv.neuralBudget
                       desc := (f.entries.getD (c.tlv.neuralMode - 1) (0, 0)).1, stage := .energy, readAt := s.up, waitedSince := s.up
                       deadline := some (arrival + c.tlv.neuralBudget * 1000), neural := some (cell, r.slot, r.alloc.id) }
      let s := s.modCell cell fun c => c.modAlloc r fun x => { x with neural := some n }
      ({ s with sched := { s.sched with nextCmd := n + 1 } }).setCmd n d

/-- A neural command has ended (R226): its output serves the allocation, or the classical result does. The blocks are queued then. -/
def neuralEnded (d : Cmd) (ok : Bool) (cause : Nat) (s : State) : State :=
  match d.neural with
  | none => s
  | some (cell, slot, alloc) =>
    match s.cell cell with
    | none => s
    | some c =>
      let die := ((s.cfg.cellRec cell).map (·.bDie)).getD 0
      let s := if ok then s.setCell cell { c with cnt := { c.cnt with neuralRun := satAdd 32 c.cnt.neuralRun 1 } }
        else record 0x3004 (dieBase die) noUnit (item (Config.causeCode cause)) (s.setCell cell { c with cnt := { c.cnt with neuralFb := satAdd 32 c.cnt.neuralFb 1 } })
      match c.allocs.find? fun r => r.slot == slot && r.alloc.id == alloc && r.neural == some d.id with
      | some r => queueBlocks cell r (List.range r.alloc.blocks) s
      | none => s

/-- Every symbol of the allocation up to one of them is in for every antenna. -/
def AllocRun.inTo (r : AllocRun) (antennas last : Nat) : Bool :=
  (List.range (last + 1 - r.alloc.firstSym)).all fun i => (List.range antennas).all fun a =>
    (Assoc.find r.arrived ((r.alloc.firstSym + i) * 256 + a)).isSome

/-- The code blocks of an allocation that are not queued and whose LLRs all exist (R217). -/
def AllocRun.readyBlocks (r : AllocRun) (antennas : Nat) : List Nat :=
  (List.range r.alloc.blocks).filter fun k => !r.queued.contains k && r.inTo antennas (r.alloc.needs.getD k r.alloc.lastSym)

/-- A symbol of an antenna is in, as samples or as zeros: the code blocks that it completes go on to decoding, or the allocation that it completes to the
neural board (R217, R225). -/
def symbolIn (cell slot sym ant : Nat) (s : State) : State :=
  match s.cell cell, s.cfg.cellRec cell with
  | some c, some e =>
    let here := fun (r : AllocRun) => r.slot == slot && decide (r.alloc.firstSym ≤ sym) && decide (sym ≤ r.alloc.lastSym)
    let c := { c with allocs := c.allocs.map fun r => if here r then { r with arrived := Assoc.set r.arrived (sym * 256 + ant) true } else r }
    let n := (s.cfg.ulFlows cell).length
    forAll (c.allocs.filter fun r => here r && r.alloc.kind == .pusch) (fun r s =>
      if c.tlv.neuralMode = 0 then queueBlocks cell r (r.readyBlocks n) s
      else if r.neural.isNone && r.queued.isEmpty && r.inTo n r.alloc.lastSym then issueNeural cell e r s
      else s) (s.setCell cell c)
  | _, _ => s

/-- UL_WINDOW_EXPIRY (R211, R233, R242): the window of an antenna's symbol has passed without it, so it is taken as zeros. -/
def execUlWindowExpiry (cell slot symbol ant : Nat) (s : State) : Result :=
  match s.cell cell, s.cfg.cellRec cell with
  | some c, some e =>
    if c.st ≠ .running ∨ s.devTime < symbolStart s.time.alpha e.scs slot (symbol + 1) + c.tlv.ulWindow * 1000 ∨ 14 ≤ symbol ∨
      (s.cfg.ulFlows cell).length ≤ ant then impossible "no such window has passed"
    else if !c.allocs.any fun r => r.slot == slot && decide (r.alloc.firstSym ≤ symbol) && decide (symbol ≤ r.alloc.lastSym) &&
      (Assoc.find r.arrived (symbol * 256 + ant)).isNone then impossible "no symbol is missing"
    else
      let s := s.setCell cell { c with cnt := { c.cnt with ulLate := satAdd 32 c.cnt.ulLate 1 } }
      .next (symbolIn cell slot symbol ant (record 0x3002 (dieBase e.bDie) noUnit [] s))
  | _, _ => impossible "no such cell"

/-- Saturating addition of signed 8-bit LLRs (R219). -/
def addLlr (a b : Byte) : Byte := BitVec.ofInt 8 (max (-128) (min 127 (a.toInt + b.toInt)))

/-- The bytes of a decoded transport block, its code blocks in order (R209, R217). -/
def AllocRun.bytes (r : AllocRun) : List Byte := (List.range r.alloc.blocks).flatMap fun k => Assoc.get r.data k []

/-- An allocation is over: its CRC and data are reported, and a stopped cell may finish (R209, R213, R217, R221). -/
def finishAlloc (cell : Nat) (r : AllocRun) (ok : Bool) (s : State) : State :=
  let due := (s.cfg.cellRec cell).map fun e => indicationDeadline s.time.alpha e.scs r.slot r.alloc.lastSym
  let s := s.modCell cell fun c =>
    let c := if ok then c.freeHarq r.alloc else c
    { c with allocs := c.allocs.filter (fun x => !(x.slot == r.slot && x.alloc == r.alloc))
             cnt := if ok then { c.cnt with crcOk := satAdd 32 c.cnt.crcOk 1 } else { c.cnt with crcFail := satAdd 32 c.cnt.crcFail 1 } }
  let s := publishBy cell (.crc r.slot r.alloc.id ok) due s
  finishStop cell (if ok then publishBy cell (.rxData r.slot r.alloc.id r.bytes) due s else s)

/-- Allocations of a slot whose deadline has passed. -/
def State.lateAllocs (s : State) (c : Cell) (e : CellRec) (slot : Nat) : List AllocRun :=
  c.allocs.filter fun r => r.slot == slot && decide (indicationDeadline s.time.alpha e.scs slot r.alloc.lastSym ≤ s.devTime)

/-- The deadline of a slot's indications (R213, R218): a PUSCH whose decoding has not ended is reported with its CRC failed, where the
ring has room at that moment. A PRACH, SRS or PUCCH allocation whose engine has not reported is dropped without an indication, a counter or a record: DESIGN CHOICE, the
spec says nothing of it (assumption 138). Messages that found no room by their deadline are dropped. -/
def expireSlot (cell slot : Nat) (s : State) : State :=
  match s.cell cell, s.cfg.cellRec cell with
  | some c, some e =>
    let late := s.lateAllocs c e slot
    let s := { s with radio := { s.radio with queues := s.radio.queues.map fun q =>
      (q.1, q.2.filter fun b => !(b.cell == cell && b.slot == slot && late.any fun r => r.alloc.id == b.alloc)) } }
    let s := dropOverdue cell s
    finishStop cell (forAll late (fun r s =>
      if r.alloc.kind = .pusch then
        let s := forAll (List.range (r.alloc.blocks - r.done)) (fun _ s => record 0x3007 (dieBase e.bDie) noUnit [] s) s
        publishBy cell (.crc r.slot r.alloc.id false) (some (s.devTime + 1)) (s.modCell cell fun c => { c with
          allocs := c.allocs.filter (fun x => !(x.slot == r.slot && x.alloc == r.alloc)), cnt := { c.cnt with crcFail := satAdd 32 c.cnt.crcFail 1 } })
      else s.modCell cell fun c => { c with allocs := c.allocs.filter fun x => !(x.slot == r.slot && x.alloc == r.alloc) }) s)
  | _, _ => s

/-- A block's decode has ended with its LLRs (R219, R220): they enter an empty buffer, or are combined with those of one that is clean. A poisoned buffer is freed
and nothing is kept. -/
def keepLlrs (cell : Nat) (r : AllocRun) (number : Nat) (llrs : List Byte) (s : State) : State :=
  match s.cell cell with
  | none => s
  | some c =>
    let key := harqKey r.alloc number
    match Assoc.find c.harq key with
    | none => s
    | some b =>
      let full := s.setCell cell { c with harq := Assoc.set c.harq key { b with filled := true } }
      if !b.filled then writeHarq cell b llrs full
      else
        let old := s.harqLlrs cell b
        let s := forAll (s.cfg.harqGranules cell b) (fun a s => (readDev a 32 s).2) full
        if old.2 then noStore cell r (s.setCell cell { c with harq := Assoc.erase c.harq key })
        else writeHarq cell b ((old.1.zip (fitTo b.len llrs)).map fun x => addLlr x.1 x.2) s

/-- CODE_BLOCK_DECODED (R217 to R220): one of the eight decoders of a die ends a block, with the LLRs of this transmission and what it decoded to. -/
def execCodeBlockDecoded (die block : Nat) (crcOk : Bool) (iters : Nat) (bits : DecodedBits) (s : State) : Result :=
  match ((Assoc.get s.radio.queues die []).take 8).find? (·.id == block) with
  | none => impossible "no decoder has that block"
  | some b =>
    if iters = 0 ∨ b.limit < iters then impossible "more iterations than its limit"
    else
      let s := { s with radio := { s.radio with queues := Assoc.set s.radio.queues die ((Assoc.get s.radio.queues die []).filter (·.id != block)) } }
      let s := if b.due ≤ s.devTime then expireSlot b.cell b.slot s else s
      match s.cell b.cell with
      | none => .next s
      | some c =>
        match c.allocs.find? fun r => r.slot == b.slot && r.alloc.id == b.alloc with
        | none => .next s
        | some r =>
          let r' := { r with done := r.done + 1, ok := r.ok && crcOk, data := Assoc.set r.data b.number bits.data }
          let s := s.setCell b.cell (c.modAlloc r fun x => { x with done := r'.done, ok := r'.ok, data := r'.data })
          let s := if r.noStore then s else keepLlrs b.cell r b.number bits.llrs s
          if r'.done < r'.alloc.blocks then .next s else .next (finishAlloc b.cell r' r'.ok s)

/-- The kind of allocation that an engine's report covers. -/
def reportKind : EngineReport → AllocKind
  | .prach _ => .prach
  | .srs _ => .srs
  | .uci _ => .pucch

/-- The indication of an engine's report (R221): preambles above PRACH_THRESH over the noise floor, and all that the others report. -/
def reportMessage (r : EngineReport) (slot : Nat) (t : Tlvs) : UlMsg := match r with
  | .prach l => .rach slot (l.filter fun p => decide ((t.prachThresh : Int) < p.level))
  | .srs l => .srs slot l
  | .uci l => .uci slot l

/-- UPLINK_ENGINE_REPORT (R213, R221): the PRACH, SRS or UCI engine of the cell's die reports for a slot. -/
def execUplinkEngineReport (cell slot die : Nat) (report : EngineReport) (s : State) : Result :=
  match s.cell cell, s.cfg.cellRec cell with
  | some c, some e =>
    let mine := fun (r : AllocRun) => r.slot == slot && r.alloc.kind == reportKind report
    if die ≠ e.bDie then impossible "another die serves the cell"
    else if !c.allocs.any mine then impossible "no such allocation"
    else if (s.lateAllocs c e slot).any mine then .next (expireSlot cell slot s)
    else
      let due := ((c.allocs.filter mine).map fun r => indicationDeadline s.time.alpha e.scs slot r.alloc.lastSym).max?
      .next (finishStop cell (publishBy cell (reportMessage report slot c.tlv) due (s.setCell cell { c with allocs := c.allocs.filter fun r => !mine r })))
  | _, _ => impossible "no such cell"

/-- UPLINK_INDICATION_DEADLINE (R15, R213, R218): what a slot has not finished is reported failed, and what found no room is dropped. -/
def execUplinkIndicationDeadline (cell slot : Nat) (s : State) : Result :=
  match s.cell cell, s.cfg.cellRec cell with
  | some c, some e =>
    if (s.lateAllocs c e slot).isEmpty && !(c.waiting.any (·.over s.devTime)) then impossible "no deadline has passed"
    else .next (expireSlot cell slot s)
  | _, _ => impossible "no such cell"

-- ───────────────────────── measurements (R223, R224)

def CellSt.code : CellSt → Nat
  | .hoisted => 0
  | .configured => 1
  | .running => 2

/-- The cell's status area (R224). -/
def Cell.status (c : Cell) (rx : Nat) : List Byte :=
  let n := c.cnt
  leBytes 2 n.sfn ++ leBytes 1 c.st.code ++ leBytes 1 0 ++ ([n.slots, n.dlLate, n.txErr, n.ulLate, n.ringFull, n.neuralRun, n.neuralFb, n.iterCap,
    n.noStore, n.crcOk, n.crcFail, n.clip].flatMap fun v => leBytes 4 v) ++ leBytes 12 0 ++
    (List.range rx).flatMap fun a => leBytes 2 (match Assoc.find n.noise a with
      | some v => ofSigned 16 v
      | none => 0x8000) ++ leBytes 2 (ofSigned 16 (n.rssi.getD a 0))

/-- FRAME_END (R223, R224): measurements in 0.1 dBFS; an antenna that is not listed had too few idle resource elements. -/
def execFrameEnd (cell sfn : Nat) (noise : List (Nat × Int)) (rssi : List Int) (s : State) : Result :=
  match s.cell cell, s.cfg.cellRec cell with
  | some c, some e =>
    if !c.dirRead then impossible "the cell's area is not known"
    else
      let c := { c with cnt := { c.cnt with sfn := sfn % 1024, noise := noise.foldl (fun m x => Assoc.set m x.1 x.2) [], rssi := rssi } }
      .next (writeDev c.statusAddr (c.status e.rx) false (s.setCell cell c))
  | _, _ => impossible "no such cell"

/-- RADIO_STATUS (R224). -/
def execRadioStatus (p : Pasid) (len : Nat) (s : State) : Result :=
  mailboxRead p 0x0005 len (fun s => s.cfg.cells.flatMap fun e => match s.cell e.id with
    | some c => c.status e.rx
    | none => ({} : Cell).status e.rx) s

-- ───────────────────────── signal cores (R229 to R231)

/-- One accumulation: a sum beyond ±(2^39 − 1) saturates and sets SAT (R229). -/
def accumulate (acc x : Int) : Int × Bool :=
  let m : Int := 2 ^ 39 - 1
  if m < acc + x then (m, true) else if acc + x < -m then (-m, true) else (acc + x, false)

/-- A complex multiply-accumulate of 16-bit values into an accumulator of a core (R229). -/
def SignalCore.mac (k : SignalCore) (i : Nat) (a b : Int × Int) : SignalCore :=
  let v := k.acc.getD i (0, 0)
  let re := accumulate v.1 (a.1 * b.1 - a.2 * b.2)
  let im := accumulate v.2 (a.1 * b.2 + a.2 * b.1)
  { k with acc := ((List.range 8).map fun j => if j = i then (re.1, im.1) else k.acc.getD j (0, 0)), sat := k.sat || re.2 || im.2 }

/-- The program memory of a signal core: what the firmware image that booted carries for it (R229, R376). -/
def signalProgram (s : State) (core : Nat) : List Byte := Config.coreProgram s.ident.fwBytes core

/-- A post-modify of an address generator by an offset (R229): an address that leaves the circular buffer wraps into it. -/
def AddrGen.postModify (g : AddrGen) (off : Int) : AddrGen :=
  let a : Int := g.addr + off
  { g with addr := if g.len = 0 then a.toNat % 131072 else g.base + ((a - g.base) % (g.len : Int)).toNat }

/-- Redundant sign bits of a 40-bit value (R230): how many k from 1 to 39 leave it within 40 − k bits. -/
def redundantBits (v : Int) : Nat :=
  ((List.range 39).filter fun k => decide (-((2 ^ (38 - k) : Nat) : Int) ≤ v) && decide (v < ((2 ^ (38 - k) : Nat) : Int))).length

/-- Round to nearest, ties to even, a quotient by a power of two. -/
def roundShift (v : Int) (n : Nat) : Int :=
  let q := v / (2 ^ n : Nat)
  let r := v % (2 ^ n : Nat)
  if 2 * r < (2 ^ n : Nat) then q else if (2 ^ n : Nat) < 2 * r then q + 1 else if q % 2 = 0 then q else q + 1

/-- The block scaling of R230: the exponent and the 16-bit values. -/
def blockScale (l : List Int) : Nat × List Int :=
  let r := (l.map redundantBits).min?.getD 39
  let e := 9 - r
  (e, l.map fun v => max (-32768) (min 32767 (roundShift v (15 + e))))

/-- A move of the accumulators to a granule of the data memory (R229, R230), with the exponent that is written beside the block;
in memory a complex value is its real part before its imaginary part. -/
def SignalCore.moveBlock (k : SignalCore) (addr : Nat) : SignalCore × Nat :=
  let b := blockScale ((List.range 8).flatMap fun i => let v := k.acc.getD i (0, 0); [v.1, v.2])
  ({ k with data := k.data.put (addr / 32) (Code.clean (bytesGranule (b.2.flatMap fun v => leBytes 2 (ofSigned 16 v)))) }, b.1)

/-- A read of a core's data memory, checked and corrected (R137, R229). -/
def SignalCore.load (k : SignalCore) (addr n : Nat) : List Byte × Bool := k.data.read id addr n

/-- The min/max search of R231: the extreme value and its lowest index. -/
def searchBest (better : Int → Int → Bool) (l : List Int) : Option (Int × Nat) :=
  ((List.range l.length).zip l).foldl (fun b x => match b with
    | none => some (x.2, x.1)
    | some y => if better x.2 y.1 then some (x.2, x.1) else some y) none

end Sys2Proof.Machine
end

