-- ==== Sys2Proof/Machine/Slices.lean ====
section
/-! DEFINITION. Board time (R280 to R289): which commands may launch, slices, turn-table windows, passes and debts. -/

namespace Sys2Proof.Machine

def HoistCfg.turntable (cfg : HoistCfg) (board : Nat) : Option TurnTable := cfg.turntables.find? (·.board == board)
def HoistCfg.flagfall (cfg : HoistCfg) (board : Nat) : Option FlagFall := cfg.flagfalls.find? (·.board == board)
def State.turnRun (s : State) (board : Nat) : TurnRun := Assoc.get s.sched.turns board {}
def State.setTurn (board : Nat) (r : TurnRun) (s : State) : State := { s with sched := { s.sched with turns := Assoc.set s.sched.turns board r } }

/-- Length of a turn (R34). -/
def turnNs : Nat := 2000

-- ───────────────────────── turn-table windows and guards (R281, R282)

/-- The command of a board's last window still runs. -/
def State.turnBusy (s : State) (r : TurnRun) : Bool := match r.cmd with
  | some n => (s.cmd n).isSome
  | none => false

/-- A window of a turn-table board is open: its end has not come, or its command has not ended (R281, R283). -/
def State.inWindow (s : State) (board : Nat) : Bool :=
  let r := s.turnRun board
  (r.owner.isSome && decide (s.up < r.windowEnd)) || s.turnBusy r

/-- Within GUARD_US before a launch turn of a turn-table board (R282). -/
def State.inGuard (s : State) (t : TurnTable) : Bool :=
  let r := s.turnRun t.board
  (List.range t.turns.length).any fun i => match t.turns[(r.pos + i) % t.turns.length]? with
    | some e => e.action == 1 && decide (r.due + i * turnNs ≤ s.up + t.guardUs * 1000)
    | none => false

/-- A physical square is kept by a turn-table board other than `board`. -/
def State.keptByTurns (s : State) (board p : Nat) : Bool :=
  s.cfg.turntables.any fun t => t.board != board && (s.squaresOf t.board).contains p && (s.inWindow t.board || s.inGuard t)

-- ───────────────────────── which commands may launch

/-- The burgee has launches left in this millisecond (R279). -/
def State.rateLeft (s : State) (b : Nat) : Bool := match s.cfg.burgee b with
  | some r => r.cmdRate == 0 || decide ((s.burgee b).msLaunches < r.cmdRate)
  | none => true

/-- A KERNEL command that has passed steps 3 to 5 and may launch (R17, R269, R279). -/
def State.eligible (s : State) (d : Cmd) : Bool :=
  d.stage == .eligible && d.opcode == 1 && s.inState d.burgee [.active] && !(s.burgee d.burgee).cutHold && s.rateLeft d.burgee

/-- It launches at a command boundary without a slice (R284, R287). -/
def State.atBoundary (s : State) (d : Cmd) : Bool :=
  d.forced || match s.cfg.board d.board with
    | some b => (d.cls == 0 && b.part == 0) || (d.cls == 1 && s.cfg.reservedOn d.burgee d.board)
    | none => false

/-- It launches in a slice: on a board without a turn table. -/
def State.sliced (s : State) (d : Cmd) : Bool := (s.cfg.turntable d.board).isNone && !s.atBoundary d

/-- Every square of the command's board is clear for it. -/
def State.clear (s : State) (d : Cmd) : Bool := s.canStart d && (s.squaresOf d.board).all fun p => !s.keptByTurns d.board p

-- ───────────────────────── passes (R285)

def passKey (b : Nat) : Nat := 65536 + b
def State.pass (s : State) (k : Nat) : Nat := Assoc.get s.sched.passes k 0
def State.addPass (k n : Nat) (s : State) : State := { s with sched := { s.sched with passes := Assoc.set s.sched.passes k (s.pass k + n) } }
def State.partKey (s : State) (b : Nat) : Nat := (s.cfg.partOf b).getD 0

/-- Charge board time to a burgee's passes. -/
def chargePass (b used : Nat) (s : State) : State :=
  let u := min used 1000
  let w := max 1 (((s.cfg.burgee b).map (·.weight)).getD 1)
  (s.addPass (s.partKey b) u).addPass (passKey b) (u * 65536 / w)

/-- Burgees that wait for a slice or hold one. -/
def State.waiters (s : State) : List Nat :=
  (s.sched.cmds.filter fun c => c.2.stage == .eligible && c.2.opcode == 1 && s.sliced c.2).map (·.2.burgee) ++ s.sched.slices.map (·.burgee)

/-- Raise a pass that starts waiting to the lowest pass waiting at its level. -/
def raisePass (k : Nat) (others : List Nat) (s : State) : State :=
  if others.contains k then s
  else match (others.map s.pass).min? with
    | some m => if s.pass k < m then { s with sched := { s.sched with passes := Assoc.set s.sched.passes k m } } else s
    | none => s

/-- A burgee starts waiting for board time. -/
def startWaiting (b : Nat) (s : State) : State :=
  let w := s.waiters
  let part := s.partKey b
  let peers := w.filter fun x => s.partKey x == part
  raisePass (passKey b) (peers.map passKey) (raisePass part (w.map s.partKey) s)

-- ───────────────────────── slices

def debtKey (b board : Nat) : Nat := b * 4096 + board

/-- The slice's nominal end has come; a paused slice's clock stands. -/
def State.sliceOver (s : State) (x : Slice) : Bool := x.pausedAt.isNone && decide (x.opened + x.length + x.paused ≤ s.up)

/-- Order of the waiting (board, burgee) pairs, as their best command stands (R285), with promotion or without it. -/
def State.pairAhead (s : State) (promotes : Bool) (a b : Cmd) : Bool :=
  let key := fun (d : Cmd) => [d.cls, (if promotes && d.promoted then 0 else 1), s.pass (s.partKey d.burgee), s.pass (passKey d.burgee), d.id, d.burgee]
  decide (key a < key b)

/-- The best of a list under an order. -/
def best (ahead : Cmd → Cmd → Bool) (l : List Cmd) : Option Cmd := l.foldl (fun b d => match b with
  | some x => if ahead d x then some d else some x
  | none => some d) none

/-- A burgee's commands that may launch on a board in its slice; a held board has none (R47). -/
def State.waitingIn (s : State) (board b : Nat) : List Cmd :=
  if s.hoist.held.contains board then []
  else (s.sched.cmds.map (·.2)).filter fun d => s.eligible d && s.sliced d && d.board == board && d.burgee == b

/-- The command that a slice launches next: class 1 goes first in it (R287, R300), then ring order (R313; assumption 147). -/
def State.nextIn (s : State) (board b : Nat) : Option Cmd :=
  best (fun x y => decide ([(if x.cls = 1 then 0 else 1), x.id] < [(if y.cls = 1 then 0 else 1), y.id])) (s.waitingIn board b)

/-- Every square of a board is free for a slice (R285, R289): what holds it pins the same dividing shape and leaves a segment. -/
def State.freeForSlice (s : State) (board : Nat) : Bool :=
  match s.cfg.board board with
  | none => false
  | some bd => (s.squaresOf board).all fun p =>
      let h := s.sched.slices.filter fun x => (s.squaresOf x.board).contains p
      s.squareTakes bd p && !s.keptByTurns board p && (h.isEmpty || match bd.dividing with
        | none => false
        | some sh => decide (h.length < shapeSegs sh) && h.all fun x => match s.cfg.board x.board with
          | some o => o.dividing == some sh
          | none => false)

/-- Waiting pairs, each by its best command, in the order of R285. -/
def State.pairs (s : State) : List Cmd :=
  let l := (s.sched.cmds.map (·.2)).filter fun d => s.eligible d && s.sliced d && !s.hoist.held.contains d.board &&
    !(s.sched.slices.any fun x => x.board == d.board && x.burgee == d.burgee) && best Cmd.ahead (s.waitingIn d.board d.burgee) == some d
  l.mergeSort fun a b => !s.pairAhead true b a

/-- The pair that starts a slice: the first whose squares are all free and not reserved by a pair before it. -/
def State.pickPair (s : State) : List Cmd → List Nat → Option Cmd
  | [], _ => none
  | d :: t, taken =>
    let sq := s.squaresOf d.board
    if sq.any taken.contains then s.pickPair t (taken ++ sq)
    else if s.freeForSlice d.board then some d
    else s.pickPair t (taken ++ sq)

/-- The burgee whose slice a promotion takes, and the squares that it loses (R292, R293): the pair that would go first on squares of the promoted one but for the
promotion. -/
def State.takenFrom (s : State) (d : Cmd) : Option (Nat × Nat) :=
  let sq := s.squaresOf d.board
  if !d.promoted then none
  else (best (s.pairAhead false) (s.pairs.filter fun e => e != d && (s.squaresOf e.board).any sq.contains)).bind fun e =>
    if s.pairAhead false e d then some (e.burgee, ((s.squaresOf e.board).filter sq.contains).length) else none

/-- A command that launches at the next command boundary waits for squares of a board (R284, R287): no slice launches there before it. -/
def State.urgentOn (s : State) (board : Nat) : Bool :=
  let sq := s.squaresOf board
  s.sched.cmds.any fun c => s.eligible c.2 && s.atBoundary c.2 && (s.cfg.turntable c.2.board).isNone && !s.hoist.held.contains c.2.board &&
    (s.squaresOf c.2.board).any sq.contains && (s.squaresOf c.2.board).all fun p => !s.keptByTurns c.2.board p

/-- Launch a command; its bound is its declared maximum duration (R286). -/
def launchIt (d : Cmd) (s : State) : State := launchCommand d.id d.desc (if d.isFallback then d.boundUs else d.maxDurUs) s

/-- The next command of an open slice launches when the board's squares are clear (R285, R286). -/
def pumpSlice (x : Slice) (s : State) : State :=
  if x.pausedAt.isSome || s.sliceOver x || s.urgentOn x.board then s
  else match s.nextIn x.board x.burgee with
    | some d => if s.clear d then launchIt d s else s
    | none => s

/-- A paused slice goes on once nothing of others runs on its squares and no window holds them (R282, R287). -/
def resumeSlice (x : Slice) (s : State) : Slice :=
  match x.pausedAt with
  | none => x
  | some t =>
    if (s.squaresOf x.board).all fun p => !(s.cfg.turntables.any fun u => (s.squaresOf u.board).contains p && s.inWindow u.board) &&
      (s.runningOn p).all fun c => c.2.burgee == x.burgee && c.2.board == x.board && !c.2.priority
    then { x with pausedAt := none, paused := x.paused + (s.up - t) } else x

/-- Let slices go on and launch what they have. -/
def pumpSlices (s : State) : State :=
  let s := { s with sched := { s.sched with slices := s.sched.slices.map fun x => resumeSlice x s } }
  forAll s.sched.slices pumpSlice s

/-- Pause the slices that hold any of the squares. -/
def pauseSlices (l : List Nat) (s : State) : State :=
  { s with sched := { s.sched with slices := s.sched.slices.map fun x =>
      if x.pausedAt.isNone && (s.squaresOf x.board).any l.contains then { x with pausedAt := some s.up } else x } }

-- ───────────────────────── turns (R281, R283)

/-- The burgee that owns a context slot of a board. -/
def HoistCfg.slotOwner (cfg : HoistCfg) (board slot : Nat) : Option Nat :=
  match cfg.leaves board with
  | [] => none
  | sq :: _ => (cfg.share sq slot).map (·.burgee)

/-- The command that a launch turn launches: the oldest eligible one of the owner, with the tag that KERNEL_SLOT names. -/
def State.turnCmd (s : State) (t : TurnTable) (e : Turn) : Option Cmd :=
  match s.cfg.slotOwner t.board e.slot with
  | none => none
  | some b => best (fun x y => decide (x.id < y.id)) ((s.sched.cmds.map (·.2)).filter fun d => s.eligible d && d.board == t.board && d.burgee == b &&
      s.cfg.slotFor b d.cls ((s.cfg.leaves t.board).headD 0) == some e.slot && (e.kernelSlot == 0xFFFF || d.tag.toNat % 65536 == e.kernelSlot))

/-- What a square draws at full load, in mA (R358). -/
def fullLoadMa : Nat := 12000

/-- The squares of a TEMPO board with a turn table, on which the governor acts (R360). -/
def State.tempoSquares (s : State) (board : Nat) : Nat :=
  if ((s.cfg.board board).map (·.tempo)).getD false then (s.squaresOf board).length else 0

/-- The current of the fill on a board's squares now, in mA: it changes by 250 A/µs, up to 12 A per square (R359, R360). -/
def State.fillMa (s : State) (board : Nat) : Nat :=
  let full := fullLoadMa * s.tempoSquares board
  match (s.turnRun board).fill with
  | none => 0
  | some f => if f.rises then min full (250 * (s.up - f.since)) else full - 250 * (s.up - f.since)

/-- What the governor leaves to tenants of the 2,100 A: the current that windows draw is reserved before, and fill takes its part (R358 to R360). -/
def State.tenantMa (s : State) : Nat :=
  2100000 - (s.cfg.turntables.map fun t => (s.turnRun t.board).reserved + s.fillMa t.board).sum

/-- The governor at a board's launch turns (R360): `fill` replaces the fill on its squares, and a window reserves their full load. -/
def governTurn (board : Nat) (fill : Option Fill) (reserves : Bool) (s : State) : State :=
  let n := s.tempoSquares board
  if n = 0 then s
  else s.setTurn board { s.turnRun board with fill := fill, reserved := if reserves then fullLoadMa * n else 0 }

/-- A launch turn takes effect, its window ending at `stop`: the kernel's activity replaces the fill, which is withdrawn where nothing launches (R360). -/
def runTurn (t : TurnTable) (e : Turn) (stop : Nat) (s : State) : State :=
  let r := s.turnRun t.board
  let idle := governTurn t.board (r.fill.map fun _ => { rises := false, since := s.up }) false
    (s.setTurn t.board { r with owner := none, cmd := none, delayed := none, empty := r.empty + 1 })
  match s.turnCmd t e with
  | none => idle
  | some d =>
    if !s.clear d then idle
    else
      let s := s.setTurn t.board { r with owner := some e.slot, windowEnd := stop, cmd := some d.id, delayed := none }
      launchIt d (pauseSlices (s.squaresOf t.board) (governTurn t.board none true s))

/-- A window's command has ended: an overrun becomes a debt of its context, and a delayed launch goes ahead (R283). -/
def turnEnded (n : Nat) (s : State) : State :=
  forAll (s.cfg.turntables.filter fun t => (s.turnRun t.board).cmd == some n) (fun t s =>
    let r := s.turnRun t.board
    let debts := if r.windowEnd < s.up then Assoc.set r.debts (r.owner.getD 0) (Assoc.get r.debts (r.owner.getD 0) 0 + ceilDiv (s.up - r.windowEnd) 1000) else r.debts
    let s := s.setTurn t.board { r with cmd := none, debts := debts, delayed := none }
    match r.delayed with
    | some (i, stop) => match t.turns[i]? with
      | some e => if s.up < stop then runTurn t e stop s else s
      | none => s
    | none => s) s

end Sys2Proof.Machine
end

