-- ==== Sys2Proof/Machine/HostCmd.lean ====
section
/-! DEFINITION. Command rings, doorbells and the way of a command through R17 (R298, R307 to R318, R351 to R356), copies, sub-commands
(R77, R78, R335) and host memory accesses (R303). -/

namespace Sys2Proof.Machine

def countDbErr (b : Nat) (s : State) : State := s.modBurgee b fun g => { g with dbErr := satAdd 32 g.dbErr 1 }

-- ───────────────────────── rings (R307, R311, R320)

/-- The ring configuration can be enabled (R307). -/
def State.ringsOk (s : State) (b : Nat) (g : Burgee) (cmdLog cplLog : Nat) : Bool :=
  let rb := g.ringBase.toNat * 64
  let rl := 64 * 2 ^ cmdLog
  let cb := g.cplBase.toNat * 32
  let cl := 32 * 2 ^ cplLog
  decide (6 ≤ cmdLog ∧ cmdLog ≤ 16 ∧ 6 ≤ cplLog ∧ cplLog ≤ 16) && s.cfg.owns b rb rl && s.cfg.owns b cb cl && decide (rb + rl ≤ cb ∨ cb + cl ≤ rb)

/-- The effect of a BGE_RING_CFG write (R307). -/
def ringCfg (b : Nat) (value : Nat) (s : State) : State :=
  let g := s.burgee b
  let en := bit value 31
  if g.en then (if !en && g.state == .quiet then s.setBurgee b { g with en := false } else s)
  else
    let g := { g with cplLog2 := BitVec.ofNat 5 (bits value 20 16), cmdLog2 := BitVec.ofNat 5 (bits value 4 0) }
    if !en then s.setBurgee b g
    else if s.ringsOk b g (bits value 4 0) (bits value 20 16) then
      s.setBurgee b { g with en := true, cmdRead := 0, cplWrite := 0, cplRead := 0, doorbell := 0 }
    else s.setBurgee b { g with ringErr := true }

/-- BGE_RING_CFG_WRITE (R307). -/
def execBgeRingCfgWrite (p : Pasid) (page : Nat) (value : BitVec 64) (s : State) : Result :=
  if 256 ≤ page then impossible "no such page" else fromPage p page (fun s => .next (ringCfg page value.toNat s)) s

/-- The effect of a TARGET 0 doorbell (R311). -/
def doorbell (b : Nat) (value : BitVec 32) (s : State) : State :=
  let g := s.burgee b
  let ahead := (value - g.cmdRead).toNat
  if !g.en || decide (2 ^ g.cmdLog2.toNat < ahead) || decide (ahead < (g.doorbell - g.cmdRead).toNat) then countDbErr b s
  else s.setBurgee b { g with doorbell := value }

/-- COMMAND_DOORBELL (R311): TARGET 0. -/
def execCommandDoorbell (p : Pasid) (page : Nat) (value : BitVec 32) (s : State) : Result :=
  if 256 ≤ page then impossible "no such page" else fromPage p page (fun s => .next (doorbell page value s)) s

/-- BGE_CPL_READ_WRITE (R320): a value ahead of BGE_CPL_WRITE is ignored and counted. -/
def execBgeCplReadWrite (p : Pasid) (page : Nat) (value : BitVec 32) (s : State) : Result :=
  if 256 ≤ page then impossible "no such page" else
  fromPage p page (fun s =>
    let g := s.burgee page
    if (g.cplWrite - g.cplRead).toNat < (value - g.cplRead).toNat then .next (countDbErr page s)
    else .next (s.setBurgee page { g with cplRead := value })) s

-- ───────────────────────── step 3 (R310)

/-- A command's fields (R308). -/
def parseCmd (l : List Byte) : Cmd :=
  { opcode := fieldAt l 0 1, cls := fieldAt l 1 1, flags := fieldAt l 2 2, board := fieldAt l 4 2, fallback := fieldAt l 6 1
    rsvBad := fieldAt l 7 1 != 0 || fieldAt l 18 2 != 0, tag := BitVec.ofNat 32 (fieldAt l 8 4), energyUj := fieldAt l 12 4
    maxDurUs := fieldAt l 16 2, deadlineUs := fieldAt l 20 4, desc := fieldAt l 24 8, waitAddr := fieldAt l 32 8
    waitValue := BitVec.ofNat 64 (fieldAt l 40 8), signalAddr := fieldAt l 48 8, signalValue := BitVec.ofNat 64 (fieldAt l 56 8) }

/-- The largest MAX_DUR_US of a burgee (R286); a CMD_CAP_US of zero selects 200. -/
def HoistCfg.durCap (cfg : HoistCfg) (b : Nat) : Nat :=
  let c := if cfg.device.cmdCapUs = 0 then 200 else cfg.device.cmdCapUs
  match cfg.burgee b with
  | some r => if r.maxDurUs = 0 then c else r.maxDurUs
  | none => c

/-- Vectors that a burgee's commands may name (R310, R318). -/
def HoistCfg.vectorCount (cfg : HoistCfg) (b : Nat) : Nat := if b = 0 then 1 else ((cfg.burgee b).map (·.vectors)).getD 0

/-- The form of a command apart from its board and its copy descriptor (R9, R308, R310). -/
def State.malformed (s : State) (d : Cmd) : Bool :=
  d.opcode == 0 || decide (4 < d.opcode) || decide (4 ≤ d.cls) || d.rsvBad || decide (512 ≤ d.flags) || bits d.flags 2 1 == 3 ||
    (if d.opcode = 1 then decide (d.board = 0 ∨ 4095 < d.board) else d.board != 0 || d.fallback != 0 || d.deadlineUs != 0) ||
    (match d.opcode with
      | 1 => d.desc % 128 != 0
      | 4 => d.desc != 0
      | _ => d.desc % 32 != 0) ||
    (if d.flag 0 then d.waitAddr % 8 != 0 else d.waitAddr != 0) || (if d.flag 3 then d.signalAddr % 8 != 0 else d.signalAddr != 0) ||
    decide (s.cfg.vectorCount d.burgee ≤ bits d.flags 8 6) || d.maxDurUs == 0 || decide (s.cfg.durCap d.burgee < d.maxDurUs)

/-- A command's flag-fall fields break R284, or are not zero on another board (R308). -/
def State.badFlagFall (s : State) (d : Cmd) : Bool := match s.cfg.flagfall d.board with
  | none => d.fallback != 0 || d.deadlineUs != 0
  | some f =>
    let dl := if d.deadlineUs = 0 then f.defaultUs else d.deadlineUs
    decide (dl < f.minUs) || match f.entries[d.fallback]? with
      | some e => e.1 != d.desc
      | none => true

/-- Rights that every command needs (R268, R310). -/
def State.noRights (s : State) (d : Cmd) : Bool :=
  decide (d.cls < ((s.cfg.burgee d.burgee).map (·.maxClass)).getD 0) || (d.opcode != 4 && !s.cfg.owns d.burgee d.desc (if d.opcode = 1 then 128 else 32)) ||
    (d.flag 0 && !s.cfg.owns d.burgee d.waitAddr 8) || (d.flag 3 && !s.cfg.owns d.burgee d.signalAddr 8)

/-- Rights on the board of a KERNEL command (R72, R268, R310). -/
def State.noBoardRights (s : State) (d : Cmd) : Bool := match s.cfg.board d.board with
  | none => true
  | some b => s.cfg.partOf d.burgee != some b.part || !(s.cfg.leaves d.board).all fun sq => (s.cfg.slotFor d.burgee d.cls sq).isSome

/-- GiB of a burgee's leases. -/
def HoistCfg.leaseGib (cfg : HoistCfg) (b : Nat) : Nat := ((cfg.leasesOf b).map (·.sizeGib)).sum

/-- A copy's range lies in the burgee's regions, or in its lease window (R298, R309). -/
def HoistCfg.copyRange (cfg : HoistCfg) (b o n : Nat) : Bool :=
  cfg.owns b o n || (decide (leaseWindow ≤ o) && decide (o + n ≤ leaseWindow + cfg.leaseGib b * gib))

/-- Check a copy command's descriptor and take its fields (R298, R309, R310): a poisoned descriptor is malformed. -/
def checkCopy (d : Cmd) (s : State) : Except Nat Cmd × State :=
  let v := readDev d.desc 32 s
  let f := fieldAt v.1.1
  let d := { d with hostAddr := f 0 8, devAddr := f 8 8, copyLen := f 16 8, copyOut := d.opcode == 3 }
  if v.1.2 || f 24 8 != 0 || d.hostAddr % 32 != 0 || d.devAddr % 32 != 0 || d.copyLen % 32 != 0 || d.copyLen == 0 || decide (2 ^ 40 < d.copyLen) then
    (.error stMalformed, v.2)
  else if !s.cfg.copyRange d.burgee d.devAddr d.copyLen then (.error stSizeShort, v.2)
  else (.ok d, v.2)

/-- A command that has passed step 3 waits for its semaphore or for energy (R17, R314). -/
def Cmd.passed (d : Cmd) (up : Nat) : Cmd := { d with stage := if d.flag 0 then .waiting else .energy, waitedSince := up }

/-- Commands of a burgee's ring that have been read and not completed (R313). -/
def State.outstanding (s : State) (b : Nat) : Nat :=
  (s.sched.cmds.filter fun c => c.2.burgee == b && c.2.sub.isNone && c.2.neural.isNone).length

/-- Where the next command of a burgee's ring lies (R307). -/
def Burgee.nextCmdAt (g : Burgee) : Nat := g.ringBase.toNat * 64 + 64 * (g.cmdRead.toNat % 2 ^ g.cmdLog2.toNat)

/-- The next command of a ring names a board that a hoist holds: it stays in its ring (R47). -/
def State.heldInRing (s : State) (g : Burgee) : Bool :=
  !s.hoist.held.isEmpty && peekDev s g.nextCmdAt 1 == 1 && s.hoist.held.contains (peekDev s (g.nextCmdAt + 4) 2)

/-- Dispatch may read a burgee's next command (R47, R269, R311, R313). -/
def State.mayRead (s : State) (b : Nat) : Bool :=
  let g := s.burgee b
  !s.heldInRing g &&
  s.inState b [.active] && !g.forcing && g.en && g.cmdRead != g.doorbell && !g.cutHold && !(s.muster.st == .benched && s.cfg.partOf b != some 0) && !s.sched.stopped && !s.pwr.issueStop &&
    decide (s.outstanding b < 256) && decide ((g.cplWrite - g.cplRead).toNat + s.outstanding b + 1 ≤ 2 ^ g.cplLog2.toNat)

/-- COMMAND_READ (R308, R310, R313): the next command is read and its form and rights are checked; a KERNEL command's board follows at
its own row. -/
def execCommandRead (b : Nat) (s : State) : Result :=
  let g := s.burgee b
  if !s.mayRead b then impossible "dispatch does not read"
  else whenServed (s.hubServes g.nextCmdAt 64 false) (fun s =>
    let v := readDev g.nextCmdAt 64 s
    let n := s.sched.nextCmd
    let d := { parseCmd v.1.1 with id := n, burgee := b, index := g.cmdRead.toNat, readAt := s.up, waitedSince := s.up }
    let s := v.2.setBurgee b { v.2.burgee b with cmdRead := g.cmdRead + 1 }
    let s := ({ s with sched := { s.sched with nextCmd := n + 1 } }).setCmd n d
    if v.1.2 || s.malformed d then .next (endCommand n stMalformed 0 s)
    else if d.opcode = 1 then .next s
    else if s.noRights d then .next (endCommand n stNoRights 0 s)
    else if d.opcode = 4 then .next (s.setCmd n (d.passed s.up))
    else match checkCopy d s with
      | (.error e, s) => .next (endCommand n e 0 s)
      | (.ok d, s) => .next (s.setCmd n (d.passed s.up))) s

/-- KERNEL (R72, R79, R268, R284, R310): a KERNEL command against its board; its absolute deadline is set. -/
def execKernel (n : Nat) (s : State) : Result :=
  match s.cmd n with
  | none => impossible "no such command"
  | some d =>
    if d.stage ≠ .read ∨ d.opcode ≠ 1 then impossible "the command is past its check"
    else if s.badFlagFall d then .next (endCommand n stMalformed 0 s)
    else if s.noRights d || s.noBoardRights d then .next (endCommand n stNoRights 0 s)
    else if s.sched.lost.any (·.1 == d.board) then .next (endCommand n stMemberLost 0 s)
    else
      let d := match s.cfg.flagfall d.board with
        | some f => { d with deadline := some (s.devTime + (if d.deadlineUs = 0 then f.defaultUs else d.deadlineUs) * 1000) }
        | none => d
      .next (s.setCmd n (d.passed s.up))

/-- COMMAND_WAIT_SATISFIED (R140, R314): the semaphore compares true; a poisoned one never does. -/
def execCommandWaitSatisfied (n : Nat) (s : State) : Result :=
  match s.cmd n with
  | none => impossible "no such command"
  | some d =>
    if d.stage ≠ .waiting then impossible "the command does not wait"
    else whenServed (s.passesFor hubRequester d.burgee d.waitAddr 8 false) (fun s =>
      let v := readDev d.waitAddr 8 (chargeFor d.burgee d.waitAddr 8 false false s)
      if v.1.2 || !semHolds (bits d.flags 2 1) (BitVec.ofNat 64 (leNat v.1.1)) d.waitValue then impossible "the semaphore does not compare true"
      else .next (v.2.setCmd n { d with stage := .energy, waitedSince := s.up })) s

-- ───────────────────────── step 5 (R351 to R356)

/-- COMMAND_ADMIT (R351 to R356). -/
def execCommandAdmit (n : Nat) (s : State) : Result :=
  match s.cmd n with
  | none => impossible "no such command"
  | some d =>
    let p := (s.cfg.partOf d.burgee).getD 0
    let charge := s.localCharge d
    let l := s.spreadCharge charge (d.maxDurUs * 1000)
    if d.stage ≠ .energy ∨ s.sched.stopped ∨ s.pwr.issueStop then impossible "the command does not wait for energy"
    else if !s.neverHeld d && l.any (fun e => decide (s.claimLimit p < e.2)) then .next (endCommand n stEnergy 0 s)
    else if s.neverHeld d || charge == 0 || (s.energyHead n d && s.claimFits p l) then
      let s := takeClaims n p l s
      let s := if d.opcode = 1 && s.sliced d then startWaiting d.burgee s else s
      let held := match d.heldSince with
        | some _ => s.modCmd n fun c => { c with heldSince := none }
        | none => s
      let held := if d.owed then forfeit 4 0x01 d.burgee ((s.up - d.waitedSince) / 1000) d.energyUj held else held
      .next (pumpSlices (held.modCmd n fun c => { c with stage := .eligible, owed := false }))
    else impossible "the claim does not fit"

/-- SYNC (R315): it performs its wait and its signal only. -/
def execSync (n : Nat) (s : State) : Result :=
  match s.cmd n with
  | none => impossible "no such command"
  | some d =>
    if d.stage ≠ .eligible ∨ d.opcode ≠ 4 ∨ !s.inState d.burgee [.active] ∨ (s.burgee d.burgee).cutHold then impossible "not a SYNC that is due"
    else .next (s.setCmd n { d with stage := .ended, launchAt := s.up, startStamp := s.stamp })

-- ───────────────────────── copies (R296, R309)

/-- Copies move in parts of up to 256 bytes that do not cross a multiple of 256 (R296). -/
def Cmd.partLen (d : Cmd) : Nat := min (256 - (d.devAddr + d.copyPos) % 256) (d.copyLen - d.copyPos)

/-- The hub operation of a copy part that lies in a lease. -/
def copyLease (d : Cmd) (l : LeaseRec) (o : Nat) (gs : List Granule) (s : State) : FabOut :=
  { id := 0, kind := 4, opcode := if d.copyOut then 1 else 2, dests := [(l.peer, 0)], burgee := d.burgee, radio := s.radioBurgee d.burgee
    addr := l.peer * 2 ^ 44 + l.offset + o, size := d.partLen, fmt := 0, payload := gs, noCombine := false, watch := false, sent := false, sentAt := 0
    retries := 0, cmd := d.id, psq := 65535, slot := 0, sqTag := none, stream := 0, ret := some (d.hostAddr + d.copyPos), discard := false, group := 0
    lease := some (leaseKey l), status := 0 }

/-- Buckets that a copy part draws on (R275, R279). -/
def copyRes (d : Cmd) : Resource := if d.copyOut then .hostOut else .hostIn

/-- The controllers serve a part of a copy that reads this device's towers (R124, R149). -/
def State.copyServed (s : State) (d : Cmd) (a k : Nat) : Bool := !d.copyOut || (s.cfg.leaseOf d.burgee a).isSome || s.hubServes a k false

/-- The copy waits for the host link, and its buckets and controllers would let its next part go (R276). -/
def State.copyReady (s : State) (d : Cmd) : Bool :=
  s.hostSeen && d.stage == .copying && d.copyBusy == 0 && d.status.isNone && decide (d.copyPos < d.copyLen) && s.mayDraw (s.draws d.burgee (copyRes d) d.partLen) &&
    s.copyServed d (d.devAddr + d.copyPos) d.partLen

/-- The partitions with a copy that waits for a copy's direction of the host link. -/
def State.copyParts (s : State) (d : Cmd) : List Nat :=
  (((s.sched.cmds.map (·.2)).filter fun c => c.copyOut == d.copyOut).filter s.copyReady).map fun c => (s.cfg.partOf c.burgee).getD 0

/-- It is the turn of a copy's partition on the host link: partition 0 always goes first (R277). -/
def State.copyTurn (s : State) (d : Cmd) : Bool :=
  let p := (s.cfg.partOf d.burgee).getD 0
  p == 0 || (!(s.copyParts d).contains 0 && s.turnAt (copyRes d) (p :: s.copyParts d) p)

/-- A part of a copy takes its bytes on the host link, and its partition has been served there (R276, R277). -/
def spendCopy (d : Cmd) (k : Nat) (s : State) : State := noteServed (copyRes d) ((s.cfg.partOf d.burgee).getD 0) (spend d.burgee (copyRes d) k s)

/-- A copy's next part goes out where its buckets, its partition's turn and the tags allow (R276, R277): a host read for COPY_IN; for COPY_OUT the device's granules as host
writes, or a LOAD of the lease. Poison travels (R140). -/
def copyNext (n : Nat) (s : State) : State :=
  match s.cmd n with
  | none => s
  | some d =>
    let k := d.partLen
    let a := d.devAddr + d.copyPos
    if k = 0 ∨ s.hostSeen = false ∨ d.copyBusy ≠ 0 ∨ d.status.isSome ∨ !s.mayDraw (s.draws d.burgee (copyRes d) k) ∨ !s.copyServed d a k ∨ !s.copyTurn d then s
    else match s.cfg.leaseOf d.burgee a with
      | some (l, o) =>
        if s.hub.lostLeases.any (·.1 == leaseKey l) then s.modCmd n fun c => { c with status := some stFault, reason := fLease, faultDev := s.deviceId }
        else if d.copyOut && !s.hubRoom d.burgee then s
        else
          let s := (spendCopy d k s).setCmd n { d with copyBusy := k }
          if d.copyOut then (newOut (copyLease d l o [] s) s).2 else emit (.hostRead (s.cfg.pasidOf d.burgee) (d.hostAddr + d.copyPos) k) s
      | none =>
        let s := (spendCopy d k s).setCmd n { d with copyBusy := k }
        if d.copyOut then
          forAll (spans (k + 1) a k) (fun p s =>
            let v := Code.value (s.tower.granule (s.cfg.key p.1))
            emit (.hostWrite (s.cfg.pasidOf d.burgee) (d.hostAddr + d.copyPos + (p.1 - a)) (Code.form v.1 v.2)) (readDev p.1 p.2 s).2) s
        else emit (.hostRead (s.cfg.pasidOf d.burgee) (d.hostAddr + d.copyPos) k) s

/-- A copy starts, or goes on after its buckets were short. -/
def copyStep (n : Nat) (out : Bool) (s : State) : Result :=
  match s.cmd n with
  | none => impossible "no such command"
  | some d =>
    if d.opcode ≠ (if out then 3 else 2) then impossible "another command"
    else if d.stage = .eligible then
      if !s.inState d.burgee [.active] || (s.burgee d.burgee).cutHold || s.sched.stopped || s.pwr.issueStop then impossible "the burgee is not active"
      else .next (copyNext n (s.setCmd n { d with stage := .copying, launchAt := s.up, startStamp := s.stamp, boundUs := d.maxDurUs }))
    else if d.stage = .copying ∧ d.copyBusy = 0 ∧ d.status.isNone ∧ d.copyPos < d.copyLen then
      if !s.hostSeen || !s.mayDraw (s.draws d.burgee (copyRes d) d.partLen) then impossible "the host link is down or the bucket is short"
      else if !s.copyTurn d then impossible "another partition goes first"
      else whenServed (s.copyServed d (d.devAddr + d.copyPos) d.partLen) (fun s => .next (copyNext n s)) s
    else impossible "the copy does not wait"

/-- COPY_IN (R309). -/
def execCopyIn (n : Nat) (s : State) : Result := copyStep n false s

/-- COPY_OUT (R309). -/
def execCopyOut (n : Nat) (s : State) : Result := copyStep n true s

/-- A part has moved; the next goes out. -/
def partDone (n : Nat) (s : State) : State :=
  copyNext n (s.modCmd n fun c => { c with copyPos := c.copyPos + c.copyBusy, copyBusy := 0 })

/-- COPY_HOST_COMPLETION (R296, R309, R316): the host request of a part completes, or fails and ends the copy with HOST_ERROR. -/
def execCopyHostCompletion (n : Nat) (granules : List Granule) (failed : Bool) (s : State) : Result :=
  match s.cmd n with
  | none => impossible "no such command"
  | some d =>
    if s.hostSeen = false ∨ d.stage ≠ .copying ∨ d.copyBusy = 0 ∨ (!d.copyOut ∧ !failed ∧ granules.length * 32 ≠ d.copyBusy) ∨
      (d.copyOut ∧ s.hub.outs.any fun o => o.kind == 4 && o.cmd == n && o.opcode == 1) then impossible "no such part"
    else if failed then .next (s.setCmd n { d with copyBusy := 0, status := some (d.status.getD stHostError) })
    else if d.copyOut then .next (partDone n s)
    else match s.cfg.leaseOf d.burgee (d.devAddr + d.copyPos) with
      | none => whenServed (s.hubServes (d.devAddr + d.copyPos) d.copyBusy true) (fun s => .next (partDone n (putDev (d.devAddr + d.copyPos) granules s))) s
      | some (l, o) =>
        if !s.hubRoom d.burgee then impossible "no hub tag is free"
        else .next (partDone n (newOut (copyLease d l o granules s) s).2)

-- ───────────────────────── completion (R315)

/-- What a command did is over: its members or parts have ended and its writes are performed. Members that a fault stopped end at their next
instruction (R79), and so before the command does. -/
def State.overFor (s : State) (n : Nat) (d : Cmd) : Bool :=
  let quiet := !s.hub.outs.any fun o => o.cmd == n && !o.discard && o.opcode != 1 && decide (o.kind < 5)
  match d.stage with
  | .ended => true
  | .launched => (d.haltAt.isSome || d.members.all (·.ended)) && d.remotes.all (·.ended) && quiet
  | .copying => d.copyBusy == 0 && (d.status.isSome || d.copyPos == d.copyLen) && !s.hub.outs.any fun o => o.kind == 4 && o.cmd == n
  | _ => false

/-- A launch outside a slice is charged, and the slices it paused have lost its time (R287). -/
def chargePriority (d : Cmd) (s : State) : State :=
  if !d.priority then s
  else
    let t := (s.up - d.launchAt) / 1000
    let sq := s.squaresOf d.board
    let s := if d.cls = 1 then chargePass d.burgee t s else s
    forAll (s.sched.slices.filter fun x => x.pausedAt.isSome && (s.squaresOf x.board).any sq.contains) (fun x s =>
      forfeit 5 0x0A x.burgee (t * ((s.squaresOf x.board).filter sq.contains).length) d.burgee s) s

/-- COMMAND_COMPLETION (R79, R226, R283, R287, R315, R335, R350, R354). -/
def execCommandCompletion (n energyUj : Nat) (s : State) : Result :=
  match s.cmd n with
  | none => impossible "no such command"
  | some d =>
    if !s.overFor n d then impossible "the command has not ended"
    else if !s.completionPasses d then impossible "the memory controller holds the completion's writes back"
    else if energyUj ≠ 0 ∧ (d.opcode = 4 ∨ d.launchAt = 0) then impossible "a command that used no energy"
    else
      let status := d.status.getD (if d.isFallback then stFallback else stOk)
      let intime := match d.deadline with
        | some t => decide (s.devTime < t)
        | none => true
      let s := judgeDeadline d (if d.haltAt.isSome then cancelMembers n s else s)
      let s := neuralEnded d (status == stOk && intime) status s
      let s := finishCommand n energyUj (chargePriority d s)
      .next (pumpSlices (turnEnded n s))

-- ───────────────────────── sub-commands (R77, R78, R335)

/-- A sub-command is refused at step 3 on this device. -/
def State.refusesSub (s : State) (c : SubCmd) (d : Cmd) : Bool :=
  !(s.cfg.burgee c.burgee).isSome || !s.inState c.burgee [.active] || (s.burgee c.burgee).cutHold || s.muster.st == .benched || (s.burgee c.burgee).forcing || s.noRights d || s.noBoardRights d || s.sched.lost.any (·.1 == c.board) ||
    s.sched.stopped || s.pwr.issueStop

/-- A sub-command message of another device takes its turn in the order of its burgee's requests, has its effect once, and is acknowledged (R77, R158, R170,
R176). -/
def subMessage (src burgee seq tag : Nat) (k : State → State) (s : State) : Result :=
  let r : FabReq := { src := src, burgee := burgee, seq := seq, retry := false, radio := s.radioBurgee burgee, rsvZero := true
                      addr := BitVec.ofNat 64 (s.deviceId * 2 ^ 44), size := 1, fmt := 0, payload := [], tag := tag, watch := false, tie := false }
  let d := s.seqAhead src burgee seq
  if d ≠ 0 ∧ d < 2 ^ 23 then impossible "an earlier request of the burgee has not been performed"
  else
    let s := takeIn (isRequest 0x40 r) s
    if d = 0 then
      let s := respond 0x40 r {} (advanceSeq src burgee (k s))
      .next (drainHome s.hub.homeWait.length s)
    else .next (respond 0x40 r {} s)

/-- Take a sub-command up, or refuse it (R17, R77). -/
def takeSub (c : SubCmd) (s : State) : State :=
  let n := s.sched.nextCmd
  let d : Cmd := { id := n, burgee := c.burgee, opcode := 1, cls := c.cls, board := c.board, tag := c.tag, energyUj := c.energyUj, maxDurUs := c.boundUs
                   desc := c.desc, stage := .energy, readAt := s.up, waitedSince := s.up, sub := some (c.src, c.srcCmd), squares := c.squares
                   ranges := [c.m, c.n, c.k], subLast := c.last, subRoot := c.isRoot, origin := some c.origin, above := c.above }
  if s.refusesSub c d then
    sendSub c.src c.burgee 0 (.ended c.srcCmd { status := stRemoteRefused, reason := 0, aflags := 0, sq := 0xFFFF, steals := 0, combines := 0, ties := 0
                                                routes := 0, falls := 0, replay := true, energyUj := 0, streams := [] }) s
  else ({ s with sched := { s.sched with nextCmd := n + 1 } }).setCmd n d

/-- SUB_COMMAND (R17, R77): steps 3 to 6 against this device's own hoist. -/
def execSubCommand (m : SubArrival) (s : State) : Result := subMessage m.sc.src m.sc.burgee m.turn.seq m.turn.tag (takeSub m.sc) s

/-- A remote member has ended (R77, R79, R129, R335, R350): a status other than OK ends the board command. -/
def remoteEnded (n device : Nat) (r : SubEnd) (s : State) : State :=
  match s.cmd n with
  | none => s
  | some d =>
    match d.remotes.findIdx? fun x => x.device == device && !x.ended with
    | none => s
    | some i =>
      let c := d.rolls
      let d : Cmd := { d with
        remotes := d.remotes.modify i fun x => { x with ended := true }
        rolls := { steals := c.steals + r.steals, combines := c.combines + r.combines, ties := c.ties + r.ties, routes := c.routes + r.routes
                   falls := c.falls + r.falls }
        replay := d.replay && r.replay, aflags := d.aflags ||| (r.aflags % 32), remoteUj := d.remoteUj + r.energyUj
        cnts := addCounts (r.streams.map fun (e : Nat × List Nat) => (e.1, StreamCnt.ofFields e.2)) d.cnts }
      if r.status = stOk ∨ d.status.isSome then s.setCmd n d
      else
        let refused := [stMalformed, stNoRights, stEnergy].contains r.status
        let d := { d with status := some (if refused then stRemoteRefused else r.status), reason := r.reason
                          faultSq := r.sq, faultDev := if r.sq = 0xFFFF then 0 else device }
        cancelMembers n (s.setCmd n d)

/-- SUB_COMMAND_END (R77, R79). -/
def execSubCommandEnd (n : Nat) (m : SubFrom) (r : SubEnd) (s : State) : Result :=
  subMessage m.device m.burgee m.turn.seq m.turn.tag (remoteEnded n m.device r) s

/-- SUB_COMMAND_CANCEL (R78): the issuing hub cancels its sub-commands here. -/
def execSubCommandCancel (m : SubFrom) (cmd : Nat) (s : State) : Result :=
  subMessage m.device m.burgee m.turn.seq m.turn.tag (fun s => pumpSlices (forAll (s.sched.cmds.filter fun c => c.2.sub == some (m.device, cmd)) (fun c s =>
    turnEnded c.1 ((returnClaims c.1 (cancelMembers c.1 s)).dropCmd c.1)) s)) s

-- ───────────────────────── interrupts and host memory (R303, R304, R318)

/-- MSIX_UNMASK (R318): unmasking an entry with its pending bit set sends the message. -/
def execMsixUnmask (p : Pasid) (entry : Nat) (s : State) : Result :=
  managerWrite p (fun s =>
    if 2048 ≤ entry then impossible "no such entry" else
    let e := Assoc.get s.msix entry {}
    let s' := { s with msix := Assoc.set s.msix entry { e with masked := false, pend := false } }
    .next (if e.pend then emit (.msix entry e.addr e.data) s' else s')) s

/-- CXL.mem answers: the function is up and the device is not halted (R148, R390). -/
def State.memServed (s : State) : Bool := s.hostSeen && !s.halted

/-- A host access to tower memory: performed, or left to wait for its channel behind those that wait already (R124, R145, R149). -/
def hostMem (x : HostAcc) (s : State) : State :=
  if s.tow.hostWait.isEmpty && s.hostPasses x then performHost x s else { s with tow := { s.tow with hostWait := s.tow.hostWait ++ [x] } }

/-- HOST_MEM_READ (R140, R303, R304): any byte of tower memory, with poison where it is stored. -/
def execHostMemRead (addr len : Nat) (s : State) : Result :=
  if !s.memServed then impossible "the device does not serve CXL.mem"
  else if towerWindow < addr + len then impossible "outside the HDM range"
  else .next (hostMem (.read addr len) s)

/-- HOST_MEM_WRITE (R139, R140, R303, R304). -/
def execHostMemWrite (addr : Nat) (bytes : List Byte) (poison : Bool) (s : State) : Result :=
  if !s.memServed then impossible "the device does not serve CXL.mem"
  else if towerWindow < addr + bytes.length then impossible "outside the HDM range"
  else .next (hostMem (.write addr bytes poison) s)

/-- HOST_SNOOP (R303): answered RspIHitI, since no line is retained. -/
def execHostSnoop (_addr : Nat) (s : State) : Result := if s.hostSeen then .next (emit .snoop s) else impossible "no host access"

end Sys2Proof.Machine
end

