-- ==== Sys2Proof/Machine/Energy.lean ====
section
/-! DEFINITION. Energy windows, measurement and limits (R344 to R367, R370). -/

namespace Sys2Proof.Machine

-- ───────────────────────── windows (R344 to R347)

/-- Energy of the windows of the last second before the present one, in mJ: a window before window 0 counts at the cap (R345). -/
def Energy.lastSecond (e : Energy) : Nat :=
  let l := e.history.take 99
  l.sum + (99 - l.length) * (e.cap * 10)

/-- The budget B_w in mJ (R345). -/
def Energy.budgetFor (e : Energy) : Nat :=
  let top := match e.history with
    | m :: _ => if e.cap * 10 < m then e.cap * 10 else 18000
    | [] => 18000
  max e.power.radioMj (min e.allow (min (e.cap * 1000 - e.lastSecond) top))

/-- Divide the budget of the window into its pools (R347, R352): claims that already lie on it come off them, and what they exceed is a
deficit, as is what the last window carried. -/
def fillPools (carried : Nat) (s : State) : State :=
  let e := s.energy
  let l := s.claimsOn e.window
  let parts := s.cfg.partitions.map (·.id)
  let res := fun p => ((l.filter (·.1 == p)).map (·.2.1)).sum
  let excess := (parts.map fun p => res p - s.poolSize e.budget p).sum + (l.map (·.2.2)).sum + carried
  let common := s.commonSize e.budget
  { s with energy := { e with
    poolRes := parts.foldl (fun m p => Assoc.set m p (s.poolSize e.budget p - res p)) []
    common := common - excess, deficit := excess - common } }

/-- A window opens (R345, R346, R347): the registers written and the POWER record in force take effect; a budget below the radio reserve is
recorded. -/
def openWindow (w : Nat) (s : State) : State :=
  let carried := s.energy.deficit
  let e := s.energy
  let e := { e with window := w, due := s.up + windowCycles, started := true, cap := e.capReg, allow := e.allowReg, power := s.cfg.power, mode := s.cfg.power.mode }
  let s := fillPools carried { s with energy := { e with budget := e.budgetFor } }
  let s := if carried = 0 then s else record 0x5002 dieHub noUnit (leBytes 4 (carried / 1000) ++ leBytes 4 w ++ leBytes 8 0) s
  if s.energy.allow < s.energy.power.radioMj then
    record 0x5000 dieHub noUnit (leBytes 4 s.energy.allow ++ leBytes 4 s.energy.power.radioMj ++ leBytes 4 w ++ leBytes 4 0) s
  else s

/-- The wait of a command broke its partition's latency target (R288, R355). -/
def State.pastLatency (s : State) (d : Cmd) : Bool := match (s.cfg.partOf d.burgee).bind s.cfg.partition with
  | some p => p.latencyUs != 0 && decide (d.waitedSince + p.latencyUs * 1000 ≤ s.up)
  | none => false

/-- The forfeit of a command that waits for energy across a window boundary (R293, R353, R355): one per command and one more where it has missed its latency target
since, none for a neural one. -/
def crossWindow (d : Cmd) (s : State) : State :=
  if (d.crossed && !d.owed) || d.neural.isSome then s
  else
    let p := (s.cfg.partOf d.burgee).getD 0
    let rung := if p ≠ 0 ∧ s.reserveOf p ≠ 0 ∧ s.scaledDown s.energy.budget then 3 else if s.pastLatency d then 4 else 5
    forfeit rung 0x01 d.burgee ((s.up - d.waitedSince) / 1000) d.energyUj (s.modCmd d.id fun c => { c with crossed := true, owed := false, missed := c.missed || s.pastLatency d })

/-- ENERGY_WINDOW_START (R344, R345, R347, R348, R355): `measured` is each rail's energy of the window that ends, in mJ. -/
def execEnergyWindowStart (measured : List Nat) (s : State) : Result :=
  if !s.energy.started ∨ s.up < s.energy.due ∨ measured.length ≠ 9 then impossible "no window ends"
  else
    let s := forAll ((s.sched.cmds.map (·.2)).filter (·.stage == .energy)) crossWindow s
    let e := s.energy
    let s := { s with
      energy := { e with history := (measured.sum :: e.history).take 100, usedMeas := measured.sum, railMj := measured, usedAdm := e.admittedUj / 1000, admittedUj := 0 }
      sched := { s.sched with cmds := s.sched.cmds.map fun c => (c.1, { c.2 with usedUj := 0, claims := c.2.claims.filter fun x => decide (e.window < x.1) }) } }
    .next (openWindow (e.window + 1) s)

/-- One command's measured energy (R354): what exceeds its claim on the present window is drawn from the pools; under penalty half as much
again is drawn. -/
def reconcileOne (n uj : Nat) (s : State) : State :=
  match s.cmd n with
  | none => s
  | some d =>
    let claim := ((d.claims.filter (·.1 == s.energy.window)).map fun x => x.2.1 + x.2.2).sum
    let used := d.usedUj + (if (s.burgee d.burgee).penalty then uj * 3 / 2 else uj)
    drawPools ((s.cfg.partOf d.burgee).getD 0) ((used - claim) - (d.usedUj - claim)) (s.modCmd n fun c => { c with usedUj := used })

/-- Energy of a draw, in µJ. -/
def EnergyDraw.uj (d : EnergyDraw) : Nat := d.arrays + d.towers + d.links

/-- Shares of arrays, towers and links in the tenant energy by power mode, in percent (R357). -/
def domainShares : Nat → List Nat
  | 1 => [70, 20, 10]
  | 2 => [35, 55, 10]
  | 3 => [40, 25, 35]
  | _ => [50, 35, 15]

/-- The domains that the governor paces after an interval (R357): those whose tenant energy exceeds their share of it, once the common pool is exhausted or a deficit
is carried. -/
def State.overShare (s : State) (draws : List EnergyDraw) : List Nat :=
  let l := draws.filter fun d => ((s.cmd d.cmd).map fun c => s.cfg.partOf c.burgee != some 0).getD false
  let spent := [(l.map (·.arrays)).sum, (l.map (·.towers)).sum, (l.map (·.links)).sum]
  if s.energy.common ≠ 0 ∧ s.energy.deficit = 0 then []
  else (List.range 3).filter fun i => decide (spent.sum * (domainShares s.energy.mode).getD i 0 < spent.getD i 0 * 100)

/-- The reconcile period (R354). -/
def reconcileCycles : Nat := 100000

/-- ENERGY_RECONCILE (R349, R353, R354, R357): baseband-die energy draws on the radio reserve and then on the common pool, energy charged to the
device itself on the common pool. -/
def execEnergyReconcile (draws : List EnergyDraw) (device baseband : Nat) (s : State) : Result :=
  if !s.energy.started ∨ s.up < s.energy.recDue then impossible "no reconcile is due"
  else if draws.any fun d => (s.cmd d.cmd).isNone then impossible "no such command"
  else
    let s := { s with energy := { s.energy with recDue := s.up + reconcileCycles } }
    let s := drawPools 0 baseband (forAll draws (fun d s => reconcileOne d.cmd (EnergyDraw.uj d) s) s)
    let c := min s.energy.common device
    let s := { s with energy := { s.energy with common := s.energy.common - c, deficit := s.energy.deficit + (device - c) } }
    .next { s with energy := { s.energy with paced := s.overShare draws } }

-- ───────────────────────── registers (R323, R346)

/-- PWR_CAP_WRITE (R323, R346). -/
def execPwrCapWrite (p : Pasid) (value : BitVec 64) (s : State) : Result :=
  managerWrite p (fun s =>
    let w := bits value.toNat 15 0
    if w < 100 ∨ 1500 < w then .next { s with energy := { s.energy with refused := true } }
    else .next { s with energy := { s.energy with capReg := w } }) s

/-- PWR_ALLOWANCE_WRITE (R323, R346). -/
def execPwrAllowanceWrite (p : Pasid) (value : BitVec 64) (s : State) : Result :=
  managerWrite p (fun s =>
    let v := bits value.toNat 31 0
    if 18000 < v then .next { s with energy := { s.energy with refused := true } }
    else .next { s with energy := { s.energy with allowReg := v } }) s

-- ───────────────────────── the governor, sensors and rails

/-- PEAK_PACE (R358, R366). -/
def execPeakPace (s : State) : Result :=
  if s.pwr.state ≠ .active then impossible "nothing is paced" else .next (record 0x5005 dieHub noUnit [] s)

/-- The die that a temperature sensor belongs to, by die code; none for the substrate (R370, R381). -/
def sensorDie (n : Nat) : Option Nat :=
  if n < 60 then some (0x10 + n / 3) else if n < 66 then some 0x00 else if n < 78 then some (0x30 + (n - 66) / 3)
  else if n < 84 then some (0x40 + (n - 78) / 2) else if n < 95 then some (0x50 + (n - 84)) else none

/-- The dies whose tenant work R361 paces: compute, hub and baseband. -/
def pacedDies : List Nat := (List.range 20).map (0x10 + ·) ++ [0x00] ++ (List.range 4).map (0x30 + ·)

/-- A die's hottest reading with its sensor. -/
def hottest (temps : List Int) (die : Nat) : Int × Nat :=
  ((List.range 96).filter fun n => sensorDie n == some die).foldl (fun a n => if a.1 < temps.getD n 0 then (temps.getD n 0, n) else a) (-10000, 0)

/-- The dies held by a threshold after a reading: `on` takes one in, and it leaves at `off` (0.1 °C). -/
def thresholds (temps : List Int) (on off : Int) (old : List Nat) : List Nat :=
  pacedDies.filter fun d => let t := (hottest temps d).1; decide (on ≤ t) || (old.contains d && decide (off < t))

/-- A record for each member that only one of the lists holds. -/
def recordCrossings (die : Nat → Nat) (old new : List Nat) (s : State) : State :=
  forAll ((new.filter fun d => !old.contains d) ++ old.filter fun d => !new.contains d) (fun d s => record 0x5003 (die d) noUnit [] s) s

/-- The device is powered and out of reset (R446, R448). -/
def State.awake (s : State) : Bool := s.pwr.state != .off && !s.pwr.inReset

/-- Tenants with work on the squares of a compute die, or on any square. -/
def State.tenantsOn (s : State) (die : Option Nat) : List Nat :=
  ((s.ctxs.filter fun c => c.2.active && s.cfg.partOf c.2.burgee != some 0 && (die.isNone || die == some (dieCompute (c.1 / 8)))).map (·.2.burgee)).eraseDups

/-- Tenants with work that a hot tower paces (R361): their partition has a ceiling, and they a region there. -/
def State.tenantsOf (s : State) (tower : Nat) : List Nat :=
  (s.tenantsOn none).filter fun b => s.cfg.regions.any (fun r => bit r.mask tower && s.cfg.ownsRegion b r) &&
    ((s.cfg.partOf b).bind s.cfg.regulator).any fun r => r.towerCeil != 0

/-- The THERMAL forfeit of a tenant (R293, R361, R367): rung 4 while a promoted command of the burgee is paced, else 5. -/
def thermalForfeit (sensor b : Nat) (s : State) : State :=
  forfeit (if s.sched.cmds.any fun c => c.2.burgee == b && c.2.promoted then 4 else 5) 0x02 b 100 sensor s

/-- A tower's temperature reaches its channels; a crossing of 85 °C is recorded (R150, R151). -/
def heatTower (t : Nat) (c : Int) (s : State) : State :=
  let was := (s.chan (7 * t)).temp
  let s := forAll (List.range 7) (fun i s => s.setChan (7 * t + i) { s.chan (7 * t + i) with temp := c }) s
  if decide (85 ≤ was) != decide (85 ≤ c) then record 0x2407 (dieMem t) (7 * t) [] s else s

/-- The nominal voltage in mV and the tolerance in 0.01 mV of a voltage monitor (R363, R370): those of its rail, which a die's monitor shares with what the rail
feeds. -/
def State.bandOf (s : State) (monitor : Nat) : Nat × Nat :=
  let core := (s.energy.coreMv, 1500)
  if monitor < 21 then core else if monitor < 25 then (750, 2250) else if monitor < 28 then (1200, 2400) else if monitor < 39 then (900, 1800)
  else [core, (750, 2250), (800, 2400), (750, 1500), (1200, 2400), (900, 1800), (3300, 9900), (800, 2400), (1800, 9000)].getD (monitor - 39) core

/-- A reading has left 80 % of its monitor's tolerance band (R419). -/
def State.outOfBand (s : State) (monitor mv : Nat) : Bool :=
  let b := s.bandOf monitor
  decide (80 * b.2 < 10000 * (mv - b.1 + (b.1 - mv)))

/-- 60 s in ns. -/
def minuteNs : Nat := 60000000000

/-- A minimum enters the sliding window of 60 s: what it undercuts can no longer be the lowest. -/
def slideMin (v now : Nat) (l : List (Nat × Nat)) : List (Nat × Nat) := (now, v) :: l.filter fun e => decide (e.2 < v) && decide (now < e.1 + minuteNs)

/-- SENSOR_SCAN (R361, R370): temperatures in 0.1 °C by sensor, towers in °C, voltages in mV. Each scan that finds a tenant paced adds 100 µs to its
forfeit, whose sensor number is 96 + t for tower t (assumption 148). -/
def execSensorScan (temps : List Int) (towers : List Int) (volts : List Nat) (s : State) : Result :=
  if s.awake = false ∨ s.up < s.hly.scanDue ∨ temps.length ≠ 96 ∨ towers.length ≠ 6 ∨ volts.length ≠ 48 then impossible "not a sensor reading"
  else
    let e := s.energy
    let p75 := thresholds temps 1050 1000 e.pace75
    let p50 := thresholds temps 1100 1050 e.pace50
    let hot := (List.range 6).filter fun t => decide (100 ≤ towers.getD t 0) || (e.halved.contains t && decide (95 < towers.getD t 0))
    let s := { s with
      hly := { s.hly with temps := temps, volts := volts, scanDue := s.up + 100000
                          voltOut := ((List.range 48).filter fun i => s.outOfBand i (volts.getD i 0)).foldl (fun l i => Assoc.set l i s.up) s.hly.voltOut }
      energy := { e with pace75 := p75, pace50 := p50, halved := hot, railMv := volts.drop 39 } }
    let s := forAll (List.range 6) (fun t s => heatTower t (towers.getD t 0) s) s
    let s := recordCrossings id e.pace75 p75 s
    let s := recordCrossings id e.pace50 p50 s
    let s := recordCrossings dieMem e.halved hot s
    let s := forAll p75 (fun d s => forAll (s.tenantsOn (some d)) (thermalForfeit (hottest temps d).2) s) s
    let s := forAll hot (fun t s => forAll (s.tenantsOf t) (thermalForfeit (96 + t)) s) s
    .next (match p50 with
      | [] => s
      | d :: _ => forAll (s.tenantsOn none) (thermalForfeit (hottest temps d).2) s)

/-- CANARY_SCAN (R370): minima in 0.1 % by die, in die-code order, each 1 ms. -/
def execCanaryScan (minima : List Nat) (s : State) : Result :=
  if s.awake = false ∨ s.up < s.hly.canaryDue ∨ minima.length ≠ 39 then impossible "not a canary reading"
  else .next { s with hly := { s.hly with canaries := minima, canaryDue := s.up + 1000000,
                                          canaryLow := slideMin (minima.foldl min 1000) s.up s.hly.canaryLow } }

/-- RAIL_FAULT (R363, R366). -/
def execRailFault (rail mv : Nat) (s : State) : Result :=
  if s.awake = false ∨ 9 ≤ rail then impossible "no such rail"
  else .next (record 0x5006 dieHub noUnit (item rail ++ item mv) { s with energy := { s.energy with railMv := s.energy.railMv.set rail mv } })

/-- AVS_UPDATE (R364): steps of 5 mV within 0.70 to 0.82 V, at most one change in a millisecond, once the clocks are locked. -/
def execAvsUpdate (target : Nat) (s : State) : Result :=
  let early := match s.energy.avsAt with
    | some t => decide (s.up < t + 1000000)
    | none => false
  if target < 700 ∨ 820 < target ∨ target % 5 ≠ 0 ∨ early = true ∨ s.awake = false ∨ (s.pwr.state = .boot ∧ s.pwr.step < 3) then
    impossible "the set point may not change"
  else .next { s with energy := { s.energy with coreMv := target, avsAt := some s.up } }

end Sys2Proof.Machine
end

