-- ==== Sys2Proof/Machine/Power.lean ====
section
/-! DEFINITION. Resets, the start of a boot and the flush engine (R387, R388, R390, R402, R448 to R451). -/

namespace Sys2Proof.Machine

-- ───────────────────────── resets

/-- Order in which R451 takes the causes that apply. -/
def causeRank : Nat → Nat
  | 0 => 0
  | 6 => 1
  | 5 => 2
  | 2 => 3
  | 3 => 4
  | 4 => 5
  | _ => 6

/-- Add a cause for the boot that follows (R451). -/
def Power.hold (w : Power) (c : Nat) : Power :=
  { w with held := match w.held with
      | some d => if causeRank c < causeRank d then some c else some d
      | none => some c }

/-- The device in reset (R448): every register at its reset value. What a reset leaves: fuses and one-time-programmable stores, SPI NOR and MRAM,
the memories that boot wipes later (R405), FAILED links until a cold reset (R187), when each link last probed and what its lasers drew (R190, R200), pins and the
THERMTRIP_N latch. -/
def State.dropped (s : State) : State :=
  { pending := s.pending, up := s.up, free := s.free, ident := s.ident, out := s.out, tower := s.tower, scratch := s.scratch, sram := s.sram
    links := s.links.map fun l => (l.1, { st := if l.2.st == .failed then .failed else .down, failover := l.2.failover && l.2.st == .failed
                                          lastProbe := l.2.lastProbe, biasLog := l.2.biasLog })
    hly := { norFactory := s.hly.norFactory, nor := s.hly.nor, mram := s.hly.mram, corrDue := s.up + 60000000000 }
    sec := { s.sec with nonce := none, chain := 0, wipeRun := false, wipeUs := 0 }
    tow := { sumDue := s.up + 60000000000 }
    pwr := { state := s.pwr.state, inReset := true, resetN := s.pwr.resetN, pwrFailN := s.pwr.pwrFailN, thermtripN := s.pwr.thermtripN
             step := 1, cause := s.pwr.cause, held := s.pwr.held } }

/-- Boot begins (R446, R451, R452): step 1 with its cause; BOOT_COUNT counts it. After a cold reset VDD_LAS has risen anew (R190), and a FAILED link is OFF
(R187). -/
def boot (cause : Nat) (s : State) : State :=
  let s := s.dropped
  let s := s.setMram mramBootCount 4 (s.mram mramBootCount 4 + 1)
  { s with
    links := if cause = 0 then (s.links.filter (·.2.st == .failed)).map fun l => (l.1, { st := .off }) else s.links
    pwr := { resetN := s.pwr.resetN, pwrFailN := s.pwr.pwrFailN, thermtripN := s.pwr.thermtripN, cause := cause } }

/-- The pins let the device boot (R448 to R450). -/
def Power.mayBoot (w : Power) : Bool := w.resetN && w.pwrFailN && w.thermtripN

/-- The device drops into reset, and boots at once where the pins allow. -/
def reset (s : State) : State := match s.pwr.held with
  | some c => if s.pwr.mayBoot then boot c s else s.dropped
  | none => s.dropped

/-- A reset that is due: at once, or after the flush that runs (R388, R392). -/
def resetAfterFlush (s : State) : State :=
  if s.elog.flush.isSome then { s with pwr := { s.pwr with lasersOff := true, issueStop := true } } else reset s

-- ───────────────────────── the flush engine (R387)

/-- The log area's first offset and size (R374). -/
def logBase : Nat := 0x200
def logSize : Nat := 130560

/-- Write bytes in the circular log area from an offset. -/
def putLog (wp : Nat) (bs : List Byte) (m : List Host.Cell) : List Host.Cell :=
  let n := logBase + logSize - wp
  putCells (putCells m wp (bs.take n)) logBase (bs.drop n)

/-- Bytes of a ring record that begins at ring count `st`. -/
def Elog.bytesAt (l : Elog) (st : Nat) : List Byte :=
  let o := st % 65536
  cellsAt l.ring o (leNat (cellsAt l.ring o 2))

/-- What a flush carries: its ANCHOR, then the unflushed records, oldest first (R387). -/
def Elog.flushBytes (l : Elog) (pos : Nat) : List Byte :=
  l.bytesAt pos ++ ((l.starts.map (·.1)).filter fun st => decide (l.flushed ≤ st) && st != pos).flatMap l.bytesAt

/-- The flush's last byte is written (R387): header, records, LOG_WP and FLUSH_SEQ. -/
def endFlush (cause pos : Nat) (s : State) : State :=
  let l := s.elog
  let all := l.flushBytes pos
  let fits : Nat := logSize - 32
  let bs := all.take fits
  let seq := s.mram mramFlushSeq 4 + 1
  let wp := s.mram mramLogWp 4
  let time := fieldAt (l.bytesAt pos) 16 8
  let head := leBytes 4 seq ++ leBytes 4 bs.length ++ leBytes 1 cause ++ leBytes 1 (if fits < all.length then 1 else 0) ++ leBytes 2 0 ++
    leBytes 4 (s.mram mramBootCount 4) ++ leBytes 8 time ++ leBytes 8 0
  let s := { s with
    hly := { s.hly with mram := putLog wp (head ++ bs) s.hly.mram }
    elog := { l with flush := none, flushed := l.write } }
  let s := s.setMram mramLogWp 4 (logBase + (wp - logBase + 32 + bs.length) % logSize)
  emit .i3cInterrupt (s.setMram mramFlushSeq 4 seq)

/-- FLUSH_COMPLETE (R375, R387, R388, R390, R392): after a flush for or with a fatal record LAST_FATAL is written and the device is HALTED; a power failure, a low THERMTRIP_N or
a RESET_N that came meanwhile takes the device into reset. -/
def execFlushComplete (s : State) : Result := match s.elog.flush with
  | none => impossible "no flush runs"
  | some (cause, pos) =>
    let s := endFlush cause pos s
    let s := if cause = 0 ∨ s.elog.firstFatal.isSome then setHalted s else s
    .next (if s.pwr.held.isSome || !s.pwr.thermtripN then reset s else s)

end Sys2Proof.Machine
end

