-- ==== Sys2Proof/Machine/Halyard.lean ====
section
/-! DEFINITION. Halyard (R368 to R392): watchdog, its SRAM, the event recorder's host side, firmware update, recovery, and the log requests. -/

namespace Sys2Proof.Machine

-- ───────────────────────── watchdog (R371, R372)

/-- The feed-pending bit (R371): set by a feed until the core answers. -/
def Halyard.feedPending (h : Halyard) (up : Nat) : Bool := match h.feedPend with
  | some (t, wait) => decide (up < t + wait)
  | none => false

/-- A feed has been pending for 1 ms (R371). -/
def Halyard.feedLate (h : Halyard) (up : Nat) : Bool := match h.feedPend with
  | some (t, wait) => decide (1000000 ≤ wait) && decide (t + 1000000 ≤ up)
  | none => false

/-- HLY_WDOG_FEED (R321, R371, R372): the timer restarts with the TIMEOUT_MS last written and the bit is set, if it is not set yet. When the core answers is a
free value (assumption 85). -/
def execHlyWdogFeed (p : Pasid) (s : State) : Result :=
  fromManager p (fun s =>
    let h := { s.hly with wdogAt := s.up, wdogMs := s.hly.wdogNext }
    if s.hly.feedPending s.up then .next { s with hly := h }
    else
      let d := drawFree s
      .next { d.2 with hly := { h with feedPend := some (s.up, d.1 % 1000001) } }) s

/-- HLY_WDOG_CTRL_WRITE (R321, R372): in ACTIVE a write that clears EN is ignored; TIMEOUT_MS holds 100 to 600,000. -/
def execHlyWdogCtrlWrite (p : Pasid) (value : BitVec 64) (s : State) : Result :=
  fromManager p (fun s =>
    let en := bit value.toNat 32
    let ms := bits value.toNat 31 0
    if s.pwr.state = .active ∧ s.hly.wdogEn = true ∧ en = false then .next s
    else .next { s with hly := { s.hly with wdogEn := en, wdogNext := if 100 ≤ ms ∧ ms ≤ 600000 then ms else s.hly.wdogNext } }) s

/-- WDOG_HOST (R371, R383): the timer runs out with no feed pending; fatal. -/
def execWdogHost (s : State) : Result :=
  let h := s.hly
  if s.awake = false ∨ h.wdogEn = false ∨ s.up < h.wdogAt + h.wdogMs * 1000000 ∨ h.feedPending s.up = true then impossible "the watchdog has not run out"
  else .next (record 0x1001 dieHub noUnit (leBytes 4 h.wdogMs) { s with hly := { h with wdogEn := false } })

/-- WDOG_CORE (R371, R383): a feed stays pending for 1 ms; fatal. `pc` is the core's program counter at expiry. -/
def execWdogCore (pc : BitVec 64) (s : State) : Result :=
  if s.awake = false ∨ s.hly.wdogEn = false ∨ s.hly.feedLate s.up = false then impossible "no feed is late"
  else .next (record 0x1002 dieHub noUnit (leBytes 8 pc.toNat) { s with hly := { s.hly with wdogEn := false } })

-- ───────────────────────── Halyard SRAM (R368, R369)

/-- The core reads a granule of firmware code or data (R369). `upset` is what physics has left in it. -/
def execHlySramUncorr (offset : Nat) (upset : Upset) (s : State) : Result :=
  let g := Code.disturb (s.sram.granule offset) upset
  if s.awake = false ∨ sramSize ≤ offset ∨ Code.decode g ≠ .uncorrectable then impossible "the granule is correctable"
  else .next (sramUncorr (offset / 32 * 32) { s with sram := s.sram.put offset g })

/-- HLY_SRAM_CORR (R369, R383): once in every 60 s in which a correction occurred. -/
def execHlySramCorr (s : State) : Result :=
  if s.up < s.hly.corrDue ∨ s.tow.sramCorr = 0 then impossible "nothing has been corrected"
  else
    let due := s.hly.corrDue + ((s.up - s.hly.corrDue) / 60000000000 + 1) * 60000000000
    let n := s.tow.sramCorr
    .next (record 0x1004 dieHub noUnit (leBytes 4 n) { s with hly := { s.hly with corrDue := due }, tow := { s.tow with sramCorr := 0 } })

-- ───────────────────────── the event recorder

/-- ELOG_READ_WRITE (R386): accepted only from the present ELOG_READ up to ELOG_WRITE. -/
def execElogReadWrite (p : Pasid) (value : BitVec 32) (s : State) : Result :=
  managerWrite p (fun s =>
    let l := s.elog
    let step := (value - BitVec.ofNat 32 l.read).toNat
    if l.write - l.read < step then .next s else .next { s with elog := { l with read := l.read + step } }) s

/-- SUPPRESSED (R391): a bucket gains a token while occurrences are counted. -/
def execSuppressed (code : Nat) (s : State) : Result :=
  let b := s.bucketOf code
  if b.count = 0 ∨ b.gained s.up = false then impossible "nothing is counted" else .next (flushSuppressed code s)

/-- The hour in ns (R384). -/
def hourNs : Nat := 3600000000000

/-- ANCHOR (R384): device time has crossed a whole multiple of 3,600 × 10^9 ns. -/
def execAnchor (s : State) : Result :=
  if s.devTime / hourNs = s.elog.nextHour then impossible "no hour has passed"
  else .next (anchor 1 { s with elog := { s.elog with nextHour := s.devTime / hourNs } })

-- ───────────────────────── firmware (R376 to R380, R395, R396)

/-- A firmware image's fields (R376). -/
def fwBuildOf (l : List Byte) : Nat := fieldAt l 8 4
def fwEpochOf (l : List Byte) : Nat := bits (fwBuildOf l) 23 16

/-- The image verifies under an unrevoked firmware key (R376, R395). -/
def State.fwSigned (s : State) (l : List Byte) : Bool :=
  let n := l.length - 144
  (List.range 4).any fun k => !bit s.sec.fwRevoked.toNat k &&
    Config.ecdsaVerify (Config.firmwareKey k) (Config.sha512 (l.take n)) ((l.drop n).take 72) ((l.drop n).drop 72)

/-- The verdict on an image (R377, R378): 0 valid, 1 format, 2 stepping, 3 signature, 4 rollback. -/
def State.fwVerdict (s : State) (l : List Byte) : Nat :=
  let n := fieldAt l 4 4
  if fieldAt l 0 4 ≠ 1 ∨ n ≠ l.length ∨ n % 64 ≠ 0 ∨ n < 208 ∨ 2 ^ 24 < n ∨ 63 < fwEpochOf l ∨ bits (fwBuildOf l) 31 24 ≠ 0 then 1
  else if s.ident.stepping.toNat < fieldAt l 15 1 then 2
  else if !s.fwSigned l then 3
  else if fwEpochOf l < s.sec.epoch then 4
  else 0

/-- The image that the SPI NOR holds: as many bytes as its LENGTH says. -/
def State.norImage (s : State) : List Byte := cellsAt s.hly.nor 0 (min (2 ^ 24) (leNat (cellsAt s.hly.nor 4 4)))

/-- The SPI NOR holds a valid image (R377). -/
def State.norValid (s : State) : Bool := s.hly.norFactory || s.fwVerdict s.norImage == 0

/-- The response of FW_STAGE (R378). -/
def stageResponse (verdict : Nat) (l : List Byte) : List Byte :=
  leBytes 1 verdict ++ leBytes 3 0 ++ leBytes 4 (fwBuildOf l) ++ leBytes 2 (fieldAt l 12 2) ++ leBytes 1 (fieldAt l 14 1) ++ leBytes 5 0

/-- FW_STAGE (R378). -/
def execFwStage (p : Pasid) (len : Nat) (s : State) : Result :=
  mailbox p 0x0100 len (· == 16) (fun body s =>
    let o := fieldAt body 0 8
    let n := fieldAt body 8 4
    if s.hly.fw = .writing then (mbWrongState, [], s)
    else if o % 64 ≠ 0 ∨ s.cfg.owns 0 o n = false then (mbOk, stageResponse 1 [], { s with hly := { s.hly with fw := .none } })
    else
      let v := readDev o n s
      let l := v.1.1
      let s := v.2
      let verdict := if v.1.2 then 3 else s.fwVerdict l
      let h := if verdict = 0 then { s.hly with fw := .staged, fwAddr := o, fwLen := n, fwDigest := Config.sha512 l, fwBytes := 0
                                                fwBuild := BitVec.ofNat 24 (fwBuildOf l) }
        else { s.hly with fw := .none }
      (mbOk, stageResponse verdict l, { s with hly := h })) s

/-- FW_WRITE (R378): the SPI NOR is erased and its writing begins. -/
def execFwWrite (p : Pasid) (len : Nat) (s : State) : Result :=
  mailbox p 0x0101 len (· == 0) (fun _ s =>
    if s.hly.fw ≠ .staged then (mbWrongState, [], s)
    else (mbOk, [], { s with hly := { s.hly with fw := .writing, norFactory := false, nor := [], fwBytes := 0 } })) s

/-- The first offset at which two images differ. -/
def mismatch (a b : List Byte) : Nat := ((List.range a.length).find? fun i => byteAt a i != byteAt b i).getD a.length

/-- FW_WRITE_COMPLETE (R378, R379): the SPI NOR holds `readBack`, and its digest decides. -/
def execFwWriteComplete (readBack : List Byte) (s : State) : Result :=
  let h := s.hly
  if h.fw ≠ .writing ∨ s.coreDead = true ∨ readBack.length ≠ h.fwLen then impossible "no image is written"
  else
    let v := readDev h.fwAddr h.fwLen s
    let good := Config.sha512 readBack == h.fwDigest
    let s := { v.2 with hly := { v.2.hly with nor := putCells [] 0 readBack, fw := if good then .written else .failed, fwBytes := h.fwLen } }
    .next (if good then record 0x1006 dieHub noUnit (leBytes 4 h.fwBuild.toNat) s
      else record 0x1007 dieHub noUnit (leBytes 4 h.fwBuild.toNat ++ leBytes 4 (mismatch v.1.1 readBack)) s)

def FwSt.code : FwSt → Nat
  | .none => 0
  | .staged => 1
  | .writing => 2
  | .written => 3
  | .failed => 4

/-- The write goes on (R378): how far it has come is a free value that does not fall. -/
def progress (s : State) : State :=
  if s.hly.fw = .writing then
    let d := drawFree s
    { d.2 with hly := { s.hly with fwBytes := max s.hly.fwBytes (d.1 % (s.hly.fwLen + 1)) } }
  else s

/-- FW_STATUS (R378). -/
def execFwStatus (p : Pasid) (len : Nat) (s : State) : Result :=
  mailbox p 0x0102 len (· == 0) (fun _ s =>
    let s := progress s
    (mbOk, leBytes 1 s.hly.fw.code ++ leBytes 3 0 ++ leBytes 4 s.hly.fwBytes ++ leBytes 4 s.ident.build.toNat ++ leBytes 4 s.hly.fwBuild.toNat, s)) s

/-- RECOVERY_BEGIN (R380). -/
def execRecoveryBegin (p : Pasid) (len : Nat) (s : State) : Result :=
  mailbox p 0x0110 len (· == 4) (fun body s =>
    (mbOk, [], { s with hly := { s.hly with norFactory := false, nor := [], recBegun := true, recLen := fieldAt body 0 4, recGot := 0 } })) s

/-- RECOVERY_CHUNK (R380): the offset equals the bytes received so far. -/
def execRecoveryChunk (p : Pasid) (len : Nat) (s : State) : Result :=
  mailbox p 0x0111 len (fun n => decide (17 ≤ n ∧ n ≤ 65536)) (fun body s =>
    let d := body.drop 16
    let h := s.hly
    if !h.recBegun then (mbWrongState, [], s)
    else if fieldAt body 0 4 ≠ h.recGot ∨ h.recLen < h.recGot + d.length then (mbBadLength, [], s)
    else (mbOk, [], { s with hly := { h with nor := putCells h.nor h.recGot d, recGot := h.recGot + d.length } })) s

/-- RECOVERY_FINISH (R380): a valid image restarts boot with cause 5; else the response carries the verdict. -/
def execRecoveryFinish (p : Pasid) (len : Nat) (s : State) : Result :=
  mailboxTo p 0x0112 len (· == 0) (fun _ s =>
    if !s.hly.recBegun then answer mbWrongState [] s
    else
      let l := cellsAt s.hly.nor 0 s.hly.recGot
      let verdict := s.fwVerdict l
      if verdict = 0 then reset { s with pwr := s.pwr.hold 5 } else answer mbOk (stageResponse verdict l) s) s

-- ───────────────────────── log and sensors (R389)

/-- LOG_INFO. -/
def execLogInfo (p : Pasid) (len : Nat) (s : State) : Result :=
  mailboxRead p 0x0120 len (fun s => leBytes 4 (s.mram mramBootCount 4) ++ leBytes 4 (s.mram mramLogWp 4) ++ leBytes 4 (s.mram mramFlushSeq 4) ++
    leBytes 2 (s.mram mramLastFatal 2) ++ leBytes 2 0) s

/-- LOG_READ. -/
def execLogRead (p : Pasid) (len : Nat) (s : State) : Result :=
  mailbox p 0x0121 len (· == 8) (fun body s =>
    let o := fieldAt body 0 4
    let n := fieldAt body 4 4
    if n = 0 ∨ 65536 < n ∨ 131072 < o + n then (mbBadLength, [], s) else (mbOk, cellsAt s.hly.mram o n, s)) s

/-- Zero the log area and set LOG_WP to its start (R389, R401). -/
def clearLog (s : State) : State :=
  ({ s with hly := { s.hly with mram := Assoc.dropRange s.hly.mram logBase (logBase + logSize) } }).setMram mramLogWp 4 logBase

/-- LOG_CLEAR. -/
def execLogClear (p : Pasid) (len : Nat) (s : State) : Result :=
  mailbox p 0x0122 len (· == 0) (fun _ s => (mbOk, [], clearLog s)) s

/-- SENSORS. -/
def execSensors (p : Pasid) (len : Nat) (s : State) : Result :=
  mailboxRead p 0x0130 len (fun s => ((List.range 96).flatMap fun i => leBytes 2 (ofSigned 16 (s.hly.temps.getD i 0))) ++
    ((List.range 48).flatMap fun i => leBytes 2 (s.hly.volts.getD i 0)) ++ (List.range 39).flatMap fun i => leBytes 2 (s.hly.canaries.getD i 0)) s

-- ───────────────────────── the baseboard controller's view (R375)

/-- What a private I3C read of a target register returns (R375); the highest die temperature is rounded down to whole degrees. -/
def State.i3cTarget (s : State) : Nat → List Byte
  | 0x00 => leBytes 1 (bits s.powerCode 3 0 + 16 * (if s.hly.wdogEn then 1 else 0) + 32 * (if s.elog.flush.isSome then 1 else 0))
  | 0x01 => leBytes 1 (ofSigned 8 ((s.hly.temps.take 95).foldl max (-1000) / 10))
  | 0x02 => leBytes 2 (s.energy.usedMeas / 10)
  | 0x04 => leBytes 2 (s.mram mramLastFatal 2)
  | 0x06 => leBytes 4 (s.mram mramFlushSeq 4)
  | _ => []

end Sys2Proof.Machine
end

