-- ==== Sys2Proof/Machine/Cuts.lean ====
section
/-! DEFINITION. Checkpoint cuts (R426, R427): how one ends. -/

namespace Sys2Proof.Machine

/-- Codes of CUT_STATUS (R428). -/
def cutDraining : Nat := 1
def cutReadySent : Nat := 2
def cutHeld : Nat := 3
def cutAbandoned : Nat := 4
def cutFailed : Nat := 5

/-- The cut has not reached HELD. -/
def Cut.forming (c : Cut) : Bool := c.status == cutDraining || c.status == cutReadySent

def setCut (id : Nat) (c : Cut) (s : State) : State := { s with muster := { s.muster with cuts := Assoc.set s.muster.cuts id c } }

/-- Dispatch reads the burgee's ring again, from the doorbell value kept (R426). -/
def unhold (b : Nat) (s : State) : State := s.modBurgee b fun g => { g with cutHold := false }

/-- A cut changes its status, which is recorded (R426, R427, R429). -/
def enterCut (id st : Nat) (c : Cut) (s : State) : State := record 0x6008 dieHub noUnit [] (setCut id { c with status := st } s)

/-- A message to every other participant. -/
def tellCut (op id : Nat) (c : Cut) (s : State) : State :=
  forAll (c.devices.filter (· != s.deviceId)) (fun d s => sendMuster op d [id] s) s

/-- A cut ends before HELD (R427): dispatch resumes. -/
def endCut (id st : Nat) (c : Cut) (s : State) : State := unhold c.burgee (enterCut id st c s)

/-- Every cut that has not reached HELD and meets `p` fails, and CUT_FAIL goes to every participant (R427). -/
def failCuts (p : Cut → Bool) (s : State) : State :=
  forAll (s.muster.cuts.filter fun e => e.2.forming && p e.2) (fun e s => endCut e.1 cutFailed e.2 (tellCut 0x5B e.1 e.2 s)) s

end Sys2Proof.Machine
end

