-- ==== Sys2Proof/Machine/Sched.lean ====
section
/-! DEFINITION. The schedulers' events: turns, slices, priority launches, fall points, bounds, latency targets, floors and rates (R278 to
R291). -/

namespace Sys2Proof.Machine

/-- The next entry of a turn table, its turn 2 µs later. -/
def TurnRun.next (r : TurnRun) (n : Nat) : TurnRun := { r with pos := (r.pos + 1) % max 1 n, due := r.due + turnNs }

/-- The governor at the start of a turn (R360): a window that has ended leaves its current as fill to be withdrawn, and in the turn before a launch turn outside
any window fill rises. -/
def governStart (board : Nat) (t : TurnTable) (r : TurnRun) (s : State) : State :=
  let ended := r.reserved != 0 && decide (r.windowEnd ≤ r.due)
  let s := if ended then governTurn board (some { rises := false, since := r.windowEnd }) false s else s
  let next := t.turns[(r.pos + 1) % max 1 t.turns.length]?
  if (next.map (·.action)) == some 1 && (r.owner.isNone || decide (r.windowEnd ≤ r.due)) then
    governTurn board (some { rises := true, since := r.due }) false s
  else s

/-- TURN_START (R281 to R283, R360): a launch turn outside any window launches, stays idle, or is delayed by a command that overran. A debt
shortens the window; one that leaves it no length lapses with it. -/
def execTurnStart (board : Nat) (s : State) : Result :=
  match s.cfg.turntable board with
  | none => impossible "no turn table"
  | some t =>
    let r := s.turnRun board
    match t.turns[r.pos]? with
    | none => impossible "no such turn"
    | some e =>
      if s.up < r.due ∨ s.sched.stopped ∨ s.pwr.issueStop then impossible "no turn is due"
      else
        let s := governStart board t r s
        let r' := (s.turnRun board).next t.turns.length
        let s := s.setTurn board r'
        if e.action ≠ 1 ∨ (r.owner.isSome ∧ s.up < r.windowEnd) then .next (pumpSlices s)
        else
          let debt := Assoc.get r.debts e.slot 0
          let stop := r.due + e.held * turnNs - debt * 1000
          let r' := { r' with debts := Assoc.set r'.debts e.slot 0 }
          if e.held * turnNs ≤ debt * 1000 then .next (s.setTurn board { r' with owner := none })
          else if s.turnBusy r then .next (s.setTurn board { r' with delayed := some (r.pos, stop), late := r.late + 1 })
          else .next (runTurn t e stop (s.setTurn board r'))

/-- SLICE_START (R285, R286): the first waiting pair whose squares are free takes a slice; a debt of 1,000 µs or more skips one. -/
def execSliceStart (s : State) : Result :=
  if s.sched.stopped || s.pwr.issueStop then impossible "dispatch is stopped" else
  match s.pickPair s.pairs [] with
  | none => impossible "no pair can start"
  | some d =>
    let k := debtKey d.burgee d.board
    let debt := Assoc.get s.sched.debts k 0
    if 1000 ≤ debt then
      .next (chargePass d.burgee 1000 { s with sched := { s.sched with debts := Assoc.set s.sched.debts k (debt - 1000) } })
    else
      let x : Slice := { board := d.board, burgee := d.burgee, opened := s.up, length := (1000 - debt) * 1000, paused := 0, pausedAt := none, taken := s.takenFrom d }
      .next (pumpSlice x { s with sched := { s.sched with debts := Assoc.set s.sched.debts k 0, slices := s.sched.slices ++ [x] } })

/-- The slice's burgee has a command running on its board. -/
def State.sliceRuns (s : State) (x : Slice) : Bool :=
  s.sched.cmds.any fun c => c.2.stage == .launched && c.2.board == x.board && c.2.burgee == x.burgee && !c.2.priority

/-- SLICE_END (R285, R286, R293): the time is over or no command is left, and nothing of it runs. An overrun becomes a debt; a burgee whose slice a promotion took
has lost its squares for the time used. -/
def execSliceEnd (board : Nat) (s : State) : Result :=
  match s.sched.slices.find? fun x => x.board == board && x.pausedAt.isNone && !s.sliceRuns x &&
      (s.sliceOver x || (s.nextIn x.board x.burgee).isNone) with
  | none => impossible "no slice can end"
  | some x =>
    let used := (s.up - x.opened - x.paused) / 1000
    let k := debtKey x.burgee x.board
    let s := { s with sched := { s.sched with
      slices := s.sched.slices.filter (· != x)
      debts := Assoc.set s.sched.debts k (Assoc.get s.sched.debts k 0 + (used - x.length / 1000)) } }
    .next (chargePass x.burgee used (match x.taken with
      | some (b, n) => forfeit 5 0x05 b (used * n) x.burgee s
      | none => s))

/-- PRIORITY_LAUNCH (R284, R287): class 0 on a partition 0 board, class 1 with its reserve slots, or a fallback, at a command boundary. -/
def execPriorityLaunch (n : Nat) (s : State) : Result :=
  match s.cmd n with
  | none => impossible "no such command"
  | some d =>
    if !s.eligible d || !s.atBoundary d || (s.cfg.turntable d.board).isSome then impossible "not a launch outside a slice"
    else if !s.clear d then impossible "the squares are not at a boundary"
    else if !d.forced && s.sched.cmds.any (fun c => s.eligible c.2 && s.atBoundary c.2 && !c.2.forced && c.2.board == d.board && c.2.burgee == d.burgee &&
      c.2.cls == d.cls && decide (c.2.id < d.id)) then impossible "an earlier command of the ring goes first"
    else
      let s := s.modCmd n fun c => { c with priority := true }
      .next (launchIt d (pauseSlices (s.squaresOf d.board) s))

/-- The FLAGFALL entry of a command. -/
def State.fallEntry (s : State) (d : Cmd) : Option (FlagFall × Nat) :=
  match s.cfg.flagfall d.board with
  | none => none
  | some f => some (f, (f.entries.getD d.fallback (0, 0)).2)

/-- Replace a command by its fallback: at once on the same contexts where it ran and its squares are clear of turn-table windows, else at the
next command boundary once it has passed steps 4 and 5 (R17, R284; assumption 114). -/
def launchFallback (n : Nat) (d : Cmd) (f : FlagFall) (addr : Nat) (s : State) : State :=
  let count := fun (c : Cmd) => { c with isFallback := true, desc := addr, boundUs := f.minUs, rolls := { c.rolls with falls := c.rolls.falls + 1 } }
  if d.stage = .launched then
    let s := (cancelMembers n s).modCmd n count
    if (s.squaresOf d.board).all fun p => !s.keptByTurns d.board p then
      (launchCommand n addr f.minUs s).modCmd n fun c => { c with startStamp := d.startStamp }
    else s.modCmd n fun c => { c with stage := .eligible, forced := true }
  else s.modCmd n fun c => { count c with forced := true }

/-- A command that a hold step keeps past its fall point, and that no fallback replaces, misses its deadline by it (R50). -/
def forfeitHold (d : Cmd) (s : State) : State :=
  if s.heldNs d ≠ 0 then forfeit 4 0x06 d.burgee (s.heldNs d / 1000) (if d.holdNs = 0 then s.hoist.newGen.toNat else d.holdGen) s else s

/-- FALL_POINT (R50, R284, R226): what the flag-fall monitor does. -/
def execFallPoint (n : Nat) (s : State) : Result :=
  match s.cmd n with
  | none => impossible "no such command"
  | some d =>
    match d.deadline, s.fallEntry d with
    | some t, some (f, addr) =>
      let radio := ((s.cfg.board d.board).map (·.part)) == some 0
      let point := if radio ∧ addr = 0 then t else t - f.minUs * 1000
      if s.devTime < point ∨ d.isFallback ∨ d.status.isSome ∨ d.stage = .ended ∨
        d.stage = .launched ∧ d.members.all (·.ended) ∧ d.remotes.all (·.ended) then
        impossible "no fall point"
      else if addr ≠ 0 then .next (pumpSlices (launchFallback n d f addr s))
      else if d.stage = .launched then .next (cancelCommand n stFallback 0 (s.modCmd n fun c => { c with rolls := { c.rolls with falls := c.rolls.falls + 1 } }))
      else .next (endCommand n stFallback 0 ((forfeitHold d s).modCmd n fun c => { c with rolls := { c.rolls with falls := c.rolls.falls + 1 } }))
    | _, _ => impossible "no deadline"

/-- The latency target of a command's partition. -/
def State.latencyUs (s : State) (d : Cmd) : Nat :=
  match s.cfg.partOf d.burgee with
  | some p => ((s.cfg.partition p).map (·.latencyUs)).getD 0
  | none => 0

/-- COMMAND_PROMOTION (R288). -/
def execCommandPromotion (n : Nat) (s : State) : Result :=
  match s.cmd n with
  | none => impossible "no such command"
  | some d =>
    let l := s.latencyUs d
    if l = 0 ∨ d.promoted ∨ (d.stage ≠ .energy ∧ d.stage ≠ .eligible) ∨ s.up < d.waitedSince + l * 500 then impossible "the command is not due"
    else .next (s.modCmd n fun c => { c with promoted := true })

/-- LATENCY_TARGET_MISS (R50, R288, R293, R300): a rung-4 forfeit; a hoist that holds the board is its cause where one does. Where energy holds the command, the ENERGY
forfeit follows at the window boundary that it crosses (R355) or at its admission, whichever comes first (assumption 149). -/
def execLatencyTargetMiss (n : Nat) (cause : MissCause) (s : State) : Result :=
  match s.cmd n with
  | none => impossible "no such command"
  | some d =>
    let l := s.latencyUs d
    if l = 0 ∨ d.missed ∨ (d.stage ≠ .energy ∧ d.stage ≠ .eligible) ∨ s.up < d.waitedSince + l * 1000 then impossible "no target is missed"
    else
      let s := s.modCmd n fun c => { c with missed := true }
      if d.stage = .energy ∧ !s.hoist.held.contains d.board then .next (s.modCmd n fun c => { c with owed := true })
      else if s.hoist.held.contains d.board then
        .next (forfeit 4 0x06 d.burgee ((s.up - max s.hoist.holdSince d.waitedSince) / 1000) s.hoist.newGen.toNat s)
      else if !([0x01, 0x02, 0x04, 0x05].contains cause.cause) then impossible "no such cause"
      else .next (forfeit 4 cause.cause d.burgee cause.detail0 cause.detail1 s)

/-- COMMAND_OVERRUN (R78, R79, R284, R286): every context still running is faulted, the rest is cancelled. -/
def execCommandOverrun (n : Nat) (s : State) : Result :=
  match s.cmd n with
  | none => impossible "no such command"
  | some d =>
    if (d.stage ≠ .launched ∧ d.stage ≠ .copying) ∨ d.status.isSome ∨ s.up ≤ d.launchAt + d.boundUs * 1000 then impossible "no bound has passed"
    else
      let run := d.members.filter fun m => m.started && !m.ended
      if d.stage = .launched ∧ run.isEmpty ∧ d.members.all (·.ended) ∧ d.remotes.all (·.ended) then impossible "the command has ended"
      else
        let s := s.modCmd n fun c => { c with
          status := some stOverrun, reason := fOverrun
          faultSq := ((run.head?).map (·.sq)).getD 0xFFFF, faultDev := if run.isEmpty then 0 else s.deviceId }
        let s := forAll run (fun m s => tearDown m.psq m.slot true (recordFault m.psq m.slot fOverrun noStream 0 s)) s
        let s := { s with hub := { s.hub with outs := (s.hub.outs.filter fun (o : FabOut) => !(o.kind == 4 && o.cmd == n && !o.sent)).map fun (o : FabOut) =>
          if o.kind = 4 ∧ o.cmd = n then { o with discard := true } else o } }
        .next (cancelMembers n (s.modCmd n fun c => { c with copyBusy := 0 }))

/-- The resource of an arbitration point (R275). -/
def resourceAt (point : Nat) : Resource := match point with
  | 64 => .fabricOut
  | 65 => .fabricIn
  | 66 => .hostOut
  | 67 => .hostIn
  | n => .tower n

/-- A shortfall that an interval can have (R278): the partition has a floor share there, and less than its bytes of 100 µs are missing. -/
def State.floorShort (s : State) (x : Shortfall) : Bool := match s.cfg.regulator x.part with
  | none => false
  | some r => decide (x.point < 36 ∨ 64 ≤ x.point ∧ x.point < 68) && decide (0 < x.bytes) && decide (x.bytes ≤ 100 * s.cfg.floorShare r (resourceAt x.point))

/-- FLOOR_INTERVAL (R278, R293): at the end of each 100 µs of device time, shortfalls give rung-3 forfeits to burgees that were waiting. -/
def execFloorInterval (shortfalls : List Shortfall) (s : State) : Result :=
  if s.devTime < s.sched.nextFloor then impossible "no interval has ended"
  else if shortfalls.any fun x => !s.floorShort x then impossible "no such floor"
  else
    let s := { s with sched := { s.sched with nextFloor := (s.devTime / 100000 + 1) * 100000 } }
    .next (forAll shortfalls (fun x s =>
      forAll (x.waiting.filter fun b => s.cfg.partOf b == some x.part) (fun b s =>
        forfeit 3 (if x.byRadio then 0x03 else 0x09) b x.bytes x.point s) s) s)

/-- CMD_RATE_MILLISECOND (R279): a new millisecond of device time. -/
def execCmdRateMillisecond (s : State) : Result :=
  if s.devTime < s.sched.nextMs then impossible "no millisecond has begun"
  else
    let s := { s with
      sched := { s.sched with nextMs := (s.devTime / 1000000 + 1) * 1000000 }
      burgees := s.burgees.map fun b => (b.1, { b.2 with msLaunches := 0 }) }
    .next (pumpSlices s)

/-- SHARE_WIPE_DONE (R290, R291): the torn-down context's share holds the all-zero codeword and its slot takes commands again. -/
def execShareWipeDone (r : CtxRef) (s : State) : Result :=
  match s.physOf r.sq with
  | none => impossible "no such square"
  | some p =>
    let c := s.ctx p r.slot
    if !c.wiping then impossible "no share is being wiped"
    else .next (pumpSlices ((wipePad p c.shareBase c.shareLen s).setCtx p r.slot { c with wiping := false }))

end Sys2Proof.Machine
end

