-- ==== Sys2Proof/Machine/Burgees.lean ====
section
/-! DEFINITION. Burgee states and the manager's operations on them (R269 to R274). -/

namespace Sys2Proof.Machine

/-- Statuses of MGR_BGE_STAT (R270). -/
def bsWrongState : Nat := 1
def bsRadio : Nat := 2
def bsBusy : Nat := 3
def bsNotDeclared : Nat := 4

/-- Some cell runs (R271). -/
def State.radioRunning (s : State) : Bool := s.radio.cells.any fun c => c.2.st == .running

/-- A burgee enters a state; QUIET, DISABLED and WIPED are recorded and raise entry 1 (R270, R299, R317). -/
def enterBurgee (b : Nat) (st : BState) (s : State) : State :=
  let g := s.burgee b
  let s' := s.setBurgee b { g with state := st }
  if [.quiet, .disabled, .wiped].contains st then
    fire 1 (record 0x4000 dieHub noUnit (leBytes 1 b ++ leBytes 1 st.code ++ leBytes 1 g.state.code ++ leBytes 1 ((s.cfg.partOf b).getD 0) ++ leBytes 12 0) s')
  else s'

/-- An operation of R270: refused by number, while another runs, by state, or by a running cell; else it has its effect. -/
def burgeeOp (p : Pasid) (b : Nat) (accepts : List BState) (radio : Bool) (k : State → State) (s : State) : Result :=
  managerWrite p (fun s =>
    let s := { s with sched := { s.sched with mgrBurgee := b % 256 } }
    let refuse := fun (n : Nat) => Host.Outcome.next { s with sched := { s.sched with mgrStatus := n } }
    if b = 0 ∨ (s.cfg.burgee b).isNone then refuse bsNotDeclared
    else
      let g := s.burgee b
      if g.opPending then refuse bsBusy
      else if !accepts.contains g.state then refuse bsWrongState
      else if radio && s.cfg.partOf b == some 0 && s.radioRunning then refuse bsRadio
      else .next (k { s with sched := { s.sched with mgrStatus := 0 } })) s

/-- ENABLE (R270, R320): the PASID is bound and the sums since ENABLE begin anew. -/
def execEnable (p : Pasid) (b : Nat) (s : State) : Result :=
  burgeeOp p b [.free] false (fun s =>
    enterBurgee b .active (s.modBurgee b fun g => { g with energyUj := 0, cmdDone := 0, totals := List.replicate 10 0 })) s

/-- QUIESCE (R270, R272). -/
def execQuiesce (p : Pasid) (b : Nat) (s : State) : Result := burgeeOp p b [.active] true (enterBurgee b .draining) s

/-- RESUME (R270, R272). -/
def execResume (p : Pasid) (b : Nat) (s : State) : Result := burgeeOp p b [.quiet] false (fun s => pumpSlices (enterBurgee b .active s)) s

/-- A burgee's commands leave the device without a record; those of another device's board report that they are refused. -/
def discardCmds (b : Nat) (s : State) : State :=
  forAll (s.sched.cmds.filter fun c => c.2.burgee == b) (fun c s =>
    let s := match c.2.sub with
      | some (src, n) => sendSub src b 0 (.ended n { status := stRemoteRefused, reason := 0, aflags := 0, sq := 0xFFFF, steals := 0, combines := 0
                                                     ties := 0, routes := 0, falls := 0, replay := true, energyUj := 0, streams := [] }) s
      | none => s
    turnEnded c.1 ((returnClaims c.1 (cancelMembers c.1 s)).dropCmd c.1)) s

/-- DISABLE (R269, R270): commands read and not launched are never launched. -/
def execDisable (p : Pasid) (b : Nat) (s : State) : Result :=
  burgeeOp p b [.quiet] true (fun s => enterBurgee b .disabled (discardCmds b s)) s

/-- A square holds a tag for the burgee. -/
def State.squareTags (s : State) (b : Nat) : Bool :=
  s.squares.any fun q => q.2.tags.any fun t => (s.ctx q.1 t.slot).burgee == b

/-- A message of the burgee's vectors is pending (R272, R318). -/
def State.messagePending (s : State) (b : Nat) : Bool := match s.cfg.burgee b with
  | some r => (List.range r.vectors).any fun i => (Assoc.get s.msix (r.vectorBase + i) {}).pend
  | none => false

/-- BURGEE_QUIET (R272): nothing of a DRAINING burgee is in flight. -/
def execBurgeeQuiet (b : Nat) (s : State) : Result :=
  let g := s.burgee b
  if b = 0 ∨ g.state ≠ .draining ∨ g.forcing then impossible "the burgee does not drain"
  else if (s.sched.cmds.any fun c => c.2.burgee == b && [.launched, .copying, .ended].contains c.2.stage) || s.squareTags b ||
    (s.hub.outs.any fun o => o.burgee == b) || s.messagePending b then impossible "something is in flight"
  else .next (enterBurgee b .quiet s)

/-- FORCE (R273): commands are discarded or cancelled, streams stop, and fabric requests that have not left are dropped; BURGEE_FORCED
counts them. -/
def execForce (p : Pasid) (b : Nat) (s : State) : Result :=
  burgeeOp p b [.active, .draining] true (fun s =>
    let mine := s.sched.cmds.filter fun c => c.2.burgee == b
    let launched := (mine.filter fun c => [.launched, .copying].contains c.2.stage).length
    let unsent := (s.hub.outs.filter fun o => o.burgee == b && !o.sent && o.kind != 5).length
    let s := discardCmds b s
    let s := { s with hub := { s.hub with outs := (s.hub.outs.filter fun (o : FabOut) => !(o.burgee == b && !o.sent)).map fun (o : FabOut) =>
      if o.burgee = b then { o with discard := true } else o } }
    let s := { s with sched := { s.sched with slices := s.sched.slices.filter (·.burgee != b) } }
    let s := failCuts (fun c => c.burgee == b) s
    let s := s.modBurgee b fun g => { g with forcing := true, opPending := true, replyDrops := 0 }
    pumpSlices (record 0x4001 dieHub noUnit (leBytes 1 b ++ leBytes 3 0 ++ leBytes 4 (mine.length - launched) ++ leBytes 4 launched ++ leBytes 4 unsent)
      (refillHub s))) s

/-- FORCE_DONE (R273): every square and hub step has ended. -/
def execForceDone (b : Nat) (s : State) : Result :=
  let g := s.burgee b
  if !g.forcing then impossible "no FORCE runs"
  else if s.squareTags b || (s.hub.outs.any fun o => o.burgee == b && !o.sent) then impossible "steps are left"
  else .next (enterBurgee b .disabled (s.setBurgee b { g with forcing := false, opPending := false }))

/-- WIPE (R270, R274) starts. -/
def execWipe (p : Pasid) (b : Nat) (s : State) : Result :=
  burgeeOp p b [.disabled] false (fun s => restartScrub (s.modBurgee b fun g => { g with wiping := true, opPending := true })) s

/-- The page of a wiped burgee (R274, R307): its counters and forfeit ring are cleared, and EN with them. -/
def Burgee.wiped (g : Burgee) : Burgee :=
  { state := g.state, ringBase := g.ringBase, cplBase := g.cplBase, cplLog2 := g.cplLog2, cmdLog2 := g.cmdLog2 }

/-- BURGEE_WIPE_DONE (R274): shares and regions hold the all-zero codeword. -/
def execBurgeeWipeDone (b : Nat) (s : State) : Result :=
  let g := s.burgee b
  if !g.wiping then impossible "no WIPE runs"
  else
    let s := forAll (s.cfg.shares.filter (·.burgee == b)) (fun h s => match s.physOf h.sq with
      | some p => wipePad p h.base h.size s
      | none => s) s
    let s := forAll (s.cfg.regions.filter fun r => r.burgee == b && b != 255) wipeRegion s
    let s := match s.cfg.burgee b with
      | some r => forAll (List.range r.vectors) (fun i s =>
          let e := Assoc.get s.msix (r.vectorBase + i) {}
          { s with msix := Assoc.set s.msix (r.vectorBase + i) { e with pend := false } }) s
      | none => s
    let s := s.setBurgee b g.wiped
    let s := record 0x4002 dieHub noUnit (leBytes 1 b ++ leBytes 3 0 ++ leBytes 4 (min g.replyDrops (2 ^ 32 - 1)) ++ leBytes 8 0) s
    .next (enterBurgee b .wiped s)

/-- RELEASE (R270). -/
def execRelease (p : Pasid) (b : Nat) (s : State) : Result := burgeeOp p b [.wiped] false (enterBurgee b .free) s

end Sys2Proof.Machine
end

