-- ==== Sys2Proof/Machine/HoistImage.lean ====
section
/-! DEFINITION. Hoist images (R22 to R40, R45): the records of an image, checks 1 and 2 of R42, and the configuration that results when an
image is merged with the one in force. -/

namespace Sys2Proof.Machine

/-- A record of an image with its index (R23, R42). -/
structure Rec where
  index : Nat
  bytes : List Byte
  deriving DecidableEq, Repr

def Rec.f (r : Rec) (off n : Nat) : Nat := fieldAt r.bytes off n
def Rec.typ (r : Rec) : Nat := r.f 0 2
def Rec.delete (r : Rec) : Bool := bit (r.f 3 1) 0
def Rec.scope (r : Rec) : Nat := r.f 8 8
def Rec.kind (r : Rec) : Nat := r.scope / 2 ^ 56
def Rec.id (r : Rec) : Nat := r.scope % 65536

/-- The unit of replacement (R24), by type and ID: past step 2 of R42 a type fixes the scope kind. -/
def Rec.unit (r : Rec) : Nat × Nat := (r.typ, r.id)

/-- Two records name one unit of replacement: TYPE and the whole of SCOPE agree (R24). -/
def Rec.sameUnit (r q : Rec) : Bool := r.typ == q.typ && r.scope == q.scope

/-- A record of type `t` stands for the scope of `r`, not a deletion. -/
def carriesFor (l : List Rec) (t : Nat) (r : Rec) : Bool := l.any fun q => q.typ == t && q.scope == r.scope && !q.delete

/-- Entry arrays: `n` entries of `size` bytes from `off`. -/
def Rec.entries (r : Rec) (off size n : Nat) : List (List Byte) := chunksOf size n (r.bytes.drop off)

/-- A failing check: the record index and the refusal code (R53, R459). -/
abbrev Fail := Nat × Nat

def noIndex : Nat := 0xFFFF

/-- The instance that a step reports: the lowest record index, then the lowest code (R459). -/
def firstFail (l : List Fail) : Option Fail := l.foldl (fun a f => match a with
  | none => some f
  | some x => if f.1 < x.1 ∨ (f.1 = x.1 ∧ f.2 < x.2) then some f else a) none

/-- One failing instance where `b` holds. -/
def failIf (b : Bool) (index code : Nat) : List Fail := if b then [(index, code)] else []

-- refusal codes of R53
def rfState : Nat := 0x01
def rfBusy : Nat := 0x02
def rfSize : Nat := 0x03
def rfPoison : Nat := 0x04
def rfFormat : Nat := 0x10
def rfType : Nat := 0x11
def rfVersion : Nat := 0x12
def rfReserved : Nat := 0x13
def rfOrder : Nat := 0x14
def rfScope : Nat := 0x15
def rfSignature : Nat := 0x20
def rfBinding : Nat := 0x21
def rfGeneration : Nat := 0x22
def rfSquareRange : Nat := 0x30
def rfSquareMap : Nat := 0x31
def rfDepth : Nat := 0x32
def rfCycle : Nat := 0x33
def rfReference : Nat := 0x34
def rfScratch : Nat := 0x40
def rfContexts : Nat := 0x41
def rfRegion : Nat := 0x42
def rfSlots : Nat := 0x43
def rfRadio : Nat := 0x44
def rfEnergy : Nat := 0x45
def rfFloor : Nat := 0x46
def rfRadioBusy : Nat := 0x50
def rfInUse : Nat := 0x51
def rfTurntable : Nat := 0x52
def rfFlagfall : Nat := 0x53
def rfPennant : Nat := 0x54
def rfHarq : Nat := 0x55
def rfBurgee : Nat := 0x56
def rfSizeShort : Nat := 0x58
def rfAbandoned : Nat := 0x60
def rfLink : Nat := 0x61
def rfMcast : Nat := 0x62
def rfElogRate : Nat := 0x63

-- ───────────────────────── step 1: lengths (R22, R23)

def roundUp (n v : Nat) : Nat := ceilDiv v n * n

/-- Groups of an MCAST record: the bytes of each, destinations included. -/
def mcastGroups : Nat → List Byte → List (List Byte)
  | 0, _ => []
  | n + 1, l =>
    let size := roundUp 16 (16 + 2 * fieldAt l 2 1)
    l.take size :: mcastGroups n (l.drop size)

/-- LENGTH as the record's type and counts fix it; none for an unknown type or version. -/
def Rec.wants (r : Rec) : Option Nat :=
  if r.f 2 1 ≠ 1 then none
  else if r.delete then some 16
  else match r.typ with
  | 0x01 => some 64 | 0x02 => some (roundUp 16 (32 + 4 * r.f 16 2)) | 0x03 => some (roundUp 16 (32 + 8 * r.f 22 2))
  | 0x04 => some (roundUp 16 (32 + 8 * r.f 16 2)) | 0x05 => some (32 + 16 * r.f 16 2) | 0x06 => some 32 | 0x07 => some 64
  | 0x08 => some (32 + 32 * r.f 16 2) | 0x09 => some (roundUp 16 (32 + 8 * r.f 18 2)) | 0x0A => some (32 + 16 * r.f 18 2)
  | 0x0B => some (32 + 32 * r.f 16 2 + 16 * r.f 18 2) | 0x0C => some (32 + 16 * r.f 16 2)
  | 0x0D => some (32 + ((mcastGroups (r.f 16 2) (r.bytes.drop 32)).map fun g => roundUp 16 (16 + 2 * fieldAt g 2 1)).sum)
  | 0x0E => some (roundUp 16 (32 + 8 * r.f 16 2)) | 0x0F => some (32 + 32 * r.f 16 2) | 0x10 => some (roundUp 16 (32 + 8 * r.f 24 2))
  | 0x11 => some (roundUp 16 (32 + 8 * r.f 16 2)) | 0x12 => some 32 | 0xFF => some 176
  | _ => none

/-- The records of an image, or the index of the first whose LENGTH is wrong. -/
def splitImage : Nat → Nat → List Byte → List Rec × Option Nat
  | 0, _, _ => ([], none)
  | n + 1, i, l =>
    if l.isEmpty then ([], none)
    else
      let len := fieldAt l 4 4
      let r : Rec := { index := i, bytes := l.take len }
      if len < 16 ∨ len % 16 ≠ 0 ∨ l.length < len ∨ (r.wants.getD len ≠ len) then ([], some i)
      else
        let rest := splitImage n (i + 1) (l.drop len)
        (r :: rest.1, rest.2)

def imageRecs (image : List Byte) : List Rec × Option Nat := splitImage (image.length / 16 + 1) 0 image

-- ───────────────────────── step 2: forms (R9, R24, R25)

/-- The scope kind that a record type takes; none for an unknown type. -/
def scopeOf : Nat → Option Nat
  | 0x01 => some 0 | 0x02 => some 0 | 0x03 => some 2 | 0x04 => some 1 | 0x05 => some 1 | 0x06 => some 1 | 0x07 => some 1 | 0x08 => some 1
  | 0x09 => some 2 | 0x0A => some 2 | 0x0B => some 1 | 0x0C => some 0 | 0x0D => some 1 | 0x0E => some 0 | 0x0F => some 1 | 0x10 => some 0
  | 0x11 => some 0 | 0x12 => some 0 | 0xFF => some 0
  | _ => none

/-- Reserved bytes `[a, b)` are not all zero. -/
def Rec.dirty (r : Rec) (a b : Nat) : Bool := !allZero ((r.bytes.drop a).take (b - a))

/-- The bytes after the last entry are not all zero. -/
def Rec.tail (r : Rec) (from_ : Nat) : Bool := !allZero (r.bytes.drop from_)

/-- An entry's bits `[hi:lo]` are not zero. -/
def set_ (e : List Byte) (hi lo : Nat) : Bool := bits (leNat e) hi lo != 0

/-- A reserved field is not zero, or a code field holds a reserved code (R9). -/
def Rec.reserved (r : Rec) : Bool :=
  bits (r.f 3 1) 7 1 != 0 || bits r.scope 55 16 != 0 || (!r.delete && match r.typ with
  | 0x01 => !([1, 2].contains (r.f 16 1)) || bits (r.f 17 1) 7 1 != 0 || bits (r.f 18 2) 15 10 != 0 || r.dirty 20 24 || decide (4 < r.f 48 1) ||
      decide (1 < r.f 49 1) || decide (1 < r.f 56 1) || r.dirty 57 64
  | 0x02 => r.dirty 18 32 || ((r.entries 32 4 (r.f 16 2)).any fun e => set_ e 31 17) || r.tail (32 + 4 * r.f 16 2)
  | 0x03 => decide (3 < r.f 19 1) || decide (4 < r.f 20 1) || bits (r.f 21 1) 7 3 != 0 || r.dirty 26 32 ||
      ((r.entries 32 8 (r.f 22 2)).any fun e => decide (2 < fieldAt e 0 1) || set_ e 15 8 || set_ e 63 56) ||
      r.tail (32 + 8 * r.f 22 2)
  | 0x04 => r.dirty 18 32 || ((r.entries 32 8 (r.f 16 2)).any fun e => set_ e 15 11 || set_ e 63 41) || r.tail (32 + 8 * r.f 16 2)
  | 0x05 => r.dirty 18 32 || ((r.entries 32 16 (r.f 16 2)).any fun e => decide (2 < fieldAt e 2 1) || set_ e 31 30 || set_ e 47 35 || set_ e 127 88)
  | 0x06 => decide (1 < r.f 17 1) || r.dirty 18 20 || r.dirty 26 32
  | 0x07 => bits (r.f 40 8) 63 36 != 0 || r.dirty 56 64
  | 0x08 => r.dirty 18 32 || (r.entries 32 32 (r.f 16 2)).any fun e => decide (3 < fieldAt e 1 1) || bits (fieldAt e 4 4) 31 20 != 0 ||
      fieldAt e 19 1 != 0 || fieldAt e 22 2 != 0 || fieldAt e 28 4 != 0
  | 0x09 => decide (1 < r.f 20 1) || r.dirty 21 22 || r.dirty 24 32 ||
      ((r.entries 32 8 (r.f 18 2)).any fun e => set_ e 7 3 || decide (2 < fieldAt e 1 1) || set_ e 63 48) || r.tail (32 + 8 * r.f 18 2)
  | 0x0A => r.dirty 28 32
  | 0x0B => r.dirty 20 32 || ((r.entries 32 32 (r.f 16 2)).any fun e => decide (1 < fieldAt e 2 1) || decide (2 < fieldAt e 6 1) ||
        decide (1 < fieldAt e 9 1) || !allZero (e.drop 12)) ||
      (r.entries (32 + 32 * r.f 16 2) 16 (r.f 18 2)).any fun e => bit (fieldAt e 4 2) 12 || bits (fieldAt e 7 1) 7 2 != 0 || !allZero (e.drop 9)
  | 0x0C => decide (2 < r.f 18 1) || r.dirty 19 32 || (r.entries 32 16 (r.f 16 2)).any fun e => set_ e 63 24
  | 0x0D => r.dirty 18 32 || (mcastGroups (r.f 16 2) (r.bytes.drop 32)).any fun g => bits (fieldAt g 0 8) 63 24 != 0 ||
      !allZero (g.drop (16 + 2 * fieldAt g 2 1))
  | 0x0E => r.dirty 18 32 || ((r.entries 32 8 (r.f 16 2)).any fun e => decide (5 < fieldAt e 1 1) || set_ e 63 40) || r.tail (32 + 8 * r.f 16 2)
  | 0x0F => r.dirty 18 32 || (r.entries 32 32 (r.f 16 2)).any fun e => set_ e 63 40 || set_ e 255 192
  | 0x10 => decide (3 < r.f 16 1) || r.dirty 17 20 || r.dirty 26 32 || ((r.entries 32 8 (r.f 24 2)).any fun e => set_ e 31 8) ||
      r.tail (32 + 8 * r.f 24 2)
  | 0x11 => r.dirty 18 32 || r.tail (32 + 8 * r.f 16 2)
  | 0xFF => r.dirty 17 32
  | _ => false)

/-- The scope kind is wrong, the ID lies outside its range, or a body ID differs from it (R24). -/
def Rec.badScope (r : Rec) : Bool := match scopeOf r.typ with
  | none => false
  | some k => r.kind != k || (k == 0 && r.id != 0) || (k == 1 && decide (63 < r.id)) || (k == 2 && (r.id == 0 || decide (4095 < r.id))) ||
      (r.typ == 0x0B && r.id != 0) || (!r.delete && (([0x03, 0x09, 0x0A].contains r.typ && r.f 16 2 != r.id) || (r.typ == 0x06 && r.f 16 1 != r.id)))

/-- What one record breaks at step 2. -/
def Rec.form (r : Rec) : List Fail :=
  if (scopeOf r.typ).isNone then [(r.index, rfType)]
  else if r.f 2 1 ≠ 1 then [(r.index, rfVersion)]
  else failIf r.reserved r.index rfReserved ++ failIf r.badScope r.index rfScope ++
    failIf (r.delete && [0x01, 0x10, 0xFF].contains r.typ) r.index rfOrder

/-- The image carries a record of the unit, not a deletion. -/
def carries (l : List Rec) (t i : Nat) : Bool := l.any fun r => r.unit == (t, i) && !r.delete

/-- Order, uniqueness and required records (R22, R24). `parts` are the partitions in force and `regs` those with a regulator. -/
def orderFails (full : Bool) (parts regs : List Nat) (l : List Rec) : List Fail :=
  failIf ((l.head?.map Rec.typ) != some 0x01) 0 rfOrder ++
  failIf ((l.getLast?.map Rec.typ) != some 0xFF) (l.length - 1) rfOrder ++
  (l.filter fun r => l.any fun q => decide (r.index < q.index) && q.sameUnit r).map (fun r => (r.index, rfOrder)) ++
  (l.filter fun r => r.typ == 0x06 && !r.delete && !carriesFor l 0x07 r && (full || !(parts.contains r.id && regs.contains r.id))).map
    (fun r => (r.index, rfOrder)) ++
  (l.filter fun r => r.typ == 0x07 && r.delete && parts.contains r.id && !(l.any fun q => q.typ == 0x06 && q.scope == r.scope && q.delete)).map
    (fun r => (min (((l.find? fun q => q.typ == 0x06 && q.scope == r.scope).map (·.index)).getD r.index) r.index, rfOrder)) ++
  if full then failIf (!(l.any fun r => r.typ == 0x03 && !r.delete)) noIndex rfOrder ++ failIf (!(l.any fun r => r.typ == 0x06 && !r.delete)) noIndex rfOrder ++
    failIf (!carries l 0x10 0) noIndex rfOrder
  else []

-- ───────────────────────── the content of records

def parseMember (e : List Byte) : Member := { kind := fieldAt e 0 1, device := fieldAt e 2 2, id := fieldAt e 4 2, level := fieldAt e 6 1 }

def parseShare (p : Nat) (e : List Byte) : Share :=
  { part := p, sq := fieldAt e 0 1, slot := bits (fieldAt e 1 1) 2 0, first := fieldAt e 2 1, blocks := fieldAt e 3 1 + 1, burgee := fieldAt e 4 1
    reserve := bit (fieldAt e 5 1) 0 }

def parseRegion (p : Nat) (e : List Byte) : Region :=
  { part := p, id := fieldAt e 0 2, mode := fieldAt e 2 1, mask := bits (fieldAt e 3 1) 5 0, harq := bit (fieldAt e 4 1) 0, watchOk := bit (fieldAt e 4 1) 1
    exposed := bit (fieldAt e 4 1) 2, first := fieldAt e 6 2, units := fieldAt e 8 2, burgee := fieldAt e 10 1 }

def parseBurgee (p : Nat) (e : List Byte) : BurgeeRec :=
  { part := p, burgee := fieldAt e 0 1, maxClass := fieldAt e 1 1, weight := fieldAt e 2 2, pasid := BitVec.ofNat 20 (fieldAt e 4 4)
    cmdRate := fieldAt e 8 4, byteRate := fieldAt e 12 4, maxDurUs := fieldAt e 16 2, vectors := fieldAt e 18 1, vectorBase := fieldAt e 20 2
    needGib := fieldAt e 24 4 }

def parseTurn (e : List Byte) : Turn := { slot := bits (fieldAt e 0 1) 2 0, action := fieldAt e 1 1, kernelSlot := fieldAt e 2 2, held := fieldAt e 4 2 }

def parseCell (e : List Byte) : CellRec :=
  { id := fieldAt e 0 2, scs := fieldAt e 2 1, bwMhz := fieldAt e 3 1, tx := fieldAt e 4 1, rx := fieldAt e 5 1, split := fieldAt e 6 1
    units := fieldAt e 7 1, bDie := fieldAt e 8 1, duplex := fieldAt e 9 1, board := fieldAt e 10 2 }

def parseFlow (e : List Byte) : FlowRec :=
  { cell := fieldAt e 0 2, eaxc := fieldAt e 2 2, vid := bits (fieldAt e 4 2) 11 0, pcp := bits (fieldAt e 4 2) 15 13, port := fieldAt e 6 1
    uplink := bit (fieldAt e 7 1) 0, cplane := bit (fieldAt e 7 1) 1, comp := fieldAt e 8 1 }

def parseGroup (p : Nat) (g : List Byte) : McastGroup :=
  { part := p, id := fieldAt g 0 2, base := fieldAt g 8 8, dests := (List.range (fieldAt g 2 1)).map fun i => fieldAt g (16 + 2 * i) 2 }

def parseLease (p : Nat) (e : List Byte) : LeaseRec :=
  { part := p, id := fieldAt e 0 2, peer := fieldAt e 2 2, burgee := fieldAt e 4 1, offset := fieldAt e 8 8, sizeGib := fieldAt e 16 4, rate := fieldAt e 20 4 }

/-- Remove what a unit of replacement declares (R45, R458). -/
def HoistCfg.drop (u : Nat × Nat) (c : HoistCfg) : HoistCfg :=
  let c := { c with units := c.units.filter (· != u) }
  match u.1 with
  | 0x02 => { c with map := [], gates := [] }
  | 0x03 => { c with boards := c.boards.filter (·.id != u.2) }
  | 0x04 => { c with shares := c.shares.filter (·.part != u.2) }
  | 0x05 => { c with regions := c.regions.filter (·.part != u.2) }
  | 0x06 => { c with partitions := c.partitions.filter (·.id != u.2) }
  | 0x07 => { c with regulators := c.regulators.filter (·.part != u.2) }
  | 0x08 => { c with burgees := c.burgees.filter (·.part != u.2) }
  | 0x09 => { c with turntables := c.turntables.filter (·.board != u.2) }
  | 0x0A => { c with flagfalls := c.flagfalls.filter (·.board != u.2) }
  | 0x0B => { c with radio := none }
  | 0x0C => { c with route := none }
  | 0x0D => { c with mcast := c.mcast.filter (·.part != u.2) }
  | 0x0E => { c with links := [] }
  | 0x0F => { c with leases := c.leases.filter (·.part != u.2) }
  | 0x11 => { c with elogRates := [] }
  | 0x12 => { c with pennant := none }
  | _ => c

/-- One entry of a SQUARE_MAP record takes effect on the map (R27). -/
def HoistCfg.mapEntry (part : Part) (c : HoistCfg) (e : List Byte) : HoistCfg :=
  let sq := fieldAt e 0 1
  let p := fieldAt e 1 1
  if sq = 0xFF then
    let rest := c.gates.filter (· != p)
    { c with gates := if bit (fieldAt e 2 1) 0 then rest ++ [p] else rest }
  else { c with map := if p = defaultPhys part sq then Assoc.erase c.map sq else Assoc.set c.map sq p }

/-- Put what a record declares into a configuration. -/
def HoistCfg.add (part : Part) (r : Rec) (c : HoistCfg) : HoistCfg :=
  let c := { c with units := c.units ++ [r.unit] }
  let n := r.f 16 2
  match r.typ with
  | 0x01 => if r.f 16 1 = 1 then
      let d : DeviceRec := { id := bits (r.f 18 2) 9 0, shapePolicy := r.f 48 1, accum := r.f 49 1, cmdCapUs := if r.f 50 2 = 0 then 200 else r.f 50 2
                             srSeed := BitVec.ofNat 32 (r.f 52 4), balance := r.f 56 1 }
      { c with device := d }
    else c
  | 0x02 => (r.entries 32 4 n).foldl (HoistCfg.mapEntry part) c
  | 0x03 =>
    let b : Board := { id := r.id, part := r.f 18 1, split := r.f 19 1, shapePin := r.f 20 1, tempo := bit (r.f 21 1) 0, balanceOk := bit (r.f 21 1) 1
                       reduceRemote := bit (r.f 21 1) 2, reduceRoot := r.f 24 2, members := (r.entries 32 8 (r.f 22 2)).map parseMember }
    { c with boards := c.boards ++ [b] }
  | 0x04 => { c with shares := c.shares ++ (r.entries 32 8 n).map (parseShare r.id) }
  | 0x05 => { c with regions := c.regions ++ (r.entries 32 16 n).map (parseRegion r.id) }
  | 0x06 =>
    let p : Partition := { id := r.id, cls := r.f 17 1, latencyUs := r.f 20 4, maxBurgees := r.f 24 2 }
    { c with partitions := c.partitions ++ [p] }
  | 0x07 =>
    let g : Regulator := { part := r.id, towerFloor := r.f 16 4, towerCeil := r.f 20 4, fabricFloor := r.f 24 4, fabricCeil := r.f 28 4, hostFloor := r.f 32 4
                           hostCeil := r.f 36 4, channels := r.f 40 8, slots := r.f 48 8 }
    { c with regulators := c.regulators ++ [g] }
  | 0x08 => { c with burgees := c.burgees ++ (r.entries 32 32 n).map (parseBurgee r.id) }
  | 0x09 =>
    let t : TurnTable := { board := r.id, align := r.f 20 1, guardUs := r.f 22 2, turns := (r.entries 32 8 (r.f 18 2)).map parseTurn }
    { c with turntables := c.turntables ++ [t] }
  | 0x0A =>
    let f : FlagFall := { board := r.id, defaultUs := r.f 20 4, minUs := r.f 24 4
                          entries := (r.entries 32 16 (r.f 18 2)).map fun e => (fieldAt e 0 8, fieldAt e 8 8) }
    { c with flagfalls := c.flagfalls ++ [f] }
  | 0x0B => { c with radio := some { cells := (r.entries 32 32 n).map parseCell, flows := (r.entries (32 + 32 * n) 16 (r.f 18 2)).map parseFlow } }
  | 0x0C => { c with route := some { mode := r.f 18 1, entries := (r.entries 32 16 n).map fun e => (fieldAt e 0 2, fieldAt e 8 8 + fieldAt e 2 1 * 2 ^ 64) } }
  | 0x0D => { c with mcast := c.mcast ++ (mcastGroups n (r.bytes.drop 32)).map (parseGroup r.id) }
  | 0x0E =>
    let l : List LinkRec := (r.entries 32 8 n).map fun e => { link := fieldAt e 0 1, role := fieldAt e 1 1, peer := fieldAt e 2 2, peerLink := fieldAt e 4 1 }
    { c with links := l }
  | 0x0F => { c with leases := c.leases ++ (r.entries 32 32 n).map (parseLease r.id) }
  | 0x10 =>
    let p : PowerRec := { mode := r.f 16 1, radioMj := r.f 20 4, reserves := (r.entries 32 8 (r.f 24 2)).map fun e => (fieldAt e 0 1, fieldAt e 4 4) }
    { c with power := p }
  | 0x11 =>
    let l : List ElogRate := (r.entries 32 8 n).map fun e => { code := fieldAt e 0 2, burst := fieldAt e 2 2, rate := fieldAt e 4 4 }
    { c with elogRates := l }
  | 0x12 => { c with pennant := some (BitVec.ofNat 64 (r.f 16 8), BitVec.ofNat 64 (r.f 24 8)) }
  | _ => c

/-- A record replaces its unit, or removes it; SQUARE_MAP merges (R45). -/
def HoistCfg.mergeRec (part : Part) (c : HoistCfg) (r : Rec) : HoistCfg :=
  if r.delete then c.drop r.unit
  else if r.typ = 0xFF then c
  else if r.typ = 0x02 then HoistCfg.add part r { c with units := c.units.filter (· != r.unit) }
  else HoistCfg.add part r (c.drop r.unit)

/-- The configuration that an image gives over the one in force (R45); a full hoist starts from nothing. -/
def HoistCfg.merge (part : Part) (full : Bool) (c : HoistCfg) (l : List Rec) : HoistCfg :=
  l.foldl (HoistCfg.mergeRec part) (if full then {} else c)

end Sys2Proof.Machine
end

