-- ==== Sys2Proof/Machine/Keys.lean ====
section
/-! DEFINITION. The owner key store (R397). -/

namespace Sys2Proof.Machine

/-- The live row of a slot (R397): the last row that names it, if it is not revoked and was enrolled at the present release count. -/
def Security.liveRow (x : Security) (slot : Nat) : Option KeyRow :=
  match (x.rows.filter (·.slot == slot)).getLast? with
  | some r => if !r.revoked && r.release == x.release then some r else none
  | none => none

/-- SEC_KEYS.OWNER: the slots with a live row. -/
def Security.owners (x : Security) : Nat := ofBitList ((List.range 4).filter fun i => (x.liveRow i).isSome)

end Sys2Proof.Machine
end

