-- ==== Sys2Proof/Machine/Fronthaul.lean ====
section
/-! DEFINITION. Fronthaul ports (R234 to R246, R262 to R264): compression, windows, received frames, downlink messages, PTP on master
ports, ESMC, status. -/

namespace Sys2Proof.Machine

/-- DIE and UNIT of a port's records (R381). -/
def fhDie (p : Nat) : Nat := dieOptical (9 + p / 4)
def fhUnit (p : Nat) : Nat := 0x100 + p

def State.modPort (p : Nat) (f : Port → Port) (s : State) : State := s.setPort p (f (s.port p))

/-- Sub-port of a port: 0 to 3 in breakout, else 0 (R234). -/
def State.isSub (s : State) (p sub : Nat) : Bool := decide (p < 8) && decide (sub < if (s.port p).breakout then 4 else 1)

/-- The sub-port has its link. -/
def State.subUp (s : State) (p sub : Nat) : Bool := s.isSub p sub && bit (s.port p).link sub

-- ───────────────────────── block floating point (R240)

/-- Bits of a signed value, sign included. -/
def signedBits (v : Int) : Nat := ((List.range 16).filter fun k => v < -((2 ^ k : Nat) : Int) ∨ ((2 ^ k : Nat) : Int) ≤ v).length + 1

/-- Compress a PRB's values to `w` bits: exponent and mantissas. -/
def bfpCompress (w : Nat) (l : List Int) : Nat × List Int :=
  let n := (l.map signedBits).foldl max 1
  let e := n - w
  let lim : Int := (2 ^ (w - 1) : Nat)
  (e, l.map fun v => max (-lim) (min (lim - 1) (roundShift v e)))

/-- Decompress one value. -/
def bfpExpand (e : Nat) (m : Int) : Int := m * (2 ^ e : Nat)

/-- A BF16 sample as fixed point: x × 2^15, rounded to nearest with ties to even, saturated to 16 bits. -/
def bf16Sample (v : Nat) : Int :=
  let e := bits v 14 7
  let m := bits v 6 0
  if e = 255 ∧ m ≠ 0 then Config.nanSample v
  else
    let mag : Int := if e = 255 then 32768 else
      let f := if e = 0 then m else m + 128
      let x := max e 1
      if 119 ≤ x then min 32768 ((f * 2 ^ (min (x - 119) 24) : Nat) : Int) else roundShift f (119 - x)
    if bit v 15 then max (-32768) (-mag) else min 32767 mag

/-- A downlink PRB as it is sent (R240, R245): a poisoned one goes with exponent 0 and all mantissas zero. -/
def sendPrb (squares : Bool) (w : Nat) (p : Prb) : Nat × List Int :=
  if p.poison then (0, p.vals.map fun _ => 0)
  else
    let l := if squares then p.vals.map fun v => bf16Sample (ofSigned 16 v) else p.vals
    if w = 0 then (0, l) else bfpCompress w l

-- ───────────────────────── downlink (R237, R241, R244, R245)

/-- The peer entry that a cell's flow on a port leaves by (R237). -/
def State.fhPeer (s : State) (cell port : Nat) : Option FhPeer := s.fh.peers.find? fun p => p.cell == cell && p.port == port

/-- The device time before a symbol's start lies between two bounds (R241). -/
def State.before_ (s : State) (scs slot sym lo hi : Nat) : Bool :=
  let t := symbolStart s.time.alpha scs slot sym
  decide (s.devTime + lo ≤ t) && decide (t ≤ s.devTime + hi)

/-- Send a message on a flow: its seqId counts up from 0 since the cell's start (R238), and a frame for a sub-port without link is dropped
(R265). -/
def sendFlow (cell i : Nat) (f : FlowRec) (sub : Nat) (mk : Nat → Out) (s : State) : State :=
  match s.cell cell with
  | none => s
  | some c =>
    let q := Assoc.get c.sentIds i 0
    let s := s.setCell cell { c with sentIds := Assoc.set c.sentIds i ((q + 1) % 256) }
    if s.subUp f.port sub then emit (mk q) (s.modPort f.port fun p => { p with tx := satAdd 32 p.tx 1 }) else s

/-- A poisoned granule on transmit (R245, R264). -/
def txPoison (port : Nat) (s : State) : State :=
  record 0x3102 (fhDie port) (fhUnit port) [] (s.modPort port fun p => { p with txPoison := satAdd 32 p.txPoison 1 })

/-- A downlink message of a running cell on flow `i`. -/
def downlink (cell slot sym i lo hi : Nat) (kind : FlowRec → Bool) (k : CellRec → FlowRec → FhPeer → State → State) (s : State) : Result :=
  match s.cell cell, s.cfg.cellRec cell, s.cfg.flows[i]? with
  | some c, some e, some f =>
    if c.st ≠ .running ∨ f.cell ≠ cell ∨ !kind f ∨ 14 ≤ sym then impossible "no such flow of a running cell"
    else if !s.before_ e.scs slot sym lo hi then impossible "outside the window"
    else match s.fhPeer cell f.port with
      | none => impossible "no peer"
      | some p => .next (k e f p s)
  | _, _, _ => impossible "no such cell"

/-- The udCompHdr byte of a C-plane section (R239), laid out as O-RAN WG4 does: the U-plane's width, 0 for 16 bits, over its method (assumption 146). -/
def compHdr (w : Nat) : Nat := if w = 0 then 0 else w * 16 + 1

/-- The U-plane COMP that a C-plane flow's sections name: that of the cell's first U-plane flow with its EAXC_ID, else of the cell's first (assumption 146). -/
def HoistCfg.uplaneComp (cfg : HoistCfg) (f : FlowRec) : Nat :=
  let l := cfg.flows.filter fun w => w.cell == f.cell && !w.cplane
  ((((l.find? fun w => w.eaxc == f.eaxc).or l.head?).map (·.comp)).getD 0)

/-- The beamforming weights of a section as they are sent (R239, R245): 16-bit values, or compressed as one block by the flow's COMP. A granule that cannot be
corrected makes them all zero. -/
def sendWeights (w : Nat) (l : List Granule) : Nat × List Int :=
  let vals := l.flatMap fun g => (List.range 16).map fun i => toSigned 16 (bits (Code.value g).1.toNat (16 * i + 15) (16 * i))
  if l.any fun g => (Code.value g).2 then (0, vals.map fun _ => 0)
  else if w = 0 then (0, vals) else bfpCompress w vals

/-- DOWNLINK_CPLANE_SEND (R238, R239, R241, R245): 250 to 350 µs before the symbol. Weights go in category B only. -/
def execDownlinkCplaneSend (cell slot symbol flow : Nat) (weights : List Granule) (s : State) : Result :=
  if !weights.isEmpty && ((s.cfg.cellRec cell).map (·.split)) ≠ some 1 then impossible "weights outside category B"
  else downlink cell slot symbol flow 250000 350000 (·.cplane) (fun _ f p s =>
    let bad := weights.filter fun g => (Code.value g).2
    sendFlow cell flow f p.sub (fun q => .cplane f.port p.sub p.mac f.vid f.pcp f.eaxc q (compHdr (s.cfg.uplaneComp f)) (sendWeights f.comp weights))
      (forAll bad (fun _ s => txPoison f.port s) s)) s

/-- Bytes of a PRB on the wire (R240). -/
def prbBytes (w : Nat) : Nat := if w = 0 then 48 else 3 * w + 1

/-- PRBs that one eCPRI message carries (R237): its payload holds 16 bytes of headers before them (assumption 146). -/
def Port.prbsPerMessage (x : Port) (w : Nat) : Nat := ((if x.jumbo then 9000 else 1500) - 16) / prbBytes w

/-- The messages that a symbol's PRBs take. -/
def messagesOf (n : Nat) (l : List Prb) : List (List Prb) := (List.range (max 1 (ceilDiv l.length n))).map fun i => (l.drop (n * i)).take n

/-- DOWNLINK_UPLANE_SEND (R237, R240, R241, R245): 100 to 150 µs before the symbol, in as many messages as its PRBs take. -/
def execDownlinkUplaneSend (cell slot symbol flow : Nat) (prbs : List Prb) (s : State) : Result :=
  downlink cell slot symbol flow 100000 150000 (fun f => !f.cplane && !f.uplink) (fun e f p s =>
    let s := forAll (prbs.filter (·.poison)) (fun _ s => txPoison f.port s) s
    forAll (messagesOf ((s.port f.port).prbsPerMessage f.comp) prbs) (fun l s =>
      sendFlow cell flow f p.sub (fun q => .uplane f.port p.sub p.mac f.vid f.pcp f.eaxc q (l.map (sendPrb e.onSquares f.comp))) s) s) s

/-- The 16-byte payload of PA control (R244). -/
def paPayload (enable : Bool) (antennas : BitVec 4) (t : Nat) : List Byte :=
  leBytes 1 0x70 ++ leBytes 1 (if enable then 1 else 0) ++ leBytes 1 antennas.toNat ++ leBytes 5 0 ++ leBytes 8 t

/-- PA_CONTROL_SEND (R228, R244): at least 250 µs before EVENT_TIME, on the cell's C-plane flow. `edgeTime` is the start of the ramp-up or the
end of the ramp-down. -/
def execPaControlSend (cell : Nat) (enable : Bool) (antennas : BitVec 4) (edgeTime : Nat) (s : State) : Result :=
  match s.cell cell, s.cfg.cellRec cell, (s.cfg.flows.findIdx? fun f => f.cell == cell && f.cplane && !f.uplink) with
  | some c, some e, some i =>
    match s.cfg.flows[i]? with
    | none => impossible "no C-plane flow"
    | some f =>
      let t := if enable then edgeTime - c.tlv.paLead else edgeTime + c.tlv.paLag
      if c.st ≠ .running ∨ e.split ≠ 2 then impossible "not a running time-domain cell"
      else if t < s.devTime + 250000 then impossible "too late"
      else match s.fhPeer cell f.port with
        | none => impossible "no peer"
        | some p => .next (sendFlow cell i f p.sub (fun _ => .paControl f.port p.sub p.mac f.vid f.pcp f.eaxc (paPayload enable antennas t)) s)
  | _, _, _ => impossible "no such cell"

-- ───────────────────────── uplink (R236, R242)

/-- Largest magnitude of a received symbol's samples; a poisoned PRB is taken as zeros (R233, R242). -/
def framePeak (f : UplaneFrame) : Nat :=
  ((List.range f.prbs.length).zip f.prbs).foldl (fun a x =>
    if f.poison.contains x.1 then a else x.2.2.foldl (fun a m => max a (bfpExpand x.2.1 m).natAbs) a) 0

/-- An accepted symbol: its gain, its clipping, and the uplink chain (R222). -/
def takeSymbol (f : UplaneFrame) (cell ant : Nat) (s : State) : State :=
  match s.cell cell with
  | none => s
  | some c =>
    let x := f.slot * 14 + f.symbol
    let g := c.gain x ant f.power
    let clips := saturates (framePeak f) g.1
    let known := (Assoc.find c.clips (x * 256 + ant)).isSome
    let c := g.2
    let c := if clips && !known then
        { c with clips := Assoc.set (c.clips.filter fun e => decide (x ≤ e.1 / 256 + 28)) (x * 256 + ant) true, cnt := { c.cnt with clip := satAdd 32 c.cnt.clip 1 } }
      else c
    let s := s.setCell cell c
    if f.whole then symbolIn cell f.slot f.symbol ant s else s

/-- A frame that a port does not accept (R236, R242). -/
def discardFrame (p : Nat) (s : State) : State := s.modPort p fun x => { x with discard := satAdd 32 x.discard 1 }

/-- The symbols on which a frame's window is measured (R242): its own, or those of its PRACH occasion. -/
def Cell.frameSpan (c : Cell) (f : UplaneFrame) : Option (Nat × Nat) :=
  if !f.prach then some (f.symbol, f.symbol)
  else (c.allocs.find? fun r => r.slot == f.slot && r.alloc.kind == .prach && decide (r.alloc.firstSym ≤ f.symbol) && decide (f.symbol ≤ r.alloc.lastSym)).map
    fun r => (r.alloc.firstSym, r.alloc.lastSym)

/-- ECPRI_UPLANE_RECEIVE (R233, R236, R238, R242). -/
def execEcpriUplaneReceive (f : UplaneFrame) (s : State) : Result :=
  if !s.subUp f.port f.sub then impossible "the sub-port has no link"
  else
    let s := s.modPort f.port fun p => { p with rx := satAdd 32 p.rx 1 }
    if !f.fcsOk then .next (s.modPort f.port fun p => { p with fcsErr := satAdd 32 p.fcsErr 1 })
    else if !f.ecpri || f.frag then .next (discardFrame f.port s)
    else
      match s.cfg.flows.findIdx? fun w => w.port == f.port && w.eaxc == f.eaxc && w.vid == f.vid && w.pcp == f.pcp && w.uplink == f.uplink &&
          w.uplink && !w.cplane && ((s.cell w.cell).map fun c => c.st == .running) == some true with
      | none => .next (discardFrame f.port s)
      | some i =>
        match s.cfg.flows[i]? with
        | none => .next (discardFrame f.port s)
        | some w =>
          match s.cell w.cell, s.cfg.cellRec w.cell, (s.cfg.ulFlows w.cell).findIdx? (· == w) with
          | some c, some e, some ant =>
            let want := match Assoc.find c.seqIds i with
              | some q => (q + 1) % 256
              | none => 0
            let s := if f.seqId = want then s else s.modPort f.port fun p => { p with seqGap := satAdd 32 p.seqGap 1 }
            let s := s.modCell w.cell fun c => { c with seqIds := Assoc.set c.seqIds i (f.seqId % 256) }
            let span := c.frameSpan f
            let start := symbolStart s.time.alpha e.scs f.slot (span.getD (14, 14)).1
            let stop := symbolStart s.time.alpha e.scs f.slot ((span.getD (14, 14)).2 + 1) + c.tlv.ulWindow * 1000
            if !f.gridOk || decide (14 ≤ f.symbol) || span.isNone then .next (discardFrame f.port s)
            else if s.devTime < start then .next (s.modPort f.port fun p => { p with early := satAdd 32 p.early 1 })
            else if stop < s.devTime then .next (s.modPort f.port fun p => { p with late := satAdd 32 p.late 1 })
            else .next (takeSymbol f w.cell ant s)
          | _, _, _ => .next (discardFrame f.port s)

/-- ONE_WAY_DELAY_MEASUREMENT (R243, R246): answered on a port with a flow, with the corrected stamp. -/
def execOneWayDelayMeasurement (port sub rawPs : Nat) (s : State) : Result :=
  if !s.subUp port sub then impossible "the sub-port has no link"
  else
    let s := s.modPort port fun p => { p with rx := satAdd 32 p.rx 1 }
    if s.cfg.flows.any (·.port == port) then
      .next (emit (.delayResponse port sub ((rawPs : Int) - Config.rxPathPs port)) (s.modPort port fun p => { p with tx := satAdd 32 p.tx 1 }))
    else .next s

-- ───────────────────────── PTP on master ports, ESMC, links (R251, R262, R264)

/-- The sub-port may be a master port of a tracked domain (R252). -/
def State.masterPort (s : State) (p sub : Nat) : Bool := s.time.doms.any fun d => d.2.en && bit d.2.master.toNat (4 * p + sub)

/-- The clockClass that master ports announce (R251). -/
def State.announceClass (s : State) : Nat := match s.time.st with
  | .holdover => 135
  | .freerun | .acquiring => 248
  | .locked => ((Assoc.get s.time.doms s.time.active {}).parent.map (·.1)).getD 248

/-- PTP_DELAY_REQ (R251): stamped and answered on a master port. Kinds of PTP message: 0 Sync, 1 Announce, 2 Delay_Resp. -/
def execPtpDelayReq (port sub rawPs : Nat) (s : State) : Result :=
  if !s.subUp port sub then impossible "the sub-port has no link"
  else
    let s := s.modPort port fun p => { p with rx := satAdd 32 p.rx 1 }
    if s.masterPort port sub then
      .next (emit (.ptp port sub 2 ((rawPs : Int) - Config.rxPathPs port)) (s.modPort port fun p => { p with tx := satAdd 32 p.tx 1 }))
    else .next s

/-- PTP_MASTER_SEND (R246, R251): a two-step Sync, whose stamp in ps is corrected to the connector, or an Announce with the clockClass. -/
def execPtpMasterSend (port sub : Nat) (sync : Bool) (s : State) : Result :=
  if !s.subUp port sub || !s.masterPort port sub then impossible "not a master port"
  else
    .next (emit (if sync then .ptp port sub 0 ((s.devTime * 1000 + Config.txPathPs port : Nat) : Int) else .ptp port sub 1 (s.announceClass : Int))
      (s.modPort port fun p => { p with tx := satAdd 32 p.tx 1 }))

/-- ESMC_RECEIVE (R262, R263). -/
def execEsmcReceive (port sub : Nat) (ql : BitVec 8) (s : State) : Result :=
  if !s.subUp port sub then impossible "the sub-port has no link"
  else .next (s.modPort port fun p => { p with rx := satAdd 32 p.rx 1, qlRx := ql })

/-- ESMC_SEND (R262): once per second on every sub-port. -/
def execEsmcSend (s : State) : Result :=
  if s.up < s.time.esmcDue then impossible "not due"
  else
    let s := { s with time := { s.time with esmcDue := s.up + 1000000000 } }
    .next (forAll (List.range 8) (fun p s => forAll ((List.range 4).filter fun i => s.subUp p i) (fun i s =>
      emit (.esmc p i s.time.qlTx) (s.modPort p fun x => { x with tx := satAdd 32 x.tx 1 })) s) s)

/-- FH_LINK_DOWN (R264). -/
def execFhLinkDown (port sub : Nat) (s : State) : Result :=
  if !s.subUp port sub then impossible "the sub-port has no link"
  else .next (record 0x3100 (fhDie port) (fhUnit port) [] (s.modPort port fun p => { p with link := p.link - 2 ^ sub }))

/-- FH_LINK_UP (R264). -/
def execFhLinkUp (port sub : Nat) (s : State) : Result :=
  if !s.isSub port sub || s.subUp port sub then impossible "the sub-port has its link"
  else .next (record 0x3101 (fhDie port) (fhUnit port) [] (s.modPort port fun p => { p with link := p.link + 2 ^ sub }))

-- ───────────────────────── mailbox (R237, R263)

def parsePeer (l : List Byte) : FhPeer := { cell := fieldAt l 0 2, port := fieldAt l 2 1, sub := fieldAt l 3 1, mac := fieldAt l 4 6 }

/-- A port carries a flow of a cell that is not stopped (R237). -/
def State.portBusy (s : State) (p : Nat) : Bool :=
  s.cfg.flows.any fun f => f.port == p && ((s.cell f.cell).map fun c => c.st == .running) == some true

/-- A port takes a mode (R237): a change between one MAC and four takes the links of its sub-ports, each recorded (R264; assumption 146). -/
def setMode (p : Nat) (breakout jumbo : Bool) (s : State) : State :=
  let x := s.port p
  let lost := if breakout = x.breakout then [] else (List.range 4).filter fun i => bit x.link i
  forAll lost (fun _ s => record 0x3100 (fhDie p) (fhUnit p) [] s)
    (s.modPort p fun x => { x with breakout := breakout, jumbo := jumbo, link := if breakout = x.breakout then x.link else 0 })

/-- FH_CONFIG (R237). -/
def execFhConfig (p : Pasid) (len : Nat) (s : State) : Result :=
  mailbox p 0x0003 len (fun n => decide (16 ≤ n)) (fun l s =>
    let count := fieldAt l 8 2
    if 1024 < count ∨ len ≠ 16 + 16 * count then (mbBadLength, [], s)
    else
      let peers := (List.range count).map fun i => parsePeer ((l.drop (16 + 16 * i)).take 16)
      let mode := fun (q : Nat) => fieldAt l q 1
      let changed := fun (q : Nat) => bit (mode q) 0 != (s.port q).breakout || bit (mode q) 1 != (s.port q).jumbo ||
        (peers.filter (·.port == q)) != (s.fh.peers.filter (·.port == q))
      if (List.range 8).any fun q => changed q && s.portBusy q then (mbBusy, [], s)
      else
        let s := forAll (List.range 8) (fun q s => setMode q (bit (mode q) 0) (bit (mode q) 1) s) s
        (mbOk, [], { s with fh := { s.fh with peers := peers } })) s

/-- One record of FH_STATUS (R263). -/
def Port.status (x : Port) (up p : Nat) : List Byte :=
  leBytes 1 (if x.breakout then 1 else 0) ++ leBytes 1 x.link ++ leBytes 2 0 ++ ([x.tx, x.rx, x.fcsErr, x.discard, x.seqGap, x.early, x.late,
    x.txPoison].flatMap fun v => leBytes 4 v) ++ leBytes 2 (Config.txPathPs p) ++ leBytes 2 (Config.rxPathPs p) ++
    leBytes 6 (Config.fhBaseMac + 4 * p) ++ leBytes 1 x.qlRx.toNat ++ leBytes 1 0 ++
    ((List.range 4).flatMap fun l => leBytes 2 (ofSigned 16 (Config.fhRxPower up p l))) ++ leBytes 8 0

/-- FH_STATUS (R263). -/
def execFhStatus (p : Pasid) (len : Nat) (s : State) : Result :=
  mailboxRead p 0x0004 len (fun s => (List.range 8).flatMap fun q => (s.port q).status s.up q) s

end Sys2Proof.Machine
end

