-- ==== Sys2Proof/Machine/TimeUnit.lean ====
section
/-! DEFINITION. Device time (R247 to R262): domains and the time state, steps, pulses, captures, SyncE. -/

namespace Sys2Proof.Machine

def State.dom (s : State) (d : Nat) : Domain := Assoc.get s.time.doms d {}
def State.setDom (d : Nat) (v : Domain) (s : State) : State := { s with time := { s.time with doms := Assoc.set s.time.doms d v } }

/-- A refused command or write of the block (R322): a W1C bit of TIME_STAT that changes raises entry 4 (R317). -/
def timeRefused (s : State) : State :=
  if s.time.refused then s else fire 4 { s with time := { s.time with refused := true } }

-- ───────────────────────── RATE (R247, R255)

/-- Largest RATE: 200 ppm (R247). -/
def rateLimit : Int := 858993

/-- Change RATE, with its history of the last 1,000 s (R254). -/
def setRate (r : Int) (s : State) : State :=
  if r = s.time.rate then s else
  let keep := s.time.rates.takeWhile fun e => decide (s.up < e.1 + 1000000000000)
  { s with time := { s.time with rate := r, rates := (s.up, r) :: keep ++ (s.time.rates.drop keep.length).take 1 } }

/-- The sum of RATE over the span back to `from`, newest change first. -/
def rateSum (start : Nat) : Nat → List (Nat × Int) → Int
  | _, [] => 0
  | stop, (t, r) :: rest => if t ≤ start then r * ((stop - start : Nat) : Int) else r * ((stop - t : Nat) : Int) + rateSum start t rest

/-- The average of RATE over the last 1,000 s (R254). -/
def State.rateAverage (s : State) : Int :=
  let start := s.up - 1000000000000
  if s.up = start then s.time.rate else rateSum start s.up s.time.rates / ((s.up - start : Nat) : Int)

/-- The values that RATE has held since one second ago, newest first. -/
def recentRates (up : Nat) : List (Nat × Int) → List Int
  | [] => []
  | (t, r) :: rest => r :: if t + 1000000000 ≤ up then [] else recentRates up rest

/-- RATE moves toward a correction (R255): it stays within 1 ppm of every value that it has held in the last second, and within 200 ppm. -/
def State.rateToward (s : State) (want : Int) : Int :=
  let near := s.time.rate :: recentRates s.up s.time.rates
  let lo := near.foldl (fun a r => max a (r - 4294)) (-rateLimit)
  let hi := near.foldl (fun a r => min a (r + 4294)) rateLimit
  if hi < lo then s.time.rate else max lo (min hi want)

-- ───────────────────────── the time state (R253, R254, R256)

/-- A domain is qualified (R253). -/
def State.qualified (s : State) (d : Nat) : Bool :=
  let x := s.dom d
  x.en && (match x.parent with
    | some (c, _) => [6, 7, 135].contains c
    | none => false) && decide (s.up ≤ x.lastAnn + 375000000) && decide (16 ≤ x.valid)

/-- The time state changes (R264, R317). -/
def enterTime (st : TimeSt) (s : State) : State :=
  if s.time.st = st then s else fire 4 (record 0x3200 dieHub noUnit [] { s with time := { s.time with st := st } })

/-- The active domain changes (R256). -/
def switchDomain (d : Nat) (s : State) : State :=
  if s.time.active = d then s else record 0x3202 dieHub noUnit [] { s with time := { s.time with active := d } }

/-- HOLDOVER begins (R254): RATE freezes at the average of the last 1,000 s. -/
def enterHoldover (s : State) : State :=
  let s := enterTime .holdover (setRate s.rateAverage s)
  record 0x3203 dieHub noUnit [] { s with time := { s.time with holdoverAt := s.up } }

/-- The estimates of the last 16 s, and the one before them (R254). -/
def lastSpan (up : Nat) : List (Nat × Int) → List (Nat × Int)
  | [] => []
  | e :: rest => e :: if e.1 + 16000000000 ≤ up then [] else lastSpan up rest

/-- A domain's servo gives an estimate. -/
def Domain.estimate (x : Domain) (up : Nat) (v : Int) : Domain :=
  { x with offset := v, estimates := (up, v) :: lastSpan up (if x.valid = 0 then [] else x.estimates), valid := x.valid + 1 }

/-- The estimates have spread by less than 1 µs over 16 s (R254). -/
def Domain.settled (x : Domain) (up : Nat) : Bool :=
  let l := lastSpan up x.estimates
  (l.getLast?.map fun e => decide (e.1 + 16000000000 ≤ up)).getD false && l.all fun a => l.all fun b => decide (a.2 - b.2 < 1000)

/-- What the domains' qualification does to the time state. -/
def requalify (s : State) : State :=
  let a := s.time.active
  let pick := if s.qualified a then some a else [0, 1].find? s.qualified
  match s.time.st, pick with
  | .freerun, some d => enterTime .acquiring (switchDomain d s)
  | .acquiring, some d => switchDomain d s
  | .locked, some d => switchDomain d s
  | .holdover, some d => enterTime .locked (switchDomain d s)
  | .freerun, none => s
  | .holdover, none => s
  | _, none => enterHoldover s

/-- A tracked domain whose SLAVE_MASK takes a sub-port. -/
def State.slaveDomain (s : State) (num p sub : Nat) : Option Nat :=
  [0, 1].find? fun d => (s.dom d).en && (s.dom d).num == num && bit (s.dom d).slave.toNat (4 * p + sub)

/-- PTP_SYNC (R251): the corrected stamp less the origin, in ps. -/
def execPtpSync (port sub domain rawPs : Nat) (origin : Int) (s : State) : Result :=
  if !s.subUp port sub then impossible "the sub-port has no link"
  else
    let s := s.modPort port fun p => { p with rx := satAdd 32 p.rx 1 }
    match s.slaveDomain domain port sub with
    | none => .next s
    | some d => .next (s.setDom d { s.dom d with lastSync := some ((rawPs : Int) - Config.rxPathPs port - origin) })

/-- PTP_ANNOUNCE (R253): `best` says that the BMCA chooses the sender as the parent. -/
def execPtpAnnounce (port sub domain clockClass : Nat) (best : Bool) (s : State) : Result :=
  if !s.subUp port sub then impossible "the sub-port has no link"
  else
    let s := s.modPort port fun p => { p with rx := satAdd 32 p.rx 1 }
    match s.slaveDomain domain port sub with
    | none => .next s
    | some d =>
      let x := s.dom d
      let k := 4 * port + sub
      if best then .next (requalify (s.setDom d { x with parent := some (clockClass, k), lastAnn := s.up }))
      else if (x.parent.map (·.2)) = some k then .next (requalify (s.setDom d { x with parent := none }))
      else .next s

/-- What an exchange measures (R251, R252): half of the difference between the delays from the master and back to it, in ps, as an offset of the master from
device time in ns. ASYMMETRY_NS enters as in IEEE 1588: positive where the path from the master is the longer (assumption 77). -/
def Domain.measured (x : Domain) (sync back : Int) : Int := (back - sync) / 2000 + x.asym

/-- PTP_DELAY_RESP (R251 to R253, R255): an exchange ends. `sent` is the stamp of the Delay_Req and `received` the corrected stamp of the Delay_Resp, in ps; an
exchange is not valid without a Sync. The servo filters what it measured, and the active domain's estimate drives RATE in LOCKED. -/
def execPtpDelayResp (domain : Nat) (valid : Bool) (sent received : Int) (s : State) : Result :=
  match [0, 1].find? fun d => (s.dom d).en && (s.dom d).num == domain with
  | none => .next s
  | some d =>
    let x := s.dom d
    match x.lastSync with
    | none => .next (requalify (s.setDom d { x with valid := 0 }))
    | some sync =>
      if !valid then .next (requalify (s.setDom d { x with valid := 0 }))
      else
        let est := Config.servoFilter (if x.valid = 0 then none else some x.offset) (x.measured sync (received - sent))
        let s := requalify (s.setDom d (x.estimate s.up est))
        .next (if s.time.st = .locked ∧ s.time.active = d then setRate (s.rateToward (Config.servoRate s.time.rate est)) s else s)

/-- DOMAIN_ANNOUNCE_TIMEOUT (R253, R256). -/
def execDomainAnnounceTimeout (d : Nat) (s : State) : Result :=
  let x := s.dom d
  if 2 ≤ d ∨ x.parent.isNone ∨ s.up ≤ x.lastAnn + 375000000 then impossible "an Announce has arrived"
  else .next (requalify (s.setDom d { x with parent := none }))

-- ───────────────────────── pulses (R260)

def State.pulse (s : State) (n : Nat) : TimeOut := Assoc.get s.time.outs n {}
def State.setPulse (n : Nat) (v : TimeOut) (s : State) : State := { s with time := { s.time with outs := Assoc.set s.time.outs n v } }

/-- The one-shot fires: MODE returns to 0 and DONE is set, LATE beside it where it was late; a change of them raises entry 4 (R317). -/
def firePulse (n : Nat) (late : Bool) (s : State) : State :=
  let x := s.pulse n
  let b := BitVec.ofNat 4 (2 ^ n)
  let s := s.setPulse n { x with mode := 0, armed := false, last := s.devTime }
  let t := { s.time with outDone := s.time.outDone ||| b, outLate := if late then s.time.outLate ||| b else s.time.outLate }
  let new := t.outDone != s.time.outDone || t.outLate != s.time.outLate
  let s := emit (.pulse n x.width) { s with time := t }
  if new then fire 4 s else s

/-- Arm a one-shot with AT as it stands: it fires at once when AT is no later than 100 ns from now. -/
def armPulse (n : Nat) (s : State) : State :=
  let x := s.pulse n
  if x.aT.toNat ≤ s.devTime + 100 then firePulse n true s else s.setPulse n { x with armed := true }

/-- TIME_OUT_CFG_WRITE (R260, R322). -/
def execTimeOutCfgWrite (p : Pasid) (n : Nat) (value : BitVec 64) (s : State) : Result :=
  managerWrite p (fun s =>
    let v := value.toNat
    let x := s.pulse n
    let mode := bits v 1 0
    if 4 ≤ n then impossible "no such pin"
    else if mode = 3 ∨ x.period ≤ v / 2 ^ 32 then .next (timeRefused s)
    else
      let x := { x with mode := mode, polarity := bit v 2, phase := v / 2 ^ 32, armed := false }
      match mode with
      | 1 => .next (armPulse n (s.setPulse n x))
      | 2 => .next (s.setPulse n (if x.run.isSome then x else { x with run := some (x.polarity, x.period, x.width, x.phase), last := s.devTime }))
      | _ => .next (s.setPulse n x)) s

/-- TIME_OUT_AT_WRITE (R260): an armed one-shot is armed again. -/
def execTimeOutAtWrite (p : Pasid) (n : Nat) (value : BitVec 64) (s : State) : Result :=
  managerWrite p (fun s =>
    if 4 ≤ n then impossible "no such pin"
    else
      let x := s.pulse n
      let s := s.setPulse n { x with aT := value }
      .next (if x.armed then armPulse n s else s)) s

/-- ONE_SHOT_FIRE (R260). -/
def execOneShotFire (n : Nat) (s : State) : Result :=
  let x := s.pulse n
  if !x.armed ∨ s.devTime < x.aT.toNat then impossible "the one-shot is not due"
  else .next (firePulse n false s)

/-- The latest leading edge of a periodic pin up to a time. -/
def lastEdge (now period phase : Nat) : Nat := if now < phase then 0 else now - (now - phase) % max 1 period

/-- TIME_OUT_PERIODIC_EDGE (R260, R265): a leading edge; the registers as they stand take effect there. -/
def execTimeOutPeriodicEdge (n : Nat) (s : State) : Result :=
  let x := s.pulse n
  match x.run with
  | none => impossible "the pin is not periodic"
  | some (_, period, _, phase) =>
    let t := lastEdge s.devTime period phase
    if t ≤ x.last then impossible "no edge is due"
    else
      let x := { x with run := if x.mode = 2 then some (x.polarity, x.period, x.width, x.phase) else none, last := t }
      let s := s.setPulse n x
      .next (if x.mode = 2 then emit (.pulse n x.width) s else s)

-- ───────────────────────── steps (R259)

/-- Slot length for a turn table's alignment: the longest of the board's cells, or 30 kHz (R34; assumption 51). -/
def HoistCfg.alignNs (cfg : HoistCfg) (board : Nat) : Nat :=
  ((cfg.cells.filter (·.board == board)).map fun e => slotNs e.scs).foldl max 500000

/-- Nanoseconds from a device time to the next slot boundary. -/
def toBoundary (alpha len t : Nat) : Nat := (len - (t + (10 ^ 7 * len - (gpsEpoch + alpha) % len)) % len) % len

/-- A turn table starts its cycle at its next start: a slot boundary with ALIGN 1, else the next turn. -/
def startCycle (t : TurnTable) (s : State) : State :=
  let wait := if t.align = 1 then toBoundary s.time.alpha (s.cfg.alignNs t.board) s.devTime else 0
  s.setTurn t.board { s.turnRun t.board with pos := 0, due := s.up + wait }

/-- Slots of a partition lost when the channel frame is cut at a device time (R144, R259). -/
def Regulator.slotsAfter (r : Regulator) (t : Nat) : Nat :=
  popcount 36 r.channels * (bitList 64 r.slots).countP fun i => decide (t % 8000 / 125 ≤ i)

/-- Step device time (R259, R265). -/
def stepTime (new : Nat) (s : State) : State :=
  let old := s.devTime
  let s := reportAllLost s
  let shift : Int := (new : Int) - (old : Int)
  let s := { s with time := { s.time with
    acc := BitVec.ofNat 96 (new * 2 ^ 32)
    doms := s.time.doms.map fun e => (e.1, { e.2 with offset := e.2.offset - shift, estimates := e.2.estimates.map fun v => (v.1, v.2 - shift) })
    outs := s.time.outs.map fun e => (e.1, { e.2 with last := if e.2.run.isSome then new - 1 else e.2.last }) } }
  let s := anchor 2 (record 0x3201 dieHub noUnit (item old ++ item new) s)
  let s := loseSlots 0x08 1 (fun r => r.slotsAfter old) s
  let t := s.devTime
  let s := { s with
    tow := { s.tow with
      frameDue := (t + 7999) / 8000 * 8000, refreshed := true, calibrated := true
      chans := s.tow.chans.map fun c => (c.1, { c.2 with lostFrom := t }) }
    sched := { s.sched with nextMs := (t / 1000000 + 1) * 1000000, nextFloor := (t / 100000 + 1) * 100000 }
    elog := { s.elog with nextHour := t / 3600000000000 } }
  let s := forAll (s.cfg.turntables.filter (·.align == 1)) startCycle s
  forAll ((List.range 4).filter fun n => (s.pulse n).armed && decide ((s.pulse n).aT.toNat ≤ t)) (fun n s => firePulse n true s) s

/-- TIME_FIRST_LOCK (R254, R255, R259): one step to the active domain's estimate. -/
def execTimeFirstLock (s : State) : Result :=
  let x := s.dom s.time.active
  if s.time.st ≠ .acquiring ∨ !s.qualified s.time.active ∨ !x.settled s.up then impossible "no lock yet"
  else
    let s := stepTime ((s.devTime : Int) + x.offset).toNat s
    .next (enterTime .locked s)

/-- TIME_HOLDOVER (R264): the hourly record. -/
def execTimeHoldover (s : State) : Result :=
  if s.time.st ≠ .holdover ∨ s.up < s.time.holdoverAt + 3600000000000 then impossible "no hour has passed"
  else .next (record 0x3203 dieHub noUnit [] { s with time := { s.time with holdoverAt := s.up } })

/-- RELOCK (R254, R257). -/
def execRelock (p : Pasid) (s : State) : Result :=
  managerWrite p (fun s =>
    if s.radioRunning then .next (record 0x3205 dieHub noUnit [] (timeRefused s))
    else
      .next (if s.qualified 0 || s.qualified 1 then requalify (enterTime .acquiring s) else enterTime .freerun s)) s

/-- SELECT (R256, R322). -/
def execSelect (p : Pasid) (d : Nat) (s : State) : Result :=
  managerWrite p (fun s => if d < 2 ∧ s.qualified d then .next (switchDomain d s) else .next (timeRefused s)) s

/-- TIME_SET (R257). -/
def execTimeSet (p : Pasid) (value : BitVec 64) (s : State) : Result :=
  managerWrite p (fun s =>
    if s.radioRunning then .next (record 0x3205 dieHub noUnit [] (timeRefused s))
    else if s.time.st ≠ .freerun then .next (timeRefused s)
    else .next (stepTime value.toNat s)) s

/-- TIME_FRAME_OFS_WRITE (R250). -/
def execTimeFrameOfsWrite (p : Pasid) (value : BitVec 64) (s : State) : Result :=
  managerWrite p (fun s =>
    let a := bits value.toNat 23 0
    if s.radioRunning ∨ 9999999 < a then .next (timeRefused s) else .next { s with time := { s.time with alpha := a } }) s

-- ───────────────────────── captures and reads (R249, R261)

/-- TIME_IN_EDGE (R261). -/
def execTimeInEdge (n : Nat) (falling : Bool) (s : State) : Result :=
  if 2 ≤ n then impossible "no such pin"
  else if bit s.time.inCfg.toNat n != falling then .next s
  else
    let q := Assoc.get s.time.caps n []
    if 16 ≤ q.length then
      let ovf := s.time.capOvf ||| BitVec.ofNat 2 (2 ^ n)
      let new := ovf != s.time.capOvf
      let s := record 0x3204 dieHub noUnit [] { s with time := { s.time with capOvf := ovf } }
      .next (if new then fire 4 s else s)
    else .next { s with time := { s.time with caps := Assoc.set s.time.caps n (q ++ [BitVec.ofNat 32 s.stamp]) } }

/-- A register read by the manager, or of the device when it is halted. -/
def managerRead (p : Pasid) (k : State → Result) (s : State) : Result := managerWrite p k s

/-- TIME_IN_CAP_READ (R261, R322). -/
def execTimeInCapRead (p : Pasid) (n : Nat) (s : State) : Result :=
  if 2 ≤ n then impossible "no such pin" else
  managerRead p (fun s => match Assoc.get s.time.caps n [] with
    | [] => .next (emit (.readValue 0) s)
    | v :: t => .next (emit (.readValue (BitVec.ofNat 64 (2 ^ 32 + v.toNat))) { s with time := { s.time with caps := Assoc.set s.time.caps n t } })) s

/-- TIME_NOW_LOW_READ (R249): the high half is latched. -/
def execTimeNowLowRead (p : Pasid) (s : State) : Result :=
  managerRead p (fun s => .next (emit (.readValue (BitVec.ofNat 64 s.stamp)) { s with time := { s.time with latch := BitVec.ofNat 32 (s.devTime / 2 ^ 32) } })) s

-- ───────────────────────── SyncE (R262)

/-- TIME_SYNCE_WRITE (R262): a change of source holds the output low for 100 µs. -/
def execTimeSynceWrite (p : Pasid) (value : BitVec 64) (s : State) : Result :=
  managerWrite p (fun s =>
    let v := value.toNat
    let t := s.time
    let en := bit v 7
    let lane := BitVec.ofNat 2 (bits v 4 3)
    let port := BitVec.ofNat 3 (bits v 2 0)
    let t' := { t with qlTx := BitVec.ofNat 4 (bits v 19 16), synceEn := en, synceLane := lane, syncePort := port }
    if en = t.synceEn ∧ lane = t.synceLane ∧ port = t.syncePort then .next { s with time := t' }
    else .next { s with time := { t' with synceLock := false, rclkHold := true, holdUntil := if en then some (s.up + 100000) else none } }) s

/-- SYNCE_LOCK_LOSS (R262). -/
def execSynceLockLoss (s : State) : Result :=
  if !s.time.synceEn || !s.time.synceLock then impossible "no locked source"
  else .next { s with time := { s.time with synceLock := false, rclkHold := true } }

/-- SYNCE_LOCK_REGAINED (R262). -/
def execSynceLockRegained (s : State) : Result :=
  if !s.time.synceEn || s.time.synceLock then impossible "no source without lock"
  else .next { s with time := { s.time with synceLock := true, rclkHold := s.time.holdUntil.isSome } }

/-- SYNCE_SOURCE_HOLD_END (R262). -/
def execSynceSourceHoldEnd (s : State) : Result :=
  match s.time.holdUntil with
  | none => impossible "no source has changed"
  | some t =>
    if s.up < t then impossible "the hold lasts"
    else .next { s with time := { s.time with holdUntil := none, rclkHold := !s.time.synceLock } }

end Sys2Proof.Machine
end

