-- ==== Sys2Proof/Machine/HoistChecks.lean ====
section
/-! DEFINITION. Checks 3 to 7 of R42 on an image and on the configuration that it would give (R19, R26 to R40, R44 to R46, R458 to R460). -/

namespace Sys2Proof.Machine

/-- Index of the image's record of a unit. -/
def recAt (l : List Rec) (u : Nat × Nat) : Option Nat := (l.find? fun r => r.unit == u).map (·.index)

/-- A failing instance that involves the records of these units: the lowest index among those in the image, else 0 (R459). -/
def failAt (l : List Rec) (us : List (Nat × Nat)) (code : Nat) : Fail := (((us.filterMap (recAt l)).min?).getD 0, code)

/-- The units of the boards of a board's local tree. -/
def HoistCfg.treeUnits (n : HoistCfg) (id : Nat) : List (Nat × Nat) := (n.treeN boardDepth id).map fun i => (0x03, i)

/-- One instance of `failAt` where `b` holds. -/
def failOn (l : List Rec) (b : Bool) (us : List (Nat × Nat)) (code : Nat) : List Fail := if b then [failAt l us code] else []

def cover (lo n lo' n' : Nat) : Bool := decide (lo < lo' + n') && decide (lo' < lo + n)

-- ───────────────────────── steps 3 and 4 (R40, R42)

/-- The signature over every byte before the SIGNATURE record verifies under the live key of its slot (R40). -/
def State.signed (s : State) (l : List Rec) : Bool := match l.getLast? with
  | none => false
  | some r => match s.sec.liveRow (r.f 16 1) with
    | none => false
    | some k => Config.ecdsaVerify k.key (Config.sha512 (s.hoist.image.take (s.hoist.image.length - 176))) ((r.bytes.drop 32).take 72) ((r.bytes.drop 104).take 72)

/-- SERIAL and generations (R42 step 4). -/
def State.bindFails (s : State) (d : Rec) (full : Bool) : List Fail :=
  let g := d.f 32 8
  let base := d.f 40 8
  failIf (d.f 24 8 != s.ident.serial.toNat) 0 rfBinding ++
  failIf (if full then base != 0 || decide (g ≤ s.mram mramGeneration 8) else base != s.gen.toNat || decide (g ≤ s.gen.toNat)) 0 rfGeneration

-- ───────────────────────── step 5 (R19, R26, R44, R46, R460)

/-- A burgee's resources may shrink, move or go (R46): undeclared, FREE, DISABLED or WIPED. -/
def State.mayLose (s : State) (b : Nat) : Bool :=
  b != 0 && ((s.cfg.burgee b).isNone || [.free, .disabled, .wiped].contains (s.burgee b).state)

/-- The burgees that a region is given to. -/
def HoistCfg.regionUsers (c : HoistCfg) (r : Region) : List Nat :=
  if r.burgee = 255 then (c.burgees.filter (·.part == r.part)).map (·.burgee) else [r.burgee]

def Region.grows (r n : Region) : Bool := decide (r.units ≤ n.units) && { n with units := r.units } == r
def Share.grows (h n : Share) : Bool := decide (h.blocks ≤ n.blocks) && { n with blocks := h.blocks } == h
def LeaseRec.grows (l n : LeaseRec) : Bool := decide (l.sizeGib ≤ n.sizeGib) && { n with sizeGib := l.sizeGib } == l

/-- Shares, regions and leases that shrink, move or go while a burgee that holds them may not lose them (R46, R460). A board shrinks where it loses
squares on which its partition has shares: their burgees may not lose them either (assumption 108). -/
def State.lossFails (s : State) (n : HoistCfg) (l : List Rec) : List Fail :=
  let c := s.cfg
  ((c.shares.filter fun h => !(n.shares.any fun x => x.part == h.part && x.sq == h.sq && x.slot == h.slot && h.grows x) && !s.mayLose h.burgee).map
    fun h => failAt l [(0x04, h.part)] rfInUse) ++
  ((c.regions.filter fun r => !(n.regions.any fun x => x.part == r.part && x.id == r.id && r.grows x) && !(c.regionUsers r).all s.mayLose).map
    fun r => failAt l [(0x05, r.part)] rfInUse) ++
  ((c.regions.filter fun r => r.mode == 2 && c.h0 != n.h0 && (n.regions.any fun x => x.part == r.part && x.id == r.id && x.mode == 2) &&
      !(c.regionUsers r).all s.mayLose).map
    fun r => failAt l ((0x05, r.part) :: (((c.regions.filter fun x => x.mode == 2 && x.first == c.h0) ++ n.regions.filter fun x => x.mode == 2 && x.first == n.h0).map
      fun x => (0x05, x.part))) rfInUse) ++
  ((c.leases.filter fun e => !(n.leases.any fun x => x.part == e.part && x.id == e.id && e.grows x) && !s.mayLose e.burgee).map
    fun e => failAt l [(0x0F, e.part)] rfInUse) ++
  ((c.boards.filter fun b =>
      let gone := (c.leaves b.id).filter fun sq => !((n.leaves b.id).contains sq)
      c.shares.any fun h => h.part == b.part && gone.contains h.sq && !s.mayLose h.burgee).map
    fun b => failAt l (c.treeUnits b.id ++ n.treeUnits b.id) rfInUse)

/-- BURGEE entries that go, or change what only a FREE burgee may change, partitions that change, and partitions that go while they own a board or
a burgee (R46; assumption 79: IN_USE). -/
def State.ownerFails (s : State) (n : HoistCfg) (l : List Rec) : List Fail :=
  let c := s.cfg
  ((c.burgees.filter fun b => (s.burgee b.burgee).state != .free && match n.burgee b.burgee with
      | none => true
      | some x => x.part != b.part || x.pasid != b.pasid || x.maxClass != b.maxClass || x.vectors != b.vectors || x.vectorBase != b.vectorBase ||
          x.needGib != b.needGib).map
    fun b => failAt l [(0x08, b.part)] rfInUse) ++
  ((c.partitions.filter fun p => (n.partition p.id).any (· != p)).map fun p => failAt l [(0x06, p.id)] rfInUse) ++
  ((c.partitions.filter fun p => (n.partition p.id).isNone && ((n.boards.any (·.part == p.id)) || n.burgees.any (·.part == p.id))).map
    fun p => failAt l [(0x06, p.id)] rfInUse)

/-- Logical squares whose physical square changes. -/
def State.remapped (s : State) (n : HoistCfg) : List Nat :=
  (List.range s.numSquares).filter fun sq => n.physOf s.ident.part sq != s.cfg.physOf s.ident.part sq

/-- A remapped square of a turn-table board needs that board's TURNTABLE record in the image (R46, R458). -/
def State.remapFails (s : State) (n : HoistCfg) (l : List Rec) : List Fail :=
  let m := s.remapped n
  (n.turntables.filter fun t => !carries l 0x09 t.board && (n.leaves t.board).any m.contains).map fun t => failAt l [(0x02, 0), (0x09, t.board)] rfTurntable

/-- The records that name the radio partition (R19, R46): its scope, a board of its own, a remap of one of its squares, or a POWER record that
changes the radio reserve. -/
def State.radioRecs (s : State) (n : HoistCfg) (l : List Rec) : List Rec :=
  let mine := fun i => (((s.cfg.board i).map (·.part)) == some 0) || (((n.board i).map (·.part)) == some 0)
  let m := s.remapped n
  l.filter fun r => (scopeOf r.typ == some 1 && r.id == 0) || (scopeOf r.typ == some 2 && mine r.id) ||
    (r.typ == 0x02 && (s.cfg.boards ++ n.boards).any fun b => b.part == 0 && (s.cfg.leaves b.id ++ n.leaves b.id).any m.contains) ||
    (r.typ == 0x10 && n.power.radioMj != s.cfg.power.radioMj)

/-- A hoist that names the radio partition only adds cells, on squares and dies that the radio has and that are idle (R19; assumption 109: a square is
idle while no launched command has a member on it, a die while no running cell of it is there). -/
def State.onlyAddsCells (s : State) (n : HoistCfg) (named : List Rec) : Bool :=
  named.all (fun r => r.typ == 0x0B) && s.cfg.cells.all n.cells.contains && ((s.cfg.radio.map (·.flows)).getD []).all ((n.radio.map (·.flows)).getD []).contains &&
    (n.cells.filter fun c => !(s.cfg.cells.contains c)).all fun c =>
      (c.board == 0 || (((s.cfg.board c.board).map (·.part)) == some 0 && (s.squaresOf c.board).all fun p => (s.runningOn p).isEmpty)) &&
        !(s.cfg.cells.any fun o => o.bDie == c.bDie && ((s.cell o.id).map (·.st)) == some .running)

/-- RADIO_BUSY (R19, R219): the radio partition is named while a cell runs, or a running cell's slices would move. -/
def State.radioFails (s : State) (n : HoistCfg) (l : List Rec) : List Fail :=
  let named := s.radioRecs n l
  let runs := s.radio.cells.any fun c => c.2.st == .running
  (if runs && !s.onlyAddsCells n named then named.map fun r => (r.index, rfRadioBusy) else []) ++
  failOn l (s.radio.cells.any fun c => c.2.st == .running && firstSlice c.1 s.cfg.cells != firstSlice c.1 n.cells) [(0x0B, 0)] rfRadioBusy

/-- Step 5: R26, R44 and what a partial hoist may do. -/
def State.stateFails (s : State) (d : Rec) (full : Bool) (n : HoistCfg) (l : List Rec) : List Fail :=
  failIf (s.pwr.state != (if full then .idle else .active)) 0 rfState ++
  failIf (bit (d.f 17 1) 0 != full) 0 rfState ++
  if full then []
  else
    failIf (d.dirty 48 57 || bits (d.f 18 2) 9 0 != s.deviceId) 0 rfState ++
    s.lossFails n l ++ s.ownerFails n l ++ s.remapFails n l ++ s.radioFails n l

-- ───────────────────────── step 6: references and structure

/-- Compute die of a logical square. -/
def State.dieOf (s : State) (sq : Nat) : Nat := defaultPhys s.ident.part sq / 9

/-- SQUARE_MAP (R27, R422, R458; assumption 79: the code SQUARE_MAP for COUNT above 180 and for a physical square above 179). -/
def State.mapFails (s : State) (n : HoistCfg) (l : List Rec) : List Fail :=
  let squares := List.range s.numSquares
  let es := match l.find? fun r => r.typ == 0x02 && !r.delete with
    | some r => r.entries 32 4 (r.f 16 2)
    | none => []
  let sqs := es.map fun e => fieldAt e 0 1
  let bad := fun (e : List Byte) =>
    let sq := fieldAt e 0 1
    let p := fieldAt e 1 1
    decide (180 ≤ p) || (sq != 0xFF && (bit (fieldAt e 2 1) 0 || (decide (sq < s.numSquares) && (p / 9 != s.dieOf sq || s.retired p || decide (1 < sqs.count sq)))))
  let deleted := l.any fun r => r.typ == 0x02 && r.delete
  let at_ := [(0x02, 0)]
  failOn l (sqs.any fun sq => sq != 0xFF && decide (s.numSquares ≤ sq)) at_ rfSquareRange ++
  failOn l (decide (180 < es.length) || es.any bad) at_ rfSquareMap ++
  failOn l (deleted && squares.any fun sq => s.retired (defaultPhys s.ident.part sq)) at_ rfSquareMap ++
  failOn l (squares.any fun sq => n.gates.contains (n.physOf s.ident.part sq)) at_ rfSquareMap ++
  failOn l (!(squares.map (n.physOf s.ident.part)).Nodup) at_ rfSquareMap

/-- Boards reached from a board's members. -/
def HoistCfg.below (c : HoistCfg) (n id : Nat) : List Nat := match c.board id with
  | none => []
  | some b => (b.members.filter (·.kind == 1)).flatMap fun m => m.id :: (c.treeN n m.id).drop 1

/-- The boards that a board reaches, each listed once: no chain of distinct boards is longer than the number of boards. -/
def HoistCfg.reach (c : HoistCfg) : Nat → List Nat → List Nat → List Nat
  | 0, seen, _ => seen
  | _, seen, [] => seen
  | n + 1, seen, id :: todo =>
    if seen.contains id then c.reach n seen todo
    else
      let next := match c.board id with
        | none => []
        | some b => (b.members.filter (·.kind == 1)).map (·.id)
      c.reach n (seen ++ [id]) (next ++ todo)

/-- The boards that a board reaches through at least one local member. -/
def HoistCfg.reached (c : HoistCfg) (b : Board) : List Nat :=
  c.reach ((c.boards.map fun x => x.members.length + 1).sum + b.members.length + 1) [] ((b.members.filter (·.kind == 1)).map (·.id))

/-- The boards below `id`, itself included, through which a chain of more than six boards runs; `d` boards stand above `id` (R28). -/
def HoistCfg.deepN (n : HoistCfg) : Nat → Nat → Nat → List Nat
  | 0, _, _ => []
  | k + 1, d, id =>
    if d + n.levelN 8 id ≤ 6 then []
    else match n.board id with
      | none => []
      | some b => id :: (b.members.filter (·.kind == 1)).flatMap fun m => n.deepN k (d + 1) m.id

/-- One board (R28, R73; assumption 79). -/
def State.boardFails (s : State) (n : HoistCfg) (l : List Rec) (b : Board) : List Fail :=
  let k := b.members.length
  let r := n.reached b
  let round := (r.filter fun i => (n.board i).any fun x => (n.reached x).contains b.id).map fun i => (0x03, i)
  failOn l ((n.partition b.part).isNone) [(0x03, b.id), (0x06, b.part)] rfReference ++
  failOn l (k == 0 || decide (160 < k) || decide (k ≤ b.reduceRoot) || (b.split == 0 && k != 1)) [(0x03, b.id)] rfReference ++
  failOn l (b.members.any fun m => m.kind == 0 && decide (s.numSquares ≤ m.id)) [(0x03, b.id)] rfSquareRange ++
  ((b.members.filter fun m => m.kind == 1 && (n.board m.id).isNone).map fun m => failAt l [(0x03, b.id), (0x03, m.id)] rfReference) ++
  failOn l (b.members.any fun m => if m.kind = 2 then m.level == 0 || decide (6 < m.level) || decide (1023 < m.device) || m.id == 0 || decide (4095 < m.id)
    else m.level != 0 || m.device != 0) [(0x03, b.id)] rfReference ++
  failOn l (b.tempo && (b.balanceOk || b.members.any (·.kind == 2))) [(0x03, b.id)] rfReference ++
  failOn l (r.contains b.id) ((0x03, b.id) :: round) rfCycle ++
  failOn l (!r.contains b.id && decide (6 < n.levelN 8 b.id)) ((n.deepN 8 0 b.id).map fun i => (0x03, i)) rfDepth

/-- The squares of a board of partition 0 belong to no board of another partition (R28). -/
def sharedSquareFails (n : HoistCfg) (l : List Rec) : List Fail :=
  (n.boards.filter (·.part == 0)).flatMap fun a => (n.boards.filter fun b => b.part != 0 && (n.leaves b.id).any (n.leaves a.id).contains).map
    fun b => failAt l (n.treeUnits a.id ++ n.treeUnits b.id) rfReference

/-- Partitions, regulators, shares, regions, leases, multicast groups and reserves name what exists (R29, R31, R38, R39). Where the image drops what an
entry names, the record that drops it takes part in the break (R459). -/
def State.refFails (s : State) (n : HoistCfg) (l : List Rec) : List Fail :=
  let known := fun p => (n.partition p).isSome
  let foreign := fun p b => !(if b = 0 then p == 0 else n.burgees.any fun e => e.burgee == b && e.part == p)
  let via := fun p b => (if known p then [] else [(0x06, p)]) ++
    (if foreign p b && s.cfg.burgees.any fun e => e.burgee == b && e.part == p then [(0x08, p)] else [])
  (n.partitions.filter fun p => p.cls != (if p.id = 0 then 0 else 1)).map (fun p => failAt l [(0x06, p.id)] rfReference) ++
  (n.regulators.filter fun r => !known r.part).map (fun r => failAt l [(0x07, r.part), (0x06, r.part)] rfReference) ++
  (n.shares.filter fun h => decide (s.numSquares ≤ h.sq)).map (fun h => failAt l [(0x04, h.part)] rfReference) ++
  (n.shares.filter fun h => !known h.part || foreign h.part h.burgee).map (fun h => failAt l ((0x04, h.part) :: via h.part h.burgee) rfReference) ++
  (n.regions.filter fun r => !known r.part || (r.burgee != 255 && foreign r.part r.burgee)).map
    (fun r => failAt l ((0x05, r.part) :: if r.burgee = 255 then (if known r.part then [] else [(0x06, r.part)]) else via r.part r.burgee) rfReference) ++
  (n.leases.filter fun e => !known e.part || foreign e.part e.burgee || e.offset % gib != 0 || decide (1023 < e.peer)).map
    (fun e => failAt l ((0x0F, e.part) :: via e.part e.burgee) rfReference) ++
  (n.mcast.filter fun g => !known g.part).map (fun g => failAt l [(0x0D, g.part), (0x06, g.part)] rfReference) ++
  (n.mcast.filter fun g => g.dests.isEmpty || decide (64 < g.dests.length) || g.dests.any fun d => decide (1023 < d)).map
    (fun g => failAt l [(0x0D, g.part)] rfMcast) ++
  (n.power.reserves.filter fun e => !known e.1).map fun e => failAt l [(0x10, 0), (0x06, e.1)] rfReference

/-- GiB of a burgee's regions, those shared by its partition included, and of its leases (R30, R33). -/
def HoistCfg.footprint (n : HoistCfg) (b : Nat) : Nat :=
  ((n.regions.filter fun r => (n.regionUsers r).contains b).map fun r => popcount 6 r.mask * r.units).sum + ((n.leases.filter (·.burgee == b)).map (·.sizeGib)).sum

/-- BURGEE entries (R33, R317): a burgee has one entry, and a PASID belongs to one partition (assumption 79: the code BURGEE for a second entry of a
burgee and for more burgees than MAX_BURGEES). -/
def burgeeFails (n : HoistCfg) (l : List Rec) : List Fail :=
  let es := n.burgees
  let two := fun (clash : BurgeeRec → BurgeeRec → Bool) => ((List.range es.length).flatMap fun i => (List.range i).filterMap fun j =>
    match es[i]?, es[j]? with
    | some a, some b => if clash a b then some (failAt l [(0x08, a.part), (0x08, b.part)] rfBurgee) else none
    | _, _ => none)
  (es.filter fun e => (n.partition e.part).isNone).map (fun e => failAt l [(0x08, e.part), (0x06, e.part)] rfReference) ++
  two (fun a b => a.burgee == b.burgee || (a.pasid == b.pasid && a.part != b.part) || cover a.vectorBase a.vectors b.vectorBase b.vectors) ++
  (es.filter fun e => e.burgee == 0 || (e.maxClass == 0 && e.part != 0) || e.weight == 0 || e.vectors == 0 || decide (8 < e.vectors) ||
      decide (e.vectorBase < 8) || decide (2048 < e.vectorBase + e.vectors)).map (fun e => failAt l [(0x08, e.part)] rfBurgee) ++
  (n.partitions.filter fun p => decide (p.maxBurgees < (es.filter (·.part == p.id)).length)).map (fun p => failAt l [(0x06, p.id), (0x08, p.id)] rfBurgee) ++
  (es.filter fun e => decide (n.footprint e.burgee < e.needGib)).map fun e => failAt l [(0x08, e.part), (0x05, e.part), (0x0F, e.part)] rfSizeShort

/-- Longest duration of a burgee's commands (R33). -/
def HoistCfg.maxDur (n : HoistCfg) (b : Nat) : Nat := match n.burgee b with
  | some r => if r.maxDurUs = 0 then n.device.cmdCapUs else r.maxDurUs
  | none => n.device.cmdCapUs

/-- The DEVICE record takes part where the longest duration is its default (R34, R459). -/
def HoistCfg.capUnits (n : HoistCfg) (b : Nat) : List (Nat × Nat) := match n.burgee b with
  | some r => if r.maxDurUs = 0 then [(0x01, 0)] else []
  | none => [(0x01, 0)]

/-- The DEVICE record of a full hoist carries the settings; that of a partial hoist takes part in no break of them (R26). -/
def Rec.takesPart (full : Bool) (u : Nat × Nat) : Bool := full || u != (0x01, 0)

/-- TURNTABLE and FLAGFALL (R34, R35). A board's squares are those of its whole tree, remote ones included (R72). -/
def tableFails (full : Bool) (n : HoistCfg) (l : List Rec) : List Fail :=
  (n.turntables.flatMap fun t =>
    let sq := n.leaves t.board
    let hold := n.shares.filter fun h => sq.contains h.sq
    let us := [(0x09, t.board)]
    let tree := us ++ n.treeUnits t.board
    failOn l ((n.board t.board).isNone) tree rfReference ++
    failOn l (n.flagfalls.any (·.board == t.board)) (us ++ [(0x0A, t.board)]) rfTurntable ++
    failOn l (decide (16 < n.squareCount t.board)) tree rfTurntable ++
    failOn l (t.turns.isEmpty || decide (4096 < t.turns.length) || t.turns.any (·.held == 0)) us rfTurntable ++
    failOn l (t.align == 1 && (n.cells.any fun c => c.board == t.board && t.turns.length * turnNs % slotNs c.scs != 0)) (us ++ [(0x0B, 0)]) rfTurntable ++
    (hold.filter fun h => decide (t.guardUs < n.maxDur h.burgee)).map fun h =>
      failAt l (tree ++ [(0x08, h.part), (0x04, h.part)] ++ (n.capUnits h.burgee).filter (Rec.takesPart full)) rfTurntable) ++
  n.flagfalls.flatMap fun f =>
    let tree := (0x0A, f.board) :: n.treeUnits f.board
    failOn l ((n.board f.board).isNone) tree rfReference ++
    failOn l ((n.board f.board).isSome && decide (n.squareCount f.board ≤ 16)) tree rfFlagfall ++
    failOn l (f.entries.isEmpty || decide (256 < f.entries.length)) [(0x0A, f.board)] rfFlagfall

/-- Cells and flows name what exists (R206; assumption 79). -/
def cellFails (n : HoistCfg) (l : List Rec) : List Fail := match n.radio with
  | none => []
  | some r =>
    failOn l ((n.partition 0).isNone) [(0x0B, 0), (0x06, 0)] rfReference ++
    failOn l (r.cells.any fun c => decide (3 < c.bDie)) [(0x0B, 0)] rfReference ++
    failOn l (r.flows.any fun f => !(r.cells.any (·.id == f.cell)) || decide (7 < f.port)) [(0x0B, 0)] rfReference ++
    (r.cells.filter fun c => decide (8 ≤ c.tx) && !((n.board c.board).any (fun b => b.part == 0 && b.tempo) && n.turntables.any (·.board == c.board))).map
      fun c => failAt l [(0x0B, 0), (0x03, c.board), (0x09, c.board)] rfReference

/-- The roles that the rack wiring allows a link (R37, R192). -/
def wiredRole (link role : Nat) : Bool :=
  role == 0 || (if link < 42 then role == (if link % 14 < 7 then 1 else 2) else if link < 57 then role == 3 else if link < 64 then role == 4 else role == 5)

/-- LINK and ROUTE (R37). -/
def linkFails (n : HoistCfg) (l : List Rec) : List Fail :=
  failOn l (n.links.any (fun e => decide (71 < e.link) || !wiredRole e.link e.role) || !(n.links.map (·.link)).Nodup) [(0x0E, 0)] rfLink ++
  match n.route with
  | none => []
  | some r => failOn l (decide (1024 < r.entries.length) || r.entries.any fun e => decide (1023 < e.1) || (bitList 72 e.2).any fun i =>
      !(n.links.any fun k => k.link == i && decide (1 ≤ k.role) && decide (k.role ≤ 4))) [(0x0C, 0), (0x0E, 0)] rfLink

def State.structureFails (s : State) (full : Bool) (n : HoistCfg) (l : List Rec) : List Fail :=
  s.mapFails n l ++ n.boards.flatMap (s.boardFails n l) ++ sharedSquareFails n l ++ s.refFails n l ++ burgeeFails n l ++ tableFails full n l ++ cellFails n l ++ linkFails n l

-- ───────────────────────── step 7: over-commitment

/-- The pairs of a list that clash. -/
def clashes {α : Type} (clash : α → α → Bool) (f : α → α → Fail) (l : List α) : List Fail :=
  (List.range l.length).flatMap fun i => (List.range i).filterMap fun j => match l[i]?, l[j]? with
    | some a, some b => if clash a b then some (f a b) else none
    | _, _ => none

/-- Shares (R29). -/
def shareFails (n : HoistCfg) (l : List Rec) : List Fail :=
  clashes (fun (a b : Share) => a.sq == b.sq && a.slot == b.slot) (fun a b => failAt l [(0x04, a.part), (0x04, b.part)] rfContexts) n.shares ++
  clashes (fun (a b : Share) => a.sq == b.sq && cover a.first a.blocks b.first b.blocks) (fun a b => failAt l [(0x04, a.part), (0x04, b.part)] rfScratch) n.shares ++
  (n.shares.filter fun h => decide (128 < h.first + h.blocks)).map fun h => failAt l [(0x04, h.part)] rfScratch

/-- Regions (R30, R127, R295). -/
def regionFails (n : HoistCfg) (l : List Rec) : List Fail :=
  clashes (fun (a b : Region) => (a.mask &&& b.mask) != 0 && cover a.first a.units b.first b.units)
    (fun a b => failAt l [(0x05, a.part), (0x05, b.part)] rfRegion) n.regions ++
  (n.regions.filter fun r => decide (72 < r.first + r.units) || r.mask == 0 || (r.mode == 0 && popcount 6 r.mask != 1) ||
    (r.mode == 2 && r.mask != 63)).map (fun r => failAt l [(0x05, r.part)] rfRegion) ++
  (let w := n.regions.filter (·.watchOk)
   failOn l (decide (16 < (w.map fun r => popcount 6 r.mask * r.units).sum)) (w.map fun r => (0x05, r.part)) rfRegion) ++
  (n.leases.filter fun e => decide (4096 < ((n.leases.filter (·.burgee == e.burgee)).map (·.sizeGib)).sum)).map (fun e => failAt l [(0x0F, e.part)] rfRegion) ++
  (let h := n.regions.filter fun r => r.part == 0 && r.harq
   failOn l (n.radio.isSome && (h.length != 1 || (h.map fun r => popcount 6 r.mask * r.units).sum != 24)) [(0x05, 0), (0x0B, 0)] rfHarq)

/-- Regulators (R32, R275). -/
def regulatorFails (n : HoistCfg) (l : List Rec) : List Fail :=
  let all := n.regulators.map fun r => (0x07, r.part)
  let sum := fun (f : Regulator → Nat) => (n.regulators.map f).sum
  clashes (fun (a b : Regulator) => (a.channels &&& b.channels) != 0 && (a.slots &&& b.slots) != 0) (fun a b => failAt l [(0x07, a.part), (0x07, b.part)] rfSlots) n.regulators ++
  (n.regulators.filter fun r => bits r.slots 63 62 != 0).map (fun r => failAt l [(0x07, r.part)] rfSlots) ++
  (n.regulators.filter fun r => (r.towerCeil != 0 && decide (r.towerCeil < r.towerFloor)) || (r.fabricCeil != 0 && decide (r.fabricCeil < r.fabricFloor)) ||
    (r.hostCeil != 0 && decide (r.hostCeil < r.hostFloor))).map (fun r => failAt l [(0x07, r.part)] rfFloor) ++
  failOn l (decide (5580000 < sum (·.towerFloor)) || decide (2694400 < sum (·.fabricFloor)) || decide (1024000 < sum (·.hostFloor))) all rfFloor

/-- Cell units of a carrier (R204, R205); none for an antenna count that the device does not take. -/
def cellUnits (c : CellRec) : Option Nat :=
  let a := match max c.tx c.rx with
    | 1 => 2 | 2 => 2 | 4 => 2 | 8 => 3 | 16 => 4 | 32 => 6 | 64 => 8
    | _ => 0
  if a = 0 ∨ !([1, 2, 4, 8, 16, 32, 64].contains (min c.tx c.rx)) then none else some (max 1 (ceilDiv (c.bwMhz * a) 200))

/-- Mantissa widths (R238, R239). -/
def compWidths : List Nat := [0, 6, 7, 8, 9, 10, 12, 14]

/-- Cells (R36, R204, R216, R239): units, and boards of partition 0. -/
def unitFails (n : HoistCfg) (l : List Rec) : List Fail := match n.radio with
  | none => []
  | some r =>
    let sum := fun (p : CellRec → Bool) => ((r.cells.filter p).map (·.units)).sum
    (r.cells.filter fun c => c.board != 0 && ((n.board c.board).map (·.part)) != some 0).map (fun c => failAt l [(0x0B, 0), (0x03, c.board)] rfReference) ++
    failOn l (r.cells.any fun c => cellUnits c != some c.units || (c.split == 2 && decide (8 ≤ c.tx))) [(0x0B, 0)] rfRadio ++
    failOn l (decide (128 < sum fun _ => true) || decide (32 < sum fun c => c.split == 2) || (List.range 4).any fun d => decide (32 < sum fun c => c.bDie == d))
      [(0x0B, 0)] rfRadio ++
    failOn l (r.flows.any fun f => !compWidths.contains f.comp) [(0x0B, 0)] rfRadio

/-- The pennant of a device that runs a configuration (R332, R333). -/
def State.pennantOf (s : State) (n : HoistCfg) : Nat :=
  s.ident.numlib.toNat * 2 ^ 32 + n.device.accum % 16 * 2 ^ 28 + n.device.shapePolicy % 16 * 2 ^ 24 + s.numSquares % 256 * 2 ^ 16 + s.ident.vtab.toNat * 2 ^ 8 +
    s.ident.stepping.toNat

/-- Energy reserves against the allowance that the host had written when verification began, event rates and the pennant (R39, R391). Settings of the
DEVICE record that the pennant carries take part in its break (R332). -/
def State.budgetFails (s : State) (full : Bool) (n : HoistCfg) (l : List Rec) : List Fail :=
  failOn l (decide (min 15000 s.hoist.allow < n.power.radioMj + (n.power.reserves.map (·.2)).sum)) [(0x10, 0)] rfEnergy ++
  failOn l (n.elogRates.any fun e => e.rate == 0 || severity e.code == some 3) [(0x11, 0)] rfElogRate ++
  match n.pennant with
  | none => []
  | some (q, m) =>
    let off := (s.pennantOf n ^^^ q.toNat) &&& m.toNat
    failOn l (off != 0) ((0x12, 0) :: if full && bits off 31 24 != 0 then [(0x01, 0)] else []) rfPennant

def State.commitFails (s : State) (full : Bool) (n : HoistCfg) (l : List Rec) : List Fail :=
  shareFails n l ++ regionFails n l ++ regulatorFails n l ++ unitFails n l ++ s.budgetFails full n l

-- ───────────────────────── the whole of R42

/-- The first of several steps that fails, with what it reports. -/
def firstStep : List (List Fail) → Option Fail
  | [] => none
  | l :: t => match firstFail l with
    | some f => some f
    | none => firstStep t

/-- What verification answers: the failure, or the image's kind and the configuration that results. -/
inductive Verdict where
  | refused (index code : Nat)
  | passed (full : Bool) (cfg : HoistCfg) (gen : Nat) (recs : List Rec)

/-- The checks of R42 in order, on the image in the hoist buffer. -/
def State.verify (s : State) : Verdict :=
  let im := s.hoist.image
  if mib * 2 < im.length ∨ im.length % 16 ≠ 0 then .refused noIndex rfSize
  else if s.hoist.bufPoison then .refused noIndex rfPoison
  else
    let x := imageRecs im
    match x.2 with
    | some i => .refused i rfFormat
    | none =>
      let l := x.1
      let d := l.headD { index := 0, bytes := [] }
      let full := d.f 16 1 == 1
      let step2 := l.flatMap Rec.form ++ orderFails full (if full then [] else s.cfg.partitions.map (·.id)) (s.cfg.regulators.map (·.part)) l
      match firstFail step2 with
      | some f => .refused f.1 f.2
      | none =>
        let n := HoistCfg.merge s.ident.part full s.cfg l
        match firstStep [failIf (!s.signed l) (l.length - 1) rfSignature, s.bindFails d full, s.stateFails d full n l, s.structureFails full n l, s.commitFails full n l] with
        | some f => .refused f.1 f.2
        | none => .passed full n (d.f 32 8) l

end Sys2Proof.Machine
end

