-- ==== Sys2Proof/Machine/Links.lean ====
section
/-! DEFINITION. Sereb links: flits, link states, the spare engine, margins (R182 to R202). -/

namespace Sys2Proof.Machine

/-- The entry of a link (R37), and its role; 0 where no LINK entry names it. -/
def State.linkRec (s : State) (l : Nat) : Option LinkRec := s.cfg.links.find? (·.link == l)
def State.role (s : State) (l : Nat) : Nat := ((s.linkRec l).map (·.role)).getD 0

/-- The link may probe and answer: it has a role of 1 to 4, is not fenced, and the lasers are not shut off (R187, R189, R190). -/
def State.mayLight (s : State) (l : Nat) : Bool :=
  decide (1 ≤ s.role l) && decide (s.role l ≤ 4) && !s.pwr.lasersOff && (s.link l).fencedAt.isNone

-- ───────────────────────── flits (R138, R182 to R185)

/-- Refuse a flit: the next flit sent carries NAK (R184). Only the flit that is due counts toward its eight refusals, the last of which takes the link out of
UP. -/
def refuseFlit (l : Nat) (due : Bool) (s : State) : State :=
  let k := s.link l
  let k := { k with nakDue := true, refusals := if due then k.refusals + 1 else k.refusals }
  let s := s.setLink l k
  if 8 ≤ k.refusals then leaveUp l .down downRefusals s else s

/-- Accept a flit: what it acknowledges and the credits that it returns are taken, and its granules go into the receive buffers (R184, R185). -/
def acceptFlit (l : Nat) (flit : Flit) (s : State) : State :=
  let k := s.link l
  let ack := fieldAt flit.ctl 2 2
  let freed := (List.range 4).map fun v => fieldAt flit.ctl (12 + 2 * v) 2
  let k := { k with
    fseq := k.fseq + 1, refusals := 0, badSyn := []
    credits := (List.range 4).map fun v => min (linkBuffers.getD v 0) (k.credits.getD v 0 + freed.getD v 0) }
  s.setLink l ((k.takeAck (BitVec.ofNat 12 ack) (bit ack 15)).receive (flitGranules flit))

/-- Slots of a flit whose granule has a syndrome that is not zero (R138). -/
def badSlots (flit : Flit) : List (Nat × BitVec 32) :=
  (bitList 16 (fieldAt flit.ctl 4 2)).filterMap fun i => match flit.slots[i]? with
    | some g => if Code.residue g = 0 then none else some (i, Code.residue g)
    | none => none

/-- Receivers of the die-to-die links (R12, R13; assumption 139): numbers 72 and 73 are the hub's and the die's end of the link to C00, and so on for C00 to C19, B0 to
B3 and M0 to M2. -/
def dieReceiver (l : Nat) : Bool := decide (72 ≤ l) && decide (l < 72 + 2 * 27)

/-- A flit on a die-to-die link (R13, R137, R138): a granule whose syndrome is not zero has it sent once more, and then goes on as it came, counted. What the messages
of these links do is the effect of the commands that send them (assumption 139). -/
def dieFlit (l : Nat) (flit : Flit) (s : State) : State :=
  let k := Assoc.get s.hub.dieRx l {}
  let put := fun (k : DieRx) (s : State) => { s with hub := { s.hub with dieRx := Assoc.set s.hub.dieRx l k } }
  let syn := badSlots flit
  if BitVec.ofNat 16 (fieldAt flit.ctl 30 2) ≠ crc16 (fitTo 30 flit.ctl) ∨ BitVec.ofNat 12 (fieldAt flit.ctl 0 2) ≠ k.fseq + 1 then emit (.dieNak l) s
  else if k.badSyn.isEmpty ∧ ¬ syn.isEmpty then emit (.dieNak l) (put { k with badSyn := syn } s)
  else
    let s := forAll k.badSyn (fun e s => countHub (if syn.contains e then 0 else 1) s) s
    emit (.dieForward l (flitGranules flit)) (put { fseq := k.fseq + 1, badSyn := [] } s)

/-- FLIT_RECEIVE (R138, R182 to R185, R203): accepted or refused. `badCw` codewords of it were marked uncorrectable by the FEC. A slot with the same syndrome on
its second receipt counts as an upstream error, another as a link error, and the granule goes on as it came. -/
def execFlitReceive (l : Nat) (flit : Flit) (badCw : Nat) (s : State) : Result :=
  let k := s.link l
  if dieReceiver l then .next (dieFlit l flit s)
  else if 72 ≤ l ∨ k.st ≠ .up then impossible "the link is not UP"
  else if badCw ≠ 0 then .next (refuseFlit l true (s.setLink l { k with uncorr := satAdd 32 k.uncorr badCw }))
  else if BitVec.ofNat 16 (fieldAt flit.ctl 30 2) ≠ crc16 (fitTo 30 flit.ctl) then .next (refuseFlit l true s)
  else if BitVec.ofNat 12 (fieldAt flit.ctl 0 2) ≠ k.fseq + 1 then .next (refuseFlit l false s)
  else
    let syn := badSlots flit
    if k.badSyn.isEmpty ∧ ¬ syn.isEmpty then .next (refuseFlit l true (s.setLink l { k with badSyn := syn }))
    else
      let s := forAll k.badSyn (fun e s => countHub (if syn.contains e then 0 else 1) s) s
      .next (acceptFlit l flit s)

-- ───────────────────────── bring-up (R187, R190, R193)

/-- Probe starts on a link are at least 100 s apart (R190). -/
def State.probeDue (s : State) (l : Nat) : Bool := match (s.link l).lastProbe with
  | some t => decide (t + 100000000000 ≤ s.up)
  | none => true

/-- Start a probe where R190 allows one. -/
def probe (l : Nat) (s : State) : State := s.setLink l { s.link l with st := .probe, stateAt := s.up, lastProbe := some s.up }

/-- LINK_PROBE (R187, R190). -/
def execLinkProbe (l : Nat) (s : State) : Result :=
  if ((s.link l).st ≠ .down ∧ (s.link l).st ≠ .off) ∨ !s.mayLight l ∨ !s.probeDue l then impossible "the link may not probe"
  else .next (probe l s)

/-- PROBE_TIMEOUT (R187). -/
def execProbeTimeout (l : Nat) (s : State) : Result :=
  if (s.link l).st ≠ .probe ∨ s.up < (s.link l).stateAt + 2000000 then impossible "no probe has run out"
  else .next (enterLink l .down s)

/-- LIGHT_DETECTED (R187). -/
def execLightDetected (l : Nat) (s : State) : Result :=
  if (s.link l).st ≠ .down ∨ !s.mayLight l then impossible "the link does not answer"
  else .next (enterLink l .answer s)

/-- FAR_END_RETURN (R187, R203). -/
def execFarEndReturn (l : Nat) (s : State) : Result :=
  if (s.link l).st ≠ .probe ∧ (s.link l).st ≠ .answer then impossible "the link does not wait for a return"
  else .next (enterLink l .train s)

/-- LINK_TRAINING_DONE (R187, R193): in VERIFY the device sends its serial number, fabric ID and link number. -/
def execLinkTrainingDone (l : Nat) (s : State) : Result :=
  if (s.link l).st ≠ .train then impossible "the link does not train"
  else .next (emit (.linkId l s.ident.serial s.deviceId) (enterLink l .verify s))

/-- Logical links of an engine. -/
def engineLinks (e : Nat) : List Nat := (List.range 8).map (8 * e + ·)

/-- The link has a role of 1 to 4. -/
def State.hasRole (s : State) (l : Nat) : Bool := decide (1 ≤ s.role l) && decide (s.role l ≤ 4)

/-- A link's part in a failover is over: it is UP on its new carrier, or has failed there. With the last of the engine's links the failover is complete and
is recorded with the time taken (R199, R202, R203). -/
def endFailover (l : Nat) (s : State) : State :=
  let s := s.setLink l { s.link l with failover := false }
  match s.pwr.spareAt with
  | none => s
  | some t =>
    let e := s.pwr.spareSel
    if (engineLinks e).any fun k => (s.link k).failover && s.hasRole k then s
    else record 0x2806 (dieOptical e) noUnit (item e ++ item (s.up - t)) { s with pwr := { s.pwr with spareAt := none } }

/-- LINK_TRAINING_FAILED (R187): not done within 3 ms; the eighth failure within 60 s sends the link to FAILED. -/
def execLinkTrainingFailed (l : Nat) (s : State) : Result :=
  let k := s.link l
  if k.st ≠ .train ∨ s.up < k.stateAt + 3000000 then impossible "the training has not run out"
  else
    let f := s.up :: k.fails.filter fun t => decide (s.up < t + 60000000000)
    let s := s.setLink l { k with fails := f }
    .next (if 8 ≤ f.length then endFailover l (enterLink l .failed s) else enterLink l .down s)

/-- A device with a full hoist in force that is no member asks to join over a link that reaches UP (R410, R417). -/
def sendJoin (l : Nat) (s : State) : State :=
  if s.pwr.state = .active ∧ s.muster.st ≠ .member ∧ s.muster.st ≠ .benched then
    sendMusterOn l 0x54 [s.mram mramBootCount 4, s.ident.serial.toNat, if s.muster.rejoin then 1 else 0] s
  else s

/-- LINK_IDENTITY (R187, R193, R202). -/
def execLinkIdentity (l : Nat) (serial : BitVec 64) (device peerLink : Nat) (s : State) : Result :=
  if (s.link l).st ≠ .verify then impossible "the link does not verify"
  else match s.linkRec l with
    | none => impossible "the link has no entry"
    | some e =>
      if device = e.peer ∧ peerLink = e.peerLink then
        let s := enterLink l .up (s.setLink l { (s.link l).fresh with flitDue := s.up * 100, downAt := none })
        .next (sendJoin l (endFailover l (record 0x2801 (s.linkDie l) l [] s)))
      else
        let body := item s.ident.serial.toNat ++ item s.deviceId ++ item l ++ item serial.toNat ++ item device ++ item peerLink
        .next (endFailover l (record 0x2802 (s.linkDie l) l body (enterLink l .failed s)))

/-- AUTOMATIC_POWER_REDUCTION (R187, R189, R197). -/
def execAutomaticPowerReduction (l : Nat) (s : State) : Result :=
  let k := s.link l
  if !([LinkSt.probe, .answer, .train, .verify, .up].contains k.st) then impossible "the link is dark"
  else .next (darken l .down downLight (s.setLink l { k with apr := satAdd 32 k.apr 1 }))

-- ───────────────────────── the spare engine (R198, R199)

/-- The logical links that a physical engine carries (R199): O8 those of the engine that it stands for. -/
def State.carried (s : State) (e : Nat) : List Nat :=
  if e = 8 then (if s.pwr.spareEn then engineLinks s.pwr.spareSel else [])
  else if s.pwr.spareEn ∧ s.pwr.spareSel = e then [] else engineLinks e

/-- Three links of the engine have entered DOWN or FAILED from UP within 1 s with their light present (R199). -/
def State.engineFalls (s : State) (e : Nat) : Bool :=
  decide (3 ≤ ((s.carried e).filter fun l => match (s.link l).downAt with
    | some t => decide (s.up < t + 1000000000)
    | none => false).length)

/-- ENGINE_FAILOVER (R199, R202, R451): O8 takes one engine over; while it is in use another engine's failure, or its own, leaves the links masked. `us` is how
long ago the engine failed, in microseconds: the time taken counts from there. -/
def execEngineFailover (engine : Nat) (fatal : Bool) (us : Nat) (s : State) : Result :=
  let l := s.carried engine
  if 9 ≤ engine ∨ l.isEmpty ∨ (!fatal ∧ !s.engineFalls engine) then impossible "the engine does not fail over"
  else
    let s := forAll l (fun l s => darken l .failed downFailover s) s
    let s := forAll l (fun l s => s.setLink l { s.link l with downAt := none }) s
    if s.pwr.spareEn then .next (record 0x2807 (dieOptical engine) noUnit [] (forAll l endFailover s))
    else
      let s := forAll l (fun l s => s.setLink l { s.link l with carrier := some (64 + l % 8), failover := true }) s
      .next ({ s with pwr := { s.pwr with spareSel := engine, spareEn := true, spareAt := some (s.up - us * 1000) } }.setMram mramO8 1 (8 + engine))

/-- SPARE_SELECTOR_SETTLED (R187, R190, R198, R199): the links that O8 carries begin their bring-up, at once where R190 allows; one without a role of 1 to 4 is
OFF. -/
def execSpareSelectorSettled (s : State) : Result :=
  if !s.pwr.spareEn then impossible "the selector is not driven"
  else
    let l := (engineLinks s.pwr.spareSel).filter fun l => (s.link l).failover && (s.link l).st == .failed
    if l.isEmpty then impossible "no link waits for the selector"
    else .next (forAll l (fun l s =>
      if !s.hasRole l then endFailover l (enterLink l .off s)
      else if s.mayLight l && s.probeDue l then probe l s else enterLink l .down s) s)

-- ───────────────────────── margins (R200 to R202)

/-- Since when each wavelength has met a condition. -/
def since (up : Nat) (old : List (Nat × Nat)) (low : List Nat) : List (Nat × Nat) := low.map fun w => (w, Assoc.get old w up)

/-- Thirty days in ns, and 1,000 hours. -/
def days30 : Nat := 2592000000000000
def hours1000 : Int := 3600000000000000

/-- The slope of a least-squares fit in change per 1,000 hours, as a fraction: numerator and denominator. Points are (uptime in ns, value). -/
def slope (l : List (Nat × Nat)) : Int × Int :=
  let n : Int := l.length
  let st := (l.map fun p => (p.1 : Int)).sum
  let sb := (l.map fun p => (p.2 : Int)).sum
  let stb := (l.map fun p => (p.1 : Int) * p.2).sum
  let stt := (l.map fun p => (p.1 : Int) * p.1).sum
  ((n * stb - st * sb) * hours1000, n * stt - st * st)

/-- BIAS_TREND (R200, R201): the integer below or above the slope, whichever a free value says; where the measurements have no slope, or the field cannot hold
it, a free value (assumption 132). -/
def biasTrend (l : List (Nat × Nat)) (free : Nat) : Int :=
  let q := slope l
  let v := q.1 / q.2
  let x := if q.2 = 0 ∨ q.1 % q.2 = 0 then v else v + free % 2
  if q.2 = 0 ∨ x < -32768 ∨ 32767 < x then toSigned 16 free else x

/-- LINK_MARGIN_MEASURE (R200, R202): once per second; a bias trend above 10 % of the bias is recorded. -/
def execLinkMarginMeasure (l : Nat) (raw : List WaveRaw) (s : State) : Result :=
  let k := s.link l
  if k.st ≠ .up ∨ raw.length ≠ 4 ∨ (k.biasLog.head?.any fun e => decide (s.up < e.1 + 1000000000)) then impossible "no measurement is due"
  else
    let log := (s.up, raw.map (·.bias)) :: k.biasLog.filter fun e => decide (s.up ≤ e.1 + days30)
    let x := drawFree s
    let s := x.2
    let waves := ((List.range 4).zip raw).map fun e => ({
      rxPower := e.2.rxPower, margin := e.2.margin, bias := e.2.bias, preFec := e.2.preFec
      biasTrend := biasTrend (log.map fun p => (p.1, p.2.getD e.1 0)) (x.1 / 65536 ^ e.1) } : WaveMeasure)
    let which := fun (p : WaveMeasure → Bool) => (List.range 4).filter fun w => match waves[w]? with
      | some m => p m
      | none => false
    let s := s.setLink l { k with
      waves := waves, biasLog := log, lowMargin := since s.up k.lowMargin (which fun m => decide (m.margin < 200))
      lowFec := since s.up k.lowFec (which fun m => decide (m.preFec < 500)) }
    .next (forAll (which fun m => decide ((m.bias : Int) < 10 * m.biasTrend)) (fun _ s => record 0x2805 (s.linkDie l) l [] s) s)

/-- A wavelength has been out of its margin for `ns`: the record is written, and the time begins anew. -/
def lowFor (l wave code ns : Nat) (get : Link → List (Nat × Nat)) (put : Link → List (Nat × Nat) → Link) (s : State) : Result :=
  match Assoc.find (get (s.link l)) wave with
  | some t =>
    if (s.link l).st ≠ .up ∨ s.up < t + ns then impossible "the time has not passed"
    else .next (record code (s.linkDie l) l [] (s.setLink l (put (s.link l) (Assoc.set (get (s.link l)) wave s.up))))
  | none => impossible "the wavelength is in its margin"

/-- LINK_MARGIN (R202): below 2.0 dB for 60 s. -/
def execLinkMargin (l wave : Nat) (s : State) : Result :=
  lowFor l wave 0x2803 60000000000 (·.lowMargin) (fun k m => { k with lowMargin := m }) s

/-- LINK_PRE_FEC (R202): below 500 for 10 s. -/
def execLinkPreFec (l wave : Nat) (s : State) : Result :=
  lowFor l wave 0x2804 10000000000 (·.lowFec) (fun k m => { k with lowFec := m }) s

def LinkSt.code : LinkSt → Nat
  | .off => 0
  | .down => 1
  | .probe => 2
  | .answer => 3
  | .train => 4
  | .verify => 5
  | .up => 6
  | .failed => 7

/-- One record of LINK_STATUS (R201). -/
def State.linkStatus (s : State) (l : Nat) : List Byte :=
  let k := s.link l
  let e := s.linkRec l
  leBytes 1 k.st.code ++ leBytes 1 (s.role l) ++ leBytes 2 ((e.map (·.peer)).getD 0) ++ leBytes 1 ((e.map (·.peerLink)).getD 0) ++
    leBytes 1 (s.carrier l) ++ leBytes 2 0 ++ leBytes 4 k.retry ++ leBytes 4 k.uncorr ++ leBytes 4 k.apr ++ leBytes 4 0 ++
    (List.range 4).flatMap fun w => match k.waves[w]? with
      | some m => leBytes 2 (ofSigned 16 m.rxPower) ++ leBytes 2 (ofSigned 16 m.margin) ++ leBytes 2 m.bias ++
          leBytes 2 (ofSigned 16 m.biasTrend) ++ leBytes 2 m.preFec
      | none => leBytes 10 0

/-- LINK_STATUS (R201). -/
def execLinkStatus (p : Pasid) (len : Nat) (s : State) : Result :=
  mailboxRead p 0x0002 len (fun s => (List.range 72).flatMap s.linkStatus) s

end Sys2Proof.Machine
end

