-- ==== Sys2Proof/Machine/Hoist.lean ====
section
/-! DEFINITION. The hoist operation (R40 to R52): submission, hold, switch and release, CLEAR, and what a new configuration changes in the
device (R190, R210, R338, R391, R406, R447, R458). -/

namespace Sys2Proof.Machine

/-- A hoist operation is in progress (R52). -/
def State.hoistBusy (s : State) : Bool := s.hoist.clearing || [.copying, .verifying, .staging].contains s.hoist.stat

/-- The records of the image in the hoist buffer. -/
def State.hoistRecs (s : State) : List Rec := (imageRecs s.hoist.image).1

/-- The operation ends refused (R53): status, event record and the manager's hoist vector. -/
def refuseHoist (index code : Nat) (s : State) : State :=
  fire 0 (record 0x1011 dieHub noUnit (leBytes 2 code ++ leBytes 2 index) { s with hoist := { s.hoist with stat := .refused, code := code, index := index } })

/-- A LOAD or CLEAR during another operation: refused with BUSY, while the first goes on (R52, R321). -/
def refuseBusy (s : State) : State :=
  record 0x1011 dieHub noUnit (leBytes 2 rfBusy ++ leBytes 2 noIndex) { s with hoist := { s.hoist with busySeen := true } }

/-- LOAD (R40, R41, R42). -/
def execLoad (p : Pasid) (s : State) : Result :=
  managerWrite p (fun s =>
    if s.hoistBusy then .next (refuseBusy s)
    else if s.sec.lc ≠ .provisioned ∧ s.sec.lc ≠ .deployed then .next (refuseHoist noIndex rfState s)
    else .next { s with hoist := { s.hoist with stat := .copying, code := 0, index := 0, image := [], bufPoison := false } }) s

/-- HOIST_COPY_DONE (R39, R41): the buffer holds the image, and verification begins with the allowance that the host has written. -/
def execHoistCopyDone (bytes : List Byte) (poison : List Nat) (s : State) : Result :=
  if s.hoist.stat ≠ .copying ∨ bytes.length ≠ s.hoist.len.toNat then impossible "no image is copied"
  else .next { s with hoist := { s.hoist with stat := .verifying, image := bytes, bufPoison := !poison.isEmpty, allow := s.energy.allowReg } }

-- ───────────────────────── gating (R447)

/-- A configuration gives a physical square work: it carries a logical square on which there is a share, and no entry gates it. -/
def HoistCfg.powers (n : HoistCfg) (part : Part) (count p : Nat) : Bool :=
  !n.gates.contains p && (List.range count).any fun sq => n.physOf part sq == p && n.shares.any (·.sq == sq)

/-- A square is powered up with its scratchpad and queue memory wiped, or gated with its state lost. -/
def freshSquare (p : Nat) (gated : Bool) (s : State) : State :=
  let s := wipePad p 0 padSize (s.setSquare p { gated := gated })
  { s with ctxs := Assoc.dropRange s.ctxs (ctxKey p 0) (ctxKey p 8) }

/-- The squares without power, or with power for a telltale alone, that a configuration needs (R447). -/
def State.toUngate (s : State) (n : HoistCfg) : List Nat :=
  let tested := fun p => (s.muster.telltale.map (·.psq)) == some p && !s.cfg.powers s.ident.part s.numSquares p
  (List.range 180).filter fun p => ((s.square p).gated || tested p) && n.powers s.ident.part s.numSquares p

/-- Power up the squares that a configuration needs (R447); one that a telltale has ungated is wiped too, and the telltale is cancelled (R455). -/
def ungateFor (n : HoistCfg) (s : State) : State :=
  let l := s.toUngate n
  let s := forAll l (fun p s => freshSquare p false (cancelTelltale p s)) s
  { s with hoist := { s.hoist with ungated := l } }

-- ───────────────────────── what a new configuration changes

/-- The squares after a change of configuration: a square whose logical square or power changes starts anew with wiped shares (R338, R447); on
another, share blocks that no entry of the same slot and burgee keeps are wiped, and a slot that changes hands starts anew (R60, R406). -/
def switchSquare (old n : HoistCfg) (p : Nat) (s : State) : State :=
  let sqs := List.range s.numSquares
  let before := sqs.find? fun sq => old.physOf s.ident.part sq == p
  let after := sqs.find? fun sq => n.physOf s.ident.part sq == p
  let on := n.powers s.ident.part s.numSquares p
  if before ≠ after ∨ (s.square p).gated = on then freshSquare p (!on) s
  else match after with
    | none => s
    | some sq => forAll (old.shares.filter (·.sq == sq)) (fun h s =>
        match n.shares.find? fun x => x.sq == sq && x.slot == h.slot && x.burgee == h.burgee with
        | none =>
          let s := wipePad p h.base h.size s
          { s with ctxs := Assoc.erase s.ctxs (ctxKey p h.slot) }
        | some x =>
          let s := if h.base < x.base then wipePad p h.base (min h.size (x.base - h.base)) s else s
          if x.base + x.size < h.base + h.size then
            let lo := max h.base (x.base + x.size)
            wipePad p lo (h.base + h.size - lo) s
          else s) s

/-- The units that a region gives up, as 72 t + u (R406). -/
def freedUnits (old n : HoistCfg) : List Nat :=
  old.regions.flatMap fun r => (List.range 432).filter fun w => r.holds w && !(n.regions.any fun x => x.part == r.part && x.id == r.id && x.holds w)

/-- Wipe units of the towers. -/
def wipeUnits (l : List Nat) (s : State) : State :=
  { s with tower := l.foldl (fun m w => m.wipe (w * gib) ((w + 1) * gib)) s.tower }

/-- The state that a link takes with its new LINK entry (R187, R418): one that was OFF or FAILED stays dark until it probes, a fence is lifted, and one
without a role of 1 to 4 is OFF. -/
def Link.switched (k : Link) (lit : Bool) : LinkSt :=
  if !lit then .off else if k.st == .failed || (k.st == .off && k.fencedAt.isNone) then .off else .down

/-- A link whose LINK entry changes follows its new role (R187, R190, R202, R418); a full hoist leaves a FAILED link so. -/
def switchLink (old n : HoistCfg) (full : Bool) (l : Nat) (s : State) : State :=
  let entry : HoistCfg → Option LinkRec := fun c => c.links.find? (·.link == l)
  if entry old = entry n then s
  else
    let k := s.link l
    if full ∧ k.st = .failed then s.setLink l { k with fencedAt := none }
    else
      let s := darken l (k.switched (s.hasRole l)) downHoist s
      let s := s.setLink l { s.link l with fencedAt := none }
      if s.mayLight l && s.probeDue l then probe l s else s

/-- Cells whose entry takes effect are HOISTED; those whose entry goes are gone (R210). -/
def switchCells (old n : HoistCfg) (s : State) : State :=
  let s := { s with radio := { s.radio with cells := s.radio.cells.filter fun c => n.cells.any (·.id == c.1) } }
  let s := forAll (n.cells.filter fun c => !old.cells.contains c) (fun c s => record 0x3000 (dieBase c.bDie) noUnit [] (s.setCell c.id {})) s
  { s with radio := { s.radio with cells := s.radio.cells.map fun c =>
      (c.1, { c.2 with dirDue := true, harq := if firstSlice c.1 old.cells = firstSlice c.1 n.cells then c.2.harq else [] }) } }

/-- The bucket of a code whose rate changes (R391): full at the new values, with what is counted kept. -/
def switchBucket (n : HoistCfg) (code : Nat) (s : State) : State :=
  let old := Assoc.find s.elog.buckets code
  let b := { s with cfg := n, elog := { s.elog with buckets := [] } }.bucketOf code
  let b := match old with
    | some o => { b with count := o.count, first := o.first, last := o.last }
    | none => b
  { s with elog := { s.elog with buckets := Assoc.set s.elog.buckets code b } }

/-- Event rates that change begin anew (R391), a burst of zero with its instants counted from here. -/
def switchBuckets (old n : HoistCfg) (s : State) : State :=
  forAll ((s.elog.buckets.map (·.1) ++ n.elogRates.map (·.code)).eraseDups.filter fun c =>
    (old.elogRates.find? (·.code == c)) != (n.elogRates.find? (·.code == c))) (switchBucket n) s

/-- A configuration takes the place of the one in force. `starts` are the boards that switch to it now: their turn tables begin anew. -/
def applyCfg (full : Bool) (starts : Nat → Bool) (n : HoistCfg) (s : State) : State :=
  let old := s.cfg
  let recs := s.hoistRecs
  let has := fun t i => full || (recAt recs (t, i)).isSome
  let free := freedUnits old n
  let s := switchBuckets old n { s with cfg := n }
  let s := forAll (s.elog.buckets.map (·.1)) flushSuppressed s
  let s := forAll (List.range 180) (switchSquare old n) s
  let s := wipeUnits free (if free.isEmpty then s else restartScrub s)
  let s := { s with
    hoist := { s.hoist with wiping := s.hoist.wiping ++ free.map fun w => (w / 72, w % 72) }
    burgees := s.burgees.filter fun b => b.1 == 0 || (n.burgee b.1).isSome
    sched := { s.sched with
      lost := s.sched.lost.filter fun x => !has 0x03 x.1
      slices := s.sched.slices.filter fun x => (n.board x.board).isSome
      turns := s.sched.turns.filter fun t => (n.turntable t.1).isSome }
    hub := { s.hub with lostLeases := s.hub.lostLeases.filter fun x => !has 0x0F (x.1 / 65536) } }
  let s := forAll (n.turntables.filter fun t => starts t.board && ((old.turntable t.board) != some t || has 0x09 t.board)) (fun t s => startCycle t (s.setTurn t.board {})) s
  let s := switchCells old n s
  forAll (List.range 72) (switchLink old n full) s

/-- Partitions of boards. -/
def HoistCfg.partsOf (c : HoistCfg) (l : List Nat) : List Nat := l.filterMap fun b => (c.board b).map (·.part)

/-- A region of the staged configuration as the boards that have switched may use it (R48): one that gains units which a partition with boards still
to switch gives up keeps its old extent until then. -/
def HoistCfg.regionBut (old : HoistCfg) (parts : List Nat) (r : Region) : Option Region :=
  let givenUp := old.regions.filter fun o => parts.contains o.part && !(o.part == r.part && o.id == r.id)
  if givenUp.any fun o => (o.mask &&& r.mask) != 0 && cover o.first o.units r.first r.units then old.regions.find? fun o => o.part == r.part && o.id == r.id
  else some r

/-- A regulator likewise: slots that another partition with boards still to switch gives up are not gained yet (R48). -/
def HoistCfg.regulatorBut (old : HoistCfg) (parts : List Nat) (r : Regulator) : Option Regulator :=
  if old.regulators.any fun o => parts.contains o.part && o.part != r.part && (o.channels &&& r.channels) != 0 && (o.slots &&& r.slots) != 0 then
    old.regulators.find? (·.part == r.part)
  else some r

/-- The staged configuration, of which the boards that have switched read all that no board of `l`, which have not, still holds (R47, R48): the boards
of `l` keep their records and the shares and the map of their squares, and read the rest in `Hoist.prior`. -/
def HoistCfg.stagedBut (old n : HoistCfg) (part : Part) (l : List Nat) : HoistCfg :=
  let sqs := l.flatMap old.leaves
  let parts := old.partsOf l
  { n with
    regions := n.regions.filterMap (old.regionBut parts)
    regulators := n.regulators.filterMap (old.regulatorBut parts)
    boards := n.boards.filter (fun b => !l.contains b.id) ++ old.boards.filter fun b => l.contains b.id
    turntables := n.turntables.filter (fun t => !l.contains t.board) ++ old.turntables.filter fun t => l.contains t.board
    flagfalls := n.flagfalls.filter (fun f => !l.contains f.board) ++ old.flagfalls.filter fun f => l.contains f.board
    shares := n.shares.filter (fun h => !sqs.contains h.sq) ++ old.shares.filter fun h => sqs.contains h.sq
    map := sqs.foldl (fun m sq => if old.physOf part sq = defaultPhys part sq then Assoc.erase m sq else Assoc.set m sq (old.physOf part sq)) n.map }

-- ───────────────────────── hold, switch, release (R47)

/-- The boards that a partial hoist affects. -/
def State.affected (s : State) (n : HoistCfg) (l : List Rec) : List Nat :=
  let entries := match l.find? fun r => r.typ == 0x02 && !r.delete with
    | some r => (r.entries 32 4 (r.f 16 2)).map fun e => fieldAt e 0 1
    | none => if l.any (fun r => r.typ == 0x02) then s.remapped n else []
  (((s.cfg.boards ++ n.boards).filter fun b =>
    (l.any fun r => (scopeOf r.typ == some 2 && r.id == b.id) || (scopeOf r.typ == some 1 && r.id == b.part)) ||
      (s.cfg.leaves b.id ++ n.leaves b.id).any entries.contains).map (·.id)).eraseDups

/-- A board of the list has a command executing. -/
def State.executing (s : State) (l : List Nat) : Bool := s.sched.cmds.any fun c => c.2.stage == .launched && l.contains c.2.board

/-- Every board has switched: the new generation is in force and recorded, and dispatch resumes (R43, R47, R404). -/
def releaseHoist (s : State) : State :=
  let s := endHold s
  let h := s.hoist
  let image := Config.sha512 h.image
  let chain := if h.full then image else Config.sha512 (leBytes 64 s.sec.chain.toNat ++ leBytes 64 image.toNat)
  let s := applyCfg h.full (fun b => h.full || !h.switched.contains b) h.staged s
  let s := s.setMram mramGeneration 8 h.newGen.toNat
  let s := { s with
    gen := h.newGen
    sec := { s.sec with chain := chain }
    hoist := { s.hoist with stat := .done, code := 0, index := 0, held := [], toSwitch := [], switched := [], switching := false, prior := {}, ungated := [] } }
  let s := record 0x1010 dieHub noUnit (leBytes 8 h.newGen.toNat ++ leBytes 1 (if h.full then 1 else 2) ++ leBytes 7 0) s
  pumpSlices (fire 0 s)

/-- The switch step begins: the boards without a turn table wait for those that have one (R47). -/
def beginSwitch (s : State) : State :=
  if s.hoist.toSwitch.isEmpty then releaseHoist s else { s with hoist := { s.hoist with switching := true } }

/-- A full hoist is applied: the device is ACTIVE, its lasers may light and its reserves stand at once (R26, R44, R347). -/
def applyFull (s : State) : State :=
  let s := { s with pwr := { s.pwr with state := .active, lasersOff := false } }
  let s := releaseHoist s
  let e := s.energy
  fillPools e.deficit { s with energy := { e with power := s.cfg.power, mode := s.cfg.power.mode, budget := max e.budget s.cfg.power.radioMj } }

/-- HOIST_VERIFIED (R42, R47, R447, R459). -/
def execHoistVerified (s : State) : Result :=
  if s.hoist.stat ≠ .verifying then impossible "no image is verified"
  else match s.verify with
    | .refused i c => .next (refuseHoist i c s)
    | .passed full n gen recs =>
      let s := ungateFor n s
      let h := { s.hoist with stat := .staging, staged := n, full := full, newGen := BitVec.ofNat 64 gen, holdSince := s.up, prior := s.cfg }
      if full then .next (applyFull { s with hoist := h })
      else
        let l := s.affected n recs
        let turned := l.filter fun b => (s.cfg.turntable b).isSome
        let held := l.filter fun b => (s.cfg.turntable b).isNone
        let s := { s with hoist := { h with held := held, toSwitch := turned, switched := [], switching := false } }
        .next (if s.executing held then s else beginSwitch s)

/-- HOIST_HOLD_DRAINED (R47). -/
def execHoistHoldDrained (s : State) : Result :=
  if s.hoist.stat ≠ .staging ∨ s.hoist.clearing ∨ s.hoist.switching then impossible "no hold stands"
  else if s.executing s.hoist.held then impossible "a held board has a command executing"
  else .next (beginSwitch s)

/-- HOIST_BOARD_SWITCH (R47, R48): a turn-table board at its cycle boundary. -/
def execHoistBoardSwitch (board : Nat) (s : State) : Result :=
  let h := s.hoist
  if !h.switching ∨ !h.toSwitch.contains board then impossible "the board does not switch"
  else if (s.turnRun board).pos ≠ 0 ∨ s.up < (s.turnRun board).due then impossible "not at a cycle boundary"
  else
    let rest := h.toSwitch.filter (· != board)
    if rest.isEmpty then .next (releaseHoist s)
    else
      let s := applyCfg false (· == board) (h.prior.stagedBut h.staged s.ident.part (rest ++ h.held)) s
      .next { s with hoist := { s.hoist with toSwitch := rest, switched := h.switched ++ [board] } }

/-- HOIST_HOLD_TIMEOUT (R49, R447): abandoned after 1 s; nothing has taken effect, and the squares powered up for the image are gated again. -/
def execHoistHoldTimeout (s : State) : Result :=
  if s.hoist.stat ≠ .staging ∨ s.hoist.clearing ∨ s.hoist.switching ∨ s.up < s.hoist.holdSince + 1000000000 then impossible "the hold has not run out"
  else
    let s := forAll s.hoist.ungated (fun p s => freshSquare p true s) (endHold s)
    .next (pumpSlices (refuseHoist noIndex rfAbandoned { s with hoist := { s.hoist with held := [], toSwitch := [], prior := {}, ungated := [] } }))

/-- HOIST_REGION_WIPE_DONE (R406): the freed units and granules are wiped. They read as the wipe leaves them from the switch on, since a new owner's
access waits until then. -/
def execHoistRegionWipeDone (s : State) : Result :=
  if s.hoist.wiping.isEmpty then impossible "nothing is wiped" else .next { s with hoist := { s.hoist with wiping := [] } }

-- ───────────────────────── CLEAR (R44)

/-- CLEAR: accepted only in ACTIVE, with every burgee but 0 FREE and every cell stopped. -/
def execClear (p : Pasid) (s : State) : Result :=
  managerWrite p (fun s =>
    if s.hoistBusy then .next (refuseBusy s)
    else if s.pwr.state ≠ .active ∨ s.cfg.burgees.any (fun b => (s.burgee b.burgee).state != .free) ∨ s.radioRunning then .next (refuseHoist noIndex rfState s)
    else .next (restartScrub { s with hoist := { s.hoist with stat := .staging, clearing := true, code := 0, index := 0 } })) s

/-- CLEAR_WIPE_DONE (R44, R404): scratchpads and towers hold the all-zero codeword, no configuration is in force and the device is IDLE. -/
def execClearWipeDone (s : State) : Result :=
  if !s.hoist.clearing then impossible "no CLEAR runs"
  else
    let s := forAll (List.range 72) (fun l s => if s.role l = 0 ∨ [LinkSt.off, .failed].contains (s.link l).st then s else darken l .down downHoist s) s
    let s := { s with
      cfg := {}
      gen := 0
      tower := {}
      scratch := {}
      squares := []
      ctxs := []
      burgees := s.burgees.filter (·.1 == 0)
      radio := { s.radio with cells := [] }
      sched := { s.sched with cmds := [], slices := [], turns := [], lost := [] }
      hub := { s.hub with lostLeases := [] }
      sec := { s.sec with chain := 0 }
      muster := { s.muster with members := [], st := .notAdmitted }
      pwr := { s.pwr with state := .idle, lasersOff := true }
      hoist := { s.hoist with stat := .done, clearing := false, wiping := [] } }
    .next (fire 0 (record 0x1010 dieHub noUnit (leBytes 8 0 ++ leBytes 1 3 ++ leBytes 7 0) s))

end Sys2Proof.Machine
end

