-- ==== Sys2Proof/Machine/HostRegs.lean ====
section
/-! DEFINITION. The register map (R8, R305, R306, R317 to R323): what the registers read as. -/

namespace Sys2Proof.Machine

-- ───────────────────────── reads

/-- Fields of a register as (bit offset, value). -/
def pack (l : List (Nat × Nat)) : Nat := (l.map fun f => f.2 * 2 ^ f.1).sum

def flag (b : Bool) : Nat := if b then 1 else 0

def HoistStat.code : HoistStat → Nat
  | .none => 0
  | .copying => 1
  | .verifying => 2
  | .staging => 3
  | .done => 4
  | .refused => 5

def MboxSt.code : MboxSt → Nat
  | .idle => 0
  | .running => 1
  | .done => 2

def Part.code : Part → Nat
  | .a40c => 0
  | .a40e => 1
  | .b40c => 2

/-- BAR0: manager registers (R319), the MSI-X table and the pending bits (R305). -/
def State.managerReg (s : State) (off : Nat) : Nat :=
  if 0x8000 ≤ off ∧ off < 0x10000 then
    let e := Assoc.get s.msix ((off - 0x8000) / 16) {}
    if off % 16 = 0 then e.addr.toNat else pack [(0, e.data.toNat), (32, flag e.masked)]
  else if 0x10000 ≤ off ∧ off < 0x10100 then
    pack ((List.range 64).map fun i => (i, flag (Assoc.get s.msix ((off - 0x10000) * 8 + i) {}).pend))
  else match off with
  | 0x000 => pack [(32, s.numSquares), (24, s.ident.part.code), (0, s.ident.stepping.toNat)]
  | 0x008 => s.ident.serial.toNat
  | 0x010 => pack [(16, s.pwr.modules), (8, s.sec.lc.code), (0, s.powerCode)]
  | 0x018 => s.gen.toNat
  | 0x028 => pack [(16, s.sched.mgrBurgee), (8, s.sched.mgrStatus), (7, flag (s.burgee s.sched.mgrBurgee).opPending), (0, (s.burgee s.sched.mgrBurgee).state.code)]
  | 0x030 => pack [(32, s.sched.bindErr), (0, s.sched.lastPasid.toNat)]
  | 0x038 => s.irqStat.toNat
  | _ => 0

/-- BAR2: a burgee's page (R320). -/
def State.pageReg (s : State) (b off : Nat) : Nat :=
  let g := s.burgee b
  let declared := b == 0 || (s.cfg.burgee b).isSome
  if 0x100 ≤ off ∧ off < 0x150 then g.totals.getD ((off - 0x100) / 8) 0
  else if 0x800 ≤ off ∧ off < 0xA00 then match Assoc.find g.forfeits ((off - 0x800) / 32) with
    | some f => fieldAt f.bytes ((off - 0x800) % 32) 8
    | none => 0
  else match off with
  | 0x000 => pack [(8, (s.cfg.partOf b).getD 0), (7, flag (s.bound b)), (6, flag g.opPending), (5, flag g.ringErr), (4, flag g.en), (3, flag declared), (0, g.state.code)]
  | 0x008 => g.ringBase.toNat * 64
  | 0x010 => g.cplBase.toNat * 32
  | 0x018 => pack [(31, flag g.en), (16, g.cplLog2.toNat), (0, g.cmdLog2.toNat)]
  | 0x028 => g.cmdRead.toNat
  | 0x030 => g.cplWrite.toNat
  | 0x038 => g.cplRead.toNat
  | 0x040 => g.dbErr
  | 0x048 => g.forfeitCnt.toNat
  | 0x050 => g.energyUj
  | 0x058 => g.cmdDone
  | _ => 0

/-- BAR4: HLY_ (R321, R380). -/
def State.halyardReg (s : State) : Nat → Nat
  | 0x000 => s.hoist.addr.toNat
  | 0x008 => s.hoist.len.toNat
  | 0x018 => pack [(48, s.hoist.index), (32, s.hoist.code), (9, flag s.hoist.busySeen), (0, s.hoist.stat.code)]
  | 0x020 => s.mram mramGeneration 8
  | 0x030 => pack [(32, s.mbox.respLen % 2 ^ 16), (8, s.mbox.status), (0, s.mbox.st.code)]
  | 0x038 => pack [(32, flag s.hly.wdogEn), (0, s.hly.wdogNext)]
  | 0x048 => pack [(32, s.ident.numlib.toNat), (24, s.ident.vtab.toNat), (0, if s.pwr.recovery then 0 else s.ident.build.toNat)]
  | _ => 0

/-- BAR4: TIME_ (R322), offsets from the block's start. -/
def State.timeReg (s : State) (off : Nat) : Nat :=
  let t := s.time
  if 0x080 ≤ off ∧ off < 0x0C0 then
    let x := s.dom ((off - 0x080) / 0x20)
    match (off - 0x080) % 0x20 with
    | 0x00 => pack [(63, flag x.en), (48, x.num), (40, x.prio), (0, ofSigned 32 x.asym)]
    | 0x08 => pack [(32, x.master.toNat), (0, x.slave.toNat)]
    | 0x10 => pack [(56, (x.parent.map (·.1)).getD 0), (0, ofSigned 56 x.offset)]
    | _ => 0
  else if 0x100 ≤ off ∧ off < 0x180 then
    let x := s.pulse ((off - 0x100) / 0x20)
    match (off - 0x100) % 0x20 with
    | 0x00 => pack [(32, x.phase), (2, flag x.polarity), (0, x.mode)]
    | 0x08 => x.aT.toNat
    | 0x10 => pack [(32, x.width), (0, x.period)]
    | _ => 0
  else match off with
  | 0x000 => s.devTime % 2 ^ 64
  | 0x008 => ofSigned 32 t.rate
  | 0x010 => pack [(20, t.capOvf.toNat), (16, t.outLate.toNat), (12, t.outDone.toNat), (8, flag t.refused), (6, flag (s.qualified 1)), (5, flag (s.qualified 0)),
      (4, t.active), (0, t.st.code)]
  | 0x028 => t.alpha
  | 0x030 => pack [(16, t.qlTx.toNat), (8, flag t.synceLock), (7, flag t.synceEn), (3, t.synceLane.toNat), (0, t.syncePort.toNat)]
  | 0x038 => t.inCfg.toNat
  | _ => 0

/-- BAR4: ELOG_, PWR_, FAB_ and SEC_ (R323). -/
def State.blockReg (s : State) (off : Nat) : Nat :=
  let e := s.energy
  if 0x3040 ≤ off ∧ off < 0x3088 then pack [(32, e.railMv.getD ((off - 0x3040) / 8) 0), (0, e.railMj.getD ((off - 0x3040) / 8) 0)]
  else if 0x4020 ≤ off ∧ off < 0x4060 then s.hub.cnt.getD ((off - 0x4020) / 8) 0
  else match off with
  | 0x2000 => s.elog.write % 2 ^ 32
  | 0x2008 => s.elog.read % 2 ^ 32
  | 0x2010 => s.elog.lost
  | 0x2018 => s.elog.thresh
  | 0x3000 => e.capReg
  | 0x3008 => e.allowReg
  | 0x3010 => pack [(32, min e.window (2 ^ 32 - 1)), (8, e.mode), (0, flag e.refused)]
  | 0x3018 => pack [(32, min e.usedAdm (2 ^ 32 - 1)), (0, min e.usedMeas (2 ^ 32 - 1))]
  | 0x4000 => s.deviceId
  | 0x4008 => s.hub.combineNs.toNat
  | 0x4010 => s.hub.combineCnt
  | 0x4018 => s.hub.routeAdapt
  | 0x4060 => pack [(32, s.hub.tagPeak), (0, s.hubTags.length)]
  | 0x5000 => pack [(8, flag s.sec.identity), (0, s.sec.owners)]
  | 0x5008 => pack [(32, min s.sec.wipeUs (2 ^ 32 - 1)), (0, flag s.sec.wipeRun)]
  | _ => 0

/-- The 64-bit value at an 8-byte aligned offset of a BAR. An offset without a register reads zero (R306). -/
def State.reg (s : State) (bar off : Nat) : Nat := match bar with
  | 0 => s.managerReg off
  | 2 => s.pageReg (off / 0x1000) (off % 0x1000)
  | _ =>
    if off < 0x1000 then s.halyardReg off
    else if off < 0x2000 then s.timeReg (off - 0x1000)
    else if off < 0x6000 then s.blockReg off
    else if 0x20000 ≤ off ∧ off < 0x30000 then leNat (cellsAt s.elog.ring (off - 0x20000) 8)
    else 0

/-- Sizes of the BARs (R305). -/
def barSize : Nat → Nat
  | 0 => 0x20000
  | 2 => 0x100000
  | 4 => 0x40000
  | _ => 0

/-- The mailbox buffer (R305). -/
def inMailbox (a : RegAccess) : Bool := a.bar == 4 && decide (0x10000 ≤ a.offset) && decide (a.offset < 0x20000)

/-- The access has a size and alignment that its target takes (R306). -/
def fits (a : RegAccess) : Bool :=
  a.offset % a.size == 0 && (if inMailbox a then [4, 8, 16, 32, 64].contains a.size else a.size == 4 || a.size == 8)

/-- What a halted device still answers (R148, R390): the HLY_ block, the mailbox buffer and the first manager registers. -/
def whenHalted (a : RegAccess) : Bool :=
  inMailbox a || (a.bar == 4 && decide (a.offset < 0x1000)) || (a.bar == 0 && decide (a.offset < 0x18))

/-- Who may access a BAR (R266, R305): a write of a page comes from its burgee; a read also from the manager. -/
def allowed (a : RegAccess) (write : Bool) (s : State) : Bool := match a.bar with
  | 2 =>
    let b := a.offset / 0x1000
    match a.pasid with
    | none => !write || b == 0
    | some q => b != 0 && s.burgeeOf q == some b
  | _ => a.pasid.isNone

/-- A host access: who, where, how wide (R266, R305, R306, R390). -/
def hostAccess (a : RegAccess) (write : Bool) (k : State → Result) (s : State) : Result :=
  if !s.hostSeen then impossible "no host access"
  else if barSize a.bar < a.offset + a.size ∨ a.size = 0 then impossible "outside the BARs"
  else if !allowed a write s then .next (bindError (a.pasid.getD s.sched.lastPasid) s)
  else if !fits a || (s.halted && !whenHalted a) then .next (emit .unsupported s)
  else k s

/-- Clear the RC fields that a read covers (R8): the halves of the register that are read. -/
def clearRc (bar off : Nat) (low high : Bool) (s : State) : State :=
  if bar = 0 ∧ off = 0x030 ∧ high then { s with sched := { s.sched with bindErr := 0 } }
  else if bar = 2 ∧ off % 0x1000 = 0x040 ∧ low then s.modBurgee (off / 0x1000) fun g => { g with dbErr := 0 }
  else if bar = 4 ∧ off = 0x2010 ∧ low then { s with elog := { s.elog with lost := 0 } }
  else if bar = 4 ∧ off = 0x4060 ∧ high then { s with hub := { s.hub with tagPeak := 0 } }
  else s

end Sys2Proof.Machine
end

