-- ==== Sys2Proof/Machine/Security.lean ====
section
/-! DEFINITION. Keys, tokens, the life cycle and attestation (R393 to R404). -/

namespace Sys2Proof.Machine

/-- SEC_NONCE (R398): a fresh nonce; the previous one is no longer valid. -/
def execSecNonce (p : Pasid) (len : Nat) (s : State) : Result :=
  mailbox p 0x0200 len (· == 0) (fun _ s =>
    let n := Config.randomDraw s.sec.draws
    (mbOk, leBytes 32 n.toNat, { s with sec := { s.sec with nonce := some (n, s.up), draws := s.sec.draws + 1 } })) s

-- ───────────────────────── tokens (R398, R399)

/-- The fields of a token (R398). -/
structure Token where
  op     : Nat
  signer : Nat
  target : Nat
  serial : Nat
  nonce  : Nat
  key    : List Byte
  rsvBad : Bool
  body   : List Byte
  sigR   : List Byte
  sigS   : List Byte
  deriving DecidableEq, Repr

/-- Token operations (R398). -/
def opEnroll : Nat := 1
def opRevoke : Nat := 2
def opDeploy : Nat := 3
def opRelease : Nat := 4
def opReturn : Nat := 5
def opScrap : Nat := 6
def opEpoch : Nat := 7

/-- Codes of SIGNER (R398). -/
def signerService : Nat := 0x10
def signerNone : Nat := 0xFF

/-- Read a token and note a reserved field or code that is not zero (R9, R398). -/
def readToken (l : List Byte) : Token :=
  let op := fieldAt l 0 1
  let signer := fieldAt l 1 1
  let target := fieldAt l 2 1
  let key := (l.drop 64).take 136
  let bad := op == 0 || decide (7 < op) || !(decide (signer < 4) || signer == signerService || signer == signerNone) ||
    (if op = opEnroll ∨ op = opRevoke then decide (3 < target) else target != 0) ||
    !allZero ((l.drop 3).take 5) || !allZero ((l.drop 48).take 16) || !allZero ((l.drop 200).take 24) ||
    (if op = opEnroll then !allZero (key.drop 133) else !allZero key) || (signer == signerNone && !allZero (l.drop 224))
  { op := op, signer := signer, target := target, serial := fieldAt l 8 8, nonce := fieldAt l 16 32, key := key, rsvBad := bad, body := l.take 224
    sigR := (l.drop 224).take 72, sigS := (l.drop 296).take 72 }

/-- The token carries the nonce most recently returned, within 60 s (R398). -/
def State.nonceFits (s : State) (t : Token) : Bool := match s.sec.nonce with
  | some (n, at_) => t.nonce == n.toNat && decide (s.up ≤ at_ + 60000000000)
  | none => false

/-- Life-cycle and power states that take an operation (R401); none while a hoist operation is in progress (R399). -/
def State.opAllowed (s : State) (op : Nat) : Bool :=
  let owned := s.sec.lc == .provisioned || s.sec.lc == .deployed
  !s.hoistBusy &&
    (if op = opEnroll ∨ op = opRevoke ∨ op = opEpoch then owned && s.pwr.state != .boot
    else s.pwr.state == .idle &&
      (if op = opDeploy then s.sec.lc == .provisioned && s.sec.owners != 0
      else if op = opRelease then s.sec.lc == .deployed
      else if op = opReturn then owned
      else owned || s.sec.lc == .returned))

/-- SIGNER is one that R401 takes for the operation. -/
def State.signerAllowed (s : State) (t : Token) : Bool :=
  let none := s.sec.owners == 0
  if t.signer < 4 then
    (s.sec.liveRow t.signer).isSome && ((t.op != opEnroll && t.op != opRevoke) || t.signer != t.target)
  else if t.signer = signerService then t.op == opScrap && s.sec.lc == .returned
  else if t.op = opReturn then none
  else [opEnroll, opEpoch, opScrap].contains t.op && s.sec.lc == .provisioned && none

/-- The key that a SIGNER names. -/
def State.signerKey (s : State) (signer : Nat) : List Byte :=
  if signer = signerService then Config.serviceKey else ((s.sec.liveRow signer).map (·.key)).getD []

/-- The token's signature holds (R398, R399). -/
def State.tokenSigned (s : State) (t : Token) : Bool :=
  s.signerAllowed t && (t.signer == signerNone || Config.ecdsaVerify (s.signerKey t.signer) (Config.sha512 t.body) t.sigR t.sigS)

/-- The epoch of the running image (R396). -/
def State.runningEpoch (s : State) : Nat := bits s.ident.build.toNat 23 16

/-- The first failing verdict of a token, 0 where it is accepted (R399). -/
def State.tokenVerdict (s : State) (t : Token) : Nat :=
  if !s.nonceFits t then 1
  else if t.serial ≠ s.ident.serial.toNat then 2
  else if t.rsvBad then 9
  else if !s.opAllowed t.op then 4
  else if !s.tokenSigned t then 3
  else if t.op = opEnroll ∧ 64 ≤ s.sec.rows.length then 5
  else if t.op = opRevoke ∧ s.sec.lc = .deployed ∧ s.sec.owners = 2 ^ t.target then 6
  else if t.op = opRelease ∧ s.sec.release = 15 then 7
  else if t.op = opEpoch ∧ s.runningEpoch ≤ s.sec.epoch then 8
  else 0

/-- A token's verdict as a response (R398). -/
def tokenAnswer (v : Nat) (s : State) : State := answer mbOk (leBytes 1 v ++ leBytes 3 0) s

/-- SEC_TOKEN (R398, R399): the nonce is consumed; a refused token changes nothing and is recorded; `k` is what an accepted one does. -/
def secToken (p : Pasid) (len : Nat) (ops : Nat → Bool) (k : Token → State → State) (s : State) : Result :=
  if len = 368 ∧ ops (fieldAt (cellsAt s.mbox.buf 0 1) 0 1) = false then impossible "the token carries another operation"
  else
    let used := if s.mbox.st = .running ∨ p ≠ none then s else { s with sec := { s.sec with nonce := none } }
    let nonce := s.sec.nonce
    mailboxTo p 0x0201 len (· == 368) (fun body s =>
      let t := readToken body
      let v := { s with sec := { s.sec with nonce := nonce } }.tokenVerdict t
      if v = 0 then k t s else tokenAnswer v (record 0x8002 dieHub noUnit (item t.op ++ item v) s)) used

-- ───────────────────────── keys and epochs (R397, R401)

/-- ENROLL; a token whose OP is reserved is refused here too. -/
def execEnroll (p : Pasid) (len : Nat) (s : State) : Result :=
  secToken p len (fun op => op == opEnroll || op == 0 || decide (7 < op)) (fun t s =>
    let row := s.sec.rows.length
    let s := { s with sec := { s.sec with rows := s.sec.rows ++ [{ slot := t.target, key := t.key, release := s.sec.release, revoked := false }] } }
    tokenAnswer 0 (record 0x8001 dieHub noUnit (item t.op ++ item t.target ++ item t.signer ++ item row) s)) s

/-- The last row that names a slot. -/
def Security.lastRow (x : Security) (slot : Nat) : Nat := (((List.range x.rows.length).filter fun i => (x.rows[i]?.map (·.slot)) == some slot).getLast?).getD 0

/-- REVOKE. -/
def execRevoke (p : Pasid) (len : Nat) (s : State) : Result :=
  secToken p len (· == opRevoke) (fun t s =>
    let row := s.sec.lastRow t.target
    let rows := match s.sec.rows[row]? with
      | some r => if r.slot = t.target then s.sec.rows.set row { r with revoked := true } else s.sec.rows
      | none => s.sec.rows
    tokenAnswer 0 (record 0x8001 dieHub noUnit (item t.op ++ item t.target ++ item t.signer ++ item row) { s with sec := { s.sec with rows := rows } })) s

/-- EPOCH_COMMIT (R396). -/
def execEpochCommit (p : Pasid) (len : Nat) (s : State) : Result :=
  secToken p len (· == opEpoch) (fun _ s =>
    tokenAnswer 0 (record 0x8003 dieHub noUnit (item s.sec.epoch ++ item s.runningEpoch) { s with sec := { s.sec with epoch := s.runningEpoch } })) s

-- ───────────────────────── transitions (R400 to R402)

/-- Steps 2 and 3 of R402 for the fused state. -/
def completeTransition (s : State) : State :=
  let s := match s.sec.lc with
    | .provisioned => (clearLog s).setMram mramGeneration 8 0
    | .scrapped => { s with
        hly := { s.hly with mram := Assoc.dropRange (Assoc.dropRange s.hly.mram logBase (logBase + logSize)) 0 0x100 }
        sec := { s.sec with identity := false } }
    | _ => s
  { s with sec := { s.sec with mramCopy := (s.sec.lc.code, s.sec.release) } }

/-- An accepted transition (R402): the commit, its effects, and the device's own reset. -/
def transition (new : LifeCycle) (counts : Bool) (t : Token) (s : State) : State :=
  let old := s.sec.lc.code
  let s := { s with sec := { s.sec with lc := new, release := if counts then s.sec.release + 1 else s.sec.release
                                        transition := some (old, new.code, t.signer) } }
  resetAfterFlush { completeTransition s with pwr := s.pwr.hold 6 }

/-- DEPLOY. -/
def execDeploy (p : Pasid) (len : Nat) (s : State) : Result := secToken p len (· == opDeploy) (transition .deployed false) s

/-- LIFECYCLE_RELEASE. -/
def execLifecycleRelease (p : Pasid) (len : Nat) (s : State) : Result := secToken p len (· == opRelease) (transition .provisioned true) s

/-- RETURN. -/
def execLcReturn (p : Pasid) (len : Nat) (s : State) : Result := secToken p len (· == opReturn) (transition .returned true) s

/-- SCRAP. -/
def execScrap (p : Pasid) (len : Nat) (s : State) : Result := secToken p len (· == opScrap) (transition .scrapped false) s

/-- SEC_OWNER_KEYS (R398). -/
def execSecOwnerKeys (p : Pasid) (len : Nat) (s : State) : Result :=
  mailboxRead p 0x0202 len (fun s =>
    ((List.range 4).flatMap fun i => match s.sec.liveRow i with
      | some r => fitTo 136 r.key
      | none => List.replicate 136 0) ++
    leBytes 1 s.sec.rows.length ++ leBytes 1 s.sec.release ++ leBytes 1 s.sec.epoch ++ leBytes 1 s.sec.lc.code ++ leBytes 12 0) s

-- ───────────────────────── SPDM (R394, R403, R404)

/-- The blocks of R404 that GET_MEASUREMENTS returns, by index. -/
def State.measured (s : State) : List (Nat × List Byte) :=
  let fw := match s.ident.fwBytes with
    | none => Config.factoryDigest
    | some l => Config.sha512 l
  [(1, leBytes 64 Config.romDigest.toNat), (2, leBytes 64 fw.toNat),
   (3, leBytes 4 s.ident.build.toNat ++ leBytes 2 s.ident.numlib.toNat ++ leBytes 1 s.ident.vtab.toNat ++ leBytes 1 s.ident.minStep.toNat),
   (4, leBytes 1 s.runningEpoch ++ leBytes 1 s.sec.epoch ++ leBytes 1 s.sec.release ++ leBytes 1 s.sec.rows.length),
   (5, leBytes 64 s.sec.chain.toNat), (6, leBytes 8 s.gen.toNat ++ leBytes 8 s.pennant.toNat ++ leBytes 8 (s.managerReg 0x000)),
   (7, leBytes 1 s.sec.lc.code ++ leBytes 1 s.sec.owners ++ leBytes 1 s.powerCode ++ leBytes 5 0)]

/-- SPDM error codes (DSP0274). -/
def spdmInvalid : Nat := 1
def spdmBusy : Nat := 3

/-- An SPDM request (R400, R403): ERROR Busy outside IDLE and ACTIVE, no answer in BLANK, GET_VERSION alone in SCRAPPED. -/
def spdm (version : Bool) (k : State → State) (s : State) : Result :=
  if !s.hostSeen then impossible "no host access"
  else if s.pwr.state ≠ .idle ∧ s.pwr.state ≠ .active then .next (emit (.spdmError spdmBusy) s)
  else if s.sec.lc = .blank ∨ (s.sec.lc = .scrapped ∧ version = false) then .next s
  else .next (k s)

/-- A response without a signature. -/
def spdmPlain (code : Nat) (req : List Byte) (s : State) : State := emit (.spdm code (Config.spdmBody code req [])) s

/-- GET_VERSION. -/
def execGetVersion (req : List Byte) (s : State) : Result := spdm true (spdmPlain 0 req) s

/-- GET_CAPABILITIES. -/
def execGetCapabilities (req : List Byte) (s : State) : Result := spdm false (spdmPlain 1 req) s

/-- NEGOTIATE_ALGORITHMS. -/
def execNegotiateAlgorithms (req : List Byte) (s : State) : Result := spdm false (spdmPlain 2 req) s

/-- GET_DIGESTS: the digest of the chain in slot 0. -/
def execGetDigests (req : List Byte) (s : State) : Result :=
  spdm false (fun s => emit (.spdm 3 (Config.spdmBody 3 req [(0, leBytes 64 (Config.sha512 Config.certChain).toNat)])) s) s

/-- GET_CERTIFICATE (R394): slot 0 holds the chain, and no other slot exists. -/
def execGetCertificate (slot offset length : Nat) (s : State) : Result :=
  spdm false (fun s =>
    if slot ≠ 0 ∨ Config.certChain.length ≤ offset then emit (.spdmError spdmInvalid) s
    else emit (.spdm 4 ((Config.certChain.drop offset).take length)) s) s

/-- CHALLENGE (R393): signed with the device identity key. -/
def execChallenge (req : List Byte) (s : State) : Result :=
  spdm false (fun s =>
    let body := Config.spdmBody 5 req s.measured
    emit (.spdm 5 (body ++ Config.identitySign (Config.sha512 body))) s) s

/-- GET_MEASUREMENTS (R404): the seven blocks at one instant, signed where the request asks. -/
def execGetMeasurements (req : List Byte) (signed : Bool) (s : State) : Result :=
  spdm false (fun s =>
    let sig := if signed then Config.identitySign (Config.sha512 (Config.spdmBody 6 req s.measured)) else []
    emit (.measurements s.measured sig) s) s

end Sys2Proof.Machine
end

