-- ==== Sys2Proof/Machine/Boot.lean ====
section
/-! DEFINITION. Package pins, clocks, reset and boot (R302, R361, R387, R388, R402, R444 to R453). -/

namespace Sys2Proof.Machine

-- ───────────────────────── pins

/-- POWER_ON (R450, R451): VDD_AUX rises, which ends the THERMTRIP_N latch, or a main rail browns out without PWR_FAIL_N falling first. No flush runs. -/
def execPowerOn (auxRose : Bool) (s : State) : Result :=
  if auxRose = false ∧ (s.pwr.pwrFailN = false ∨ s.pwr.state = .off) then impossible "the rails had failed already"
  else
    let w := s.pwr.hold 0
    .next (reset { s with pwr := if auxRose then { w with thermtripN := true, pwrFailN := true } else w })

/-- The cause that a rise of RESET_N gives the boot (R392, R451). -/
def State.resetCause (s : State) : Nat :=
  if s.elog.flush.isSome ∨ s.pwr.inReset = true ∨ s.pwr.state ≠ .halted then 1
  else match s.mram mramLastFatal 2 with
    | 0 => 1
    | 0x1001 => 3
    | 0x1002 => 3
    | _ => 4

/-- RESET_N goes low for long enough to be a reset (R448). -/
def resetLow (s : State) : State := resetAfterFlush { s with pwr := { s.pwr.hold s.resetCause with resetN := false } }

/-- RESET_N_FALL (R448, R455): a pulse shorter than 1 µs is ignored, a low level of 10 µs or longer is a reset; what lies between is not stated. -/
def execResetNFall (lowNs : Nat) (s : State) : Result :=
  if s.pwr.resetN = false ∨ s.pwr.state = .off then impossible "RESET_N is low"
  else if lowNs < 1000 then .next s
  else if 10000 ≤ lowNs then .next (resetLow s)
  else
    let d := drawFree s
    .next (if d.1 % 2 = 0 then d.2 else resetLow d.2)

/-- RESET_N_RISE (R392, R448, R450, R452): boot starts where the rails and the other pins allow. -/
def execResetNRise (railsOk : Bool) (s : State) : Result :=
  if s.pwr.resetN then impossible "RESET_N is high"
  else
    let s := { s with pwr := { s.pwr with resetN := true } }
    .next (if s.elog.flush.isSome || !railsOk then s else reset s)

/-- PWR_FAIL_N_FALL (R387, R388, R449): from boot step 5 on the device stops issue and flushes; before, it holds itself in reset. -/
def execPwrFailNFall (s : State) : Result :=
  if s.pwr.pwrFailN = false ∨ s.pwr.state = .off then impossible "PWR_FAIL_N is low"
  else
    let s := { s with pwr := { s.pwr.hold 2 with pwrFailN := false } }
    if s.pwr.inReset then .next s
    else if s.pwr.step < 5 then .next (reset s)
    else
      let s := { s with pwr := { s.pwr with issueStop := true } }
      .next (startFlush 1 (record 0x1003 dieHub noUnit [] s))

/-- PWR_FAIL_N_RISE (R388, R449). -/
def execPwrFailNRise (railsOk : Bool) (s : State) : Result :=
  if s.pwr.pwrFailN then impossible "PWR_FAIL_N is high"
  else
    let s := { s with pwr := { s.pwr with pwrFailN := true } }
    .next (if s.elog.flush.isSome || !railsOk then s else reset s)

/-- THERMTRIP (R361, R366, R450, R455): the latch goes low, THERMAL_TRIP is written and the device stays in reset; the comparator acts on a device in reset
too, where the recorder does not. -/
def execThermtrip (sensor : Nat) (s : State) : Result :=
  match sensorDie sensor with
  | none => impossible "no die has the sensor"
  | some die =>
    let t := { s with pwr := { s.pwr with thermtripN := false } }
    if s.pwr.state = .off ∨ s.pwr.thermtripN = false then impossible "no die trips"
    else if !s.awake then .next t
    else .next (resetAfterFlush (record 0x5004 die noUnit [] t))

-- ───────────────────────── clocks (R445, R453)

/-- CLOCK_LOSS (R445, R454): before step 3 of boot, or in it, boot is held there; elsewhere fatal, and device time stops. -/
def execClockLoss (freq : Nat) (s : State) : Result :=
  if s.awake = false ∨ s.pwr.clockLost = true then impossible "REFCLK is lost already"
  else
    let s := { s with pwr := { s.pwr with clockLost := true } }
    if s.pwr.state = .boot ∧ s.pwr.step ≤ 3 then .next s
    else .next (record 0x2000 dieHub noUnit (item freq) { s with pwr := { s.pwr with internalOsc := true } })

/-- REFCLK_WAIT_TIMEOUT (R453): no REFCLK for 10 s at step 3; no flush runs. -/
def execRefclkWaitTimeout (freq : Nat) (s : State) : Result :=
  if s.pwr.state ≠ .boot ∨ s.pwr.step ≠ 3 ∨ s.up < s.pwr.refWait + 10000000000 then impossible "boot does not wait for REFCLK"
  else .next (record 0x2000 dieHub noUnit (item freq) s)

/-- UCIE_MODULE_DOWN (R302, R454): a module is disabled in service. -/
def execUcieModuleDown (module : Nat) (s : State) : Result :=
  if s.booted = false ∨ 4 ≤ module ∨ s.pwr.disabledModules.contains module = true then impossible "the module is not up"
  else .next (record 0x2001 dieHub noUnit (item module)
    { s with pwr := { s.pwr with modules := s.pwr.modules - 1, disabledModules := s.pwr.disabledModules ++ [module] } })

-- ───────────────────────── boot (R452, R453)

/-- Step 1 ends (R402): a transition that the MRAM copy does not show is completed. -/
def bootRom (s : State) : State := if (s.sec.lc.code, s.sec.release) = s.sec.mramCopy then s else completeTransition s

/-- The image that boots (R376, R377). -/
def loadImage (s : State) : State :=
  if s.hly.norFactory then s
  else
    let l := s.norImage
    { s with ident := { s.ident with build := BitVec.ofNat 24 (fwBuildOf l), numlib := BitVec.ofNat 16 (fieldAt l 12 2)
                                     vtab := BitVec.ofNat 8 (fieldAt l 14 1), minStep := BitVec.ofNat 8 (fieldAt l 15 1), fwBytes := some l } }

/-- The memories wiped while the towers train (R405). -/
def wipeDies (s : State) : State :=
  restartScrub { s with scratch := {}, sram := {}, tow := { s.tow with gens := [] }, sec := { s.sec with wipeRun := true } }

/-- Step 5 ends (R405, R452): the towers hold the all-zero codeword; BOOT and an ANCHOR are written. -/
def wipeTowers (us : Nat) (s : State) : State :=
  let s := { s with tower := {}, sec := { s.sec with wipeRun := false, wipeUs := us } }
  anchor 0 (record 0x1000 dieHub noUnit
    (leBytes 1 s.pwr.cause ++ leBytes 3 0 ++ leBytes 4 (s.mram mramBootCount 4) ++ leBytes 4 s.ident.build.toNat ++ leBytes 4 0) s)

/-- O8 carries an engine's links. -/
def assignO8 (e : Nat) (s : State) : State :=
  let s := forAll (engineLinks e) (fun l s => s.setLink l { s.link l with carrier := some (64 + l % 8) }) s
  { s with pwr := { s.pwr with spareEn := true, spareSel := e } }

/-- Optical bring-up (R199, R451, R453): a warm reset restores the O8 assignment, a cold one ends it if the engine passes its test again; links of an engine
that fails calibration stay FAILED. `failed` are the engines that do not pass. -/
def bringUpOptics (failed : List Nat) (s : State) : State :=
  let o8 := s.mram mramO8 1
  let e := bits o8 2 0
  let s := if bit o8 3 && (s.pwr.cause != 0 || failed.contains e) then assignO8 e s else if s.pwr.cause = 0 then s.setMram mramO8 1 0 else s
  forAll failed (fun e s => forAll (s.carried e) (fun l s => s.setLink l { s.link l with st := .failed }) (record 0x2807 (dieOptical e) noUnit [] s)) s

/-- UCIe training ends (R302, R453): a module that does not train is disabled. -/
def trainUcie (failed : List Nat) (s : State) : State :=
  forAll failed (fun m s => record 0x2001 dieHub noUnit (item m) s)
    { s with pwr := { s.pwr with modules := 4 - failed.length, disabledModules := failed } }

/-- IDLE (R344, R402, R407, R452): the first energy window opens, WIPE_DONE and a transition's record are written. -/
def enterIdle (s : State) : State :=
  let s := openWindow 0 { s with pwr := { s.pwr with state := .idle, step := 8 } }
  let s := record 0x8004 dieHub noUnit (leBytes 1 s.pwr.cause ++ leBytes 3 0 ++ leBytes 4 s.sec.wipeUs ++ leBytes 8 0) s
  match s.sec.transition with
  | none => s
  | some (old, new, signer) =>
    record 0x8000 dieHub noUnit (item old ++ item new ++ item signer ++ item s.sec.release) { s with sec := { s.sec with transition := none } }

/-- The next step of boot. -/
def nextStep (s : State) : State := { s with pwr := { s.pwr with step := s.pwr.step + 1 } }

/-- Recovery (R380, R453): the boot ROM waits for an image. -/
def enterRecovery (s : State) : State := { s with pwr := { s.pwr with state := .halted, recovery := true } }

/-- Training steps of a channel at boot (R148). -/
def trainSteps : Nat := 7

/-- A try of a channel's next training step ends (R148): a step that fails is repeated twice more, and a third failure stops the boot. -/
def trainStep (ch : Nat) (ok : Bool) (s : State) : State :=
  let c := s.chan ch
  if s.pwr.state ≠ .boot ∨ trainSteps ≤ c.trained then s
  else if ok then s.setChan ch { c with trained := c.trained + 1, tries := 0 }
  else
    let s := s.setChan ch { c with tries := c.tries + 1 }
    if c.tries + 1 < 3 then s else startFlush 0 (record 0x2406 (dieMem (ch / 7)) ch (item ch ++ item (c.trained + 1)) s)

/-- Every channel has passed every training step. -/
def State.trainedAll (s : State) : Bool := (List.range 42).all fun ch => (s.chan ch).trained == trainSteps

/-- BOOT_STEP_COMPLETE (R148, R377, R405, R452, R453). -/
def execBootStepComplete (r : BootResult) (s : State) : Result :=
  if s.pwr.state ≠ .boot ∨ s.pwr.inReset = true then impossible "the device does not boot"
  else match s.pwr.step, r with
  | 1, .done _ => .next (nextStep (bootRom s))
  | 2, .done _ =>
    if s.norValid then .next (nextStep { loadImage s with pwr := { s.pwr with refWait := s.up } }) else impossible "the image is not valid"
  | 2, .imageInvalid => if s.norValid then impossible "the image is valid" else .next (enterRecovery s)
  | 3, .done _ => .next (nextStep { s with pwr := { s.pwr with clockLost := false, internalOsc := false } })
  | 4, .train l => if l.any fun x => decide (42 ≤ x.1) then impossible "no such channel" else .next (forAll l (fun x s => trainStep x.1 x.2 s) s)
  | 4, .done _ => if s.trainedAll then .next (nextStep (wipeDies s)) else impossible "a channel has not been trained"
  | 5, .done us => .next (nextStep (wipeTowers us s))
  | 6, .done _ => .next (nextStep (bringUpOptics [] s))
  | 6, .engineFailed l => if l.all (· < 11) then .next (nextStep (bringUpOptics l s)) else impossible "no such engine"
  | 7, .done _ => .next (enterIdle (trainUcie [] s))
  | 7, .modules up failed =>
    if up + failed.length ≠ 4 ∨ ¬ failed.Nodup ∨ failed.any (4 ≤ ·) = true then impossible "not a result of training"
    else .next (if up = 0 then trainUcie failed s else enterIdle (trainUcie failed s))
  | _, _ => impossible "not a result of the step"

end Sys2Proof.Machine
end

