-- ==== Sys2Proof/Machine/Muster.lean ====
section
/-! DEFINITION. Muster, health, telltales and checkpoint cuts (R409 to R429). -/

namespace Sys2Proof.Machine

-- ───────────────────────── peers, quorum (R409)

/-- The device holds a link in UP to a peer. -/
def State.hasUp (s : State) (d : Nat) : Bool := s.cfg.links.any fun l => l.peer == d && (s.link l.link).st == .up

/-- The quorum set of a device (R409). -/
def State.quorumSet (s : State) (x : Nat) : List Nat :=
  let near := s.muster.members.filter (joined x)
  if 3 ≤ near.length then near
  else s.muster.members.filter fun d => d != x && (if d = s.deviceId then s.hasUp x else if x = s.deviceId then s.hasUp d else Config.linkHolder d x)

/-- A quorum of `n` members (R409). -/
def quorum (n : Nat) : Nat := n / 2 + 1

/-- This device takes part in muster as a member (R409, R424). -/
def State.isMember (s : State) : Bool := s.muster.st == .member || s.muster.st == .benched

/-- Send on every link in UP (R410). -/
def flood (op : Nat) (payload : List Nat) (s : State) : State :=
  forAll s.upLinks (fun l s => sendMusterOn l op payload s) s

/-- A management message leaves the receive buffer that it stands first in (R182, R185). -/
def takeMgmt (op : Nat) (items : List Nat) (s : State) : State :=
  takeIn (fun w => w.opcode == op && w.payload == (musterWire op 0 0 items).payload) s

/-- A bit of a message. -/
def flagItem (b : Bool) : Nat := if b then 1 else 0

/-- Other members of this device's rack. -/
def State.rackMembers (s : State) : List Nat := s.muster.members.filter fun d => d != s.deviceId && rackOf d == rackOf s.deviceId

def State.modMuster (s : State) (f : Muster → Muster) : State := { s with muster := f s.muster }

-- ───────────────────────── applying an EXPEL (R130, R178, R415, R416)

/-- Messages of this device toward a device that has left the fabric do not wait for a link any longer. -/
def dropWaiting (x : Nat) (s : State) : State :=
  let keep := fun (w : Wire) =>
    if w.src ≠ s.deviceId then some w
    else if w.dests.isEmpty then (if w.dst = x then none else some w)
    else if w.dests.all (·.1 == x) then none else some { w with dests := w.dests.filter (·.1 != x) }
  { s with hub := { s.hub with waiting := s.hub.waiting.filterMap keep } }

/-- Answer every outstanding request toward a device (R178). -/
def answerLost (x : Nat) (s : State) : State :=
  forAll (s.hub.outs.filter fun o => o.dests.any (·.1 == x)) (fun o s => destAnswer o.id x (lostAnswer o x) s) (dropWaiting x s)

/-- Boards that have a member on a device (R79). -/
def HoistCfg.boardsOn (cfg : HoistCfg) (x : Nat) : List Nat :=
  (cfg.boards.filter fun b => (cfg.treeN boardDepth b.id).any fun t => match cfg.board t with
    | some u => u.members.any fun m => m.kind == 2 && m.device == x
    | none => false).map (·.id)

/-- Board commands with a member on the device end with MEMBER_LOST, and so does every later one (R79, R415). -/
def loseBoards (x : Nat) (s : State) : State :=
  let boards := s.cfg.boardsOn x
  let s := forAll ((s.sched.cmds.map (·.2)).filter fun d => d.stage == .launched && d.remotes.any (·.device == x)) (fun d s =>
    cancelCommand d.id stMemberLost 0 s) s
  let s := forAll ((s.sched.cmds.map (·.2)).filter fun d => d.opcode == 1 && boards.contains d.board && [.waiting, .energy, .eligible].contains d.stage)
    (fun d s => endCommand d.id stMemberLost 0 s) s
  { s with sched := { s.sched with lost := s.sched.lost ++ ((boards.filter fun b => !s.sched.lost.contains (b, x)).map fun b => (b, x)) } }

/-- Fence a link (R415): OFF until the fence is lifted. -/
def fence (l : Nat) (s : State) : State :=
  let s := darken l .off downFence s
  s.setLink l { s.link l with fencedAt := some s.up }

/-- Spare-rack path links without a peer in UP (R416), as a mask. -/
def State.freePaths (s : State) : Nat :=
  ofBitList ((s.cfg.links.filter fun l => l.role == 4 && decide (57 ≤ l.link) && decide (l.link ≤ 63) && (s.link l.link).st != .up).map (·.link))

/-- What an expulsion of `x` does to this device's own work. -/
def forget (x : Nat) (s : State) : State := forAll (s.cfg.leases.filter (·.peer == x)) (fun l s => loseLease (leaseKey l) s) (loseBoards x (answerLost x s))

/-- The causes of an EXPEL (R410). -/
def causeHealth : Nat := 2
def causeManager : Nat := 3
def causeIsolation : Nat := 4

/-- A non-fatal expulsion of a device of this rack enters the ledger, once (R423, R424). -/
def enterLedger (x t : Nat) (s : State) : State :=
  if s.muster.ledger.contains (x, t) then s else s.modMuster fun m => { m with ledger := m.ledger ++ [(x, t)] }

/-- Apply an EXPEL of another device (R415, R416, R427). -/
def applyExpel (x cause decider : Nat) (s : State) : State :=
  let links := (s.cfg.links.filter (·.peer == x)).map (·.link)
  let s := s.setPeer x { s.peer x with expelled := some cause, expelBoot := (s.peer x).bootCount, suspectAt := none, silent := 0 }
  let s := s.modMuster fun m => { m with
    members := m.members.filter (· != x), changes := m.changes + 1, leaves := m.leaves.filter (·.1 != x)
    suspicions := m.suspicions.filter fun p => p.1 != x && p.2.1 != x }
  let s := forget x s
  let s := record 0x6001 dieHub noUnit (item x ++ item cause ++ item decider) s
  let s := forAll links fence s
  let s := if links.isEmpty then s else record 0x6005 dieHub noUnit (item x ++ item s.freePaths) s
  failCuts (fun c => c.devices.contains x) s

/-- Devices that this device's boards and outstanding requests reach. -/
def State.remotes (s : State) : List Nat :=
  ((s.cfg.boards.flatMap fun b => (b.members.filter (·.kind == 2)).map (·.device)) ++ (s.hub.outs.flatMap fun o => o.dests.map (·.1))).eraseDups.filter
    (· != s.deviceId)

/-- This device is expelled and still runs (R414, R415): its fabric lasers go off, its local work goes on. -/
def selfExpel (st : MusterSt) (s : State) : State :=
  let s := failCuts (fun _ => true) s
  let s := forAll s.remotes (fun x s => loseBoards x (answerLost x s)) s
  let s := forAll s.upLinks (fun l s => flushManagement l 512 s) s
  let s := { s with pwr := { s.pwr with lasersOff := true } }
  let s := forAll (List.range 72) (fun l s => if [LinkSt.off, .down, .failed].contains (s.link l).st then s else darken l .down downFence s) s
  s.modMuster fun m => { m with
    members := m.members.filter (· == s.deviceId), changes := m.changes + 1, st := st, suspicions := [], leaves := [], grants := [], leaveAt := none
    leaving := false, lowSince := none, rejoin := false }

/-- An EXPEL reaches or arises in this device (R410, R415): applied once, and flooded. -/
def expelNow (x cause decider : Nat) (s : State) : State :=
  let s := flood 0x52 [x, cause, decider] s
  if x = s.deviceId then selfExpel .expelled (record 0x6001 dieHub noUnit (item x ++ item cause ++ item decider) s)
  else applyExpel x cause decider s

/-- EXPEL (R410, R415): a duplicate has no effect. -/
def execExpel (target cause decider : Nat) (s : State) : Result :=
  let s := takeMgmt 0x52 [target, cause, decider] s
  if 1024 ≤ target ∨ 4 < cause then impossible "no such message"
  else if !s.isMember || (target != s.deviceId && !s.muster.members.contains target) then .next s
  else .next (expelNow target cause decider s)

/-- DEPART (R413): its receiver floods EXPEL at once. -/
def execDepart (src code : Nat) (s : State) : Result :=
  let s := takeMgmt 0x53 [code] s
  if !s.isMember || !s.muster.members.contains src || src == s.deviceId then .next s else .next (expelNow src 1 s.deviceId s)

-- ───────────────────────── heartbeats and suspicion (R411, R412, R414)

/-- Suspicions last 200 µs (R412). -/
def suspicionNs : Nat := 200000

/-- Devices whose suspicion of `x` stands and counts (R412). -/
def State.suspectedBy (s : State) (x : Nat) : List Nat :=
  (s.quorumSet x).filter fun d => s.muster.suspicions.any fun p => p.1 == x && p.2.1 == d && decide (s.up ≤ p.2.2 + suspicionNs)

/-- A quorum of suspicions decides (R412). -/
def decideOn (x : Nat) (s : State) : State :=
  if s.isMember && x != s.deviceId && s.muster.members.contains x && decide (quorum (s.quorumSet x).length ≤ (s.suspectedBy x).length) then
    expelNow x 0 s.deviceId s
  else s

/-- Hold or renew a suspicion. -/
def suspectOf (x by_ : Nat) (s : State) : State :=
  s.modMuster fun m => { m with suspicions := (x, by_, s.up) :: m.suspicions.filter fun p => !(p.1 == x && p.2.1 == by_) }

def unsuspect (x by_ : Nat) (s : State) : State :=
  s.modMuster fun m => { m with suspicions := m.suspicions.filter fun p => !(p.1 == x && p.2.1 == by_) }

/-- SUSPECT to every other member of the target's quorum set (R410). -/
def sendSuspect (x : Nat) (withdraw : Bool) (s : State) : State :=
  forAll ((s.quorumSet x).filter (· != s.deviceId)) (fun d s => sendMuster 0x51 d [x, flagItem withdraw] s) s

/-- The period counts for a peer (R411): some link to it has a role of 1 to 4 and is not in a failover. -/
def State.counts (s : State) (x : Nat) : Bool :=
  s.cfg.links.any fun l => l.peer == x && decide (1 ≤ l.role) && decide (l.role ≤ 4) && !(s.link l.link).failover

/-- One peer's heartbeat period ends (R411). -/
def judgePeer (x : Nat) (s : State) : State :=
  let p := s.peer x
  if p.heard then s.setPeer x { p with heard := false, silent := 0 }
  else if !s.counts x then s
  else
    let n := p.silent + 1
    let s := s.setPeer x { p with silent := n }
    if n < 5 then s
    else match p.suspectAt with
      | none => sendSuspect x false (suspectOf x s.deviceId (record 0x6000 dieHub noUnit [] (s.setPeer x { p with silent := n, suspectAt := some s.up })))
      | some t =>
        if s.up < t + 100000 then s
        else sendSuspect x false (suspectOf x s.deviceId (s.setPeer x { p with silent := n, suspectAt := some s.up }))

/-- Members at the other end of a link. -/
def State.linkedMembers (s : State) : List Nat := s.muster.members.filter fun d => d != s.deviceId && s.cfg.links.any (·.peer == d)

/-- The heartbeat period in ns (R410). -/
def hbCycles : Nat := 20000

/-- HEARTBEAT_PERIOD (R410 to R412, R414). -/
def execHeartbeatPeriod (s : State) : Result :=
  if s.pwr.state ≠ .active ∨ s.up < s.muster.hbDue then impossible "no heartbeat is due"
  else
    let s := s.modMuster fun m => { m with hbDue := s.up + hbCycles }
    let s := flood 0x50 [s.mram mramBootCount 4, s.muster.health, flagItem (s.muster.st == .benched), flagItem s.muster.leaving] s
    if !s.isMember then .next s
    else
      let mine := s.quorumSet s.deviceId
      let heard := (mine.filter fun d => (s.peer d).heard).length
      let s := s.modMuster fun m => { m with
        lowSince := if 2 * heard < mine.length then some (m.lowSince.getD s.up) else none
        suspicions := m.suspicions.filter fun p => decide (s.up ≤ p.2.2 + suspicionNs) }
      let s := forAll s.linkedMembers judgePeer s
      .next (forAll s.linkedMembers decideOn s)

/-- HEARTBEAT (R410, R411): silence ends, and a suspicion is withdrawn. -/
def execHeartbeat (src bootCount health : Nat) (benched leaving : Bool) (s : State) : Result :=
  let s := takeMgmt 0x50 [bootCount, health, flagItem benched, flagItem leaving] s
  if !s.hasUp src then impossible "no link to the device is in UP"
  else
    let p := s.peer src
    let was := p.suspectAt.isSome
    let s := s.setPeer src { p with heard := true, silent := 0, suspectAt := none, bootCount := bootCount, health := health, benched := benched, leaving := leaving }
    let s := if leaving then s else s.modMuster fun m => { m with leaves := m.leaves.filter (·.1 != src) }
    .next (if was then sendSuspect src true (unsuspect src s.deviceId s) else s)

/-- SUSPECT (R410, R412). -/
def execSuspect (src target : Nat) (withdraw : Bool) (s : State) : Result :=
  let s := takeMgmt 0x51 [target, flagItem withdraw] s
  if withdraw then .next (unsuspect target src s) else .next (decideOn target (suspectOf target src s))

/-- ISOLATION_TIMEOUT (R414). -/
def execIsolationTimeout (s : State) : Result := match s.muster.lowSince with
  | some t =>
    if s.up < t + 2000000 ∨ s.isMember = false then impossible "the device hears its quorum set"
    else .next (selfExpel .isolated (record 0x6004 dieHub noUnit [] s))
  | none => impossible "the device hears its quorum set"

-- ───────────────────────── admission and fences (R417, R418)

/-- Clear the SEQ state and the replay table toward a device (R178). -/
def clearSeq (d : Nat) (s : State) : State :=
  { s with hub := { s.hub with
    seqNext := s.hub.seqNext.filter (fun e => e.1 / 256 != d)
    homeNext := s.hub.homeNext.filter (fun e => e.1 / 256 != d)
    homeWait := s.hub.homeWait.filter (fun h => h.req.src != d)
    replay := Assoc.erase s.hub.replay d } }

/-- Lift a fence (R418): the link returns to DOWN and probes under R190. -/
def liftFence (l : Nat) (s : State) : State :=
  let s := enterLink l .down (s.setLink l { s.link l with fencedAt := none })
  if s.mayLight l && s.probeDue l then probe l s else s

/-- Lift the fences toward a device. -/
def liftFences (d : Nat) (s : State) : State :=
  forAll (s.cfg.links.filter fun l => l.peer == d && (s.link l.link).fencedAt.isSome) (fun l s => liftFence l.link s) s

/-- Apply an ADMIT (R79, R297, R417, R418). -/
def applyAdmit (d : Nat) (s : State) : State :=
  let s := record 0x6002 dieHub noUnit [] (s.modMuster fun m => { m with changes := m.changes + 1 })
  if d = s.deviceId then
    let near := ((s.cfg.links.filter fun l => (s.link l.link).st == .up).map (·.peer)).eraseDups
    let s := s.modMuster fun m => { m with st := .member, rejoin := false, members := (d :: near).eraseDups }
    forAll near (fun p s => sendMuster 0x5C p [d] (clearSeq p s)) s
  else
    let s := s.setPeer d { s.peer d with expelled := none, silent := 0, suspectAt := none }
    let s := s.modMuster fun m => { m with members := m.members ++ [d] }
    let s := { s with
      sched := { s.sched with lost := s.sched.lost.filter (·.2 != d) }
      hub := { s.hub with lostLeases := s.hub.lostLeases.filter (·.2 != d) } }
    liftFences d (sendMuster 0x5C d [s.deviceId] (clearSeq d s))

/-- An ADMIT reaches or arises in this device (R410): applied once, and flooded. -/
def admitNow (d : Nat) (s : State) : State := flood 0x55 [d] (applyAdmit d s)

/-- ADMIT (R410, R417). -/
def execMusterAdmit (device : Nat) (s : State) : Result :=
  let s := takeMgmt 0x55 [device] s
  if 1024 ≤ device then impossible "no such message"
  else if device = s.deviceId then (if s.isMember ∨ s.pwr.state ≠ .active then .next s else .next (admitNow device s))
  else if !s.isMember || s.muster.members.contains device then .next s
  else .next (admitNow device s)

/-- A JOIN is refused (R417). -/
def State.refusesJoin (s : State) (src boot : Nat) (rejoin : Bool) : Bool :=
  let p := s.peer src
  s.muster.members.contains src || match p.expelled with
    | some c => if c = causeHealth ∨ c = causeManager then decide (boot ≤ p.expelBoot) else boot == p.expelBoot && !rejoin
    | none => false

/-- JOIN (R417). -/
def execJoin (link src bootCount : Nat) (serial : BitVec 64) (rejoin : Bool) (s : State) : Result :=
  let s := takeMgmt 0x54 [bootCount, serial.toNat, flagItem rejoin] s
  if (s.link link).st ≠ .up then impossible "the link is not UP"
  else if !s.isMember then .next s
  else if s.refusesJoin src bootCount rejoin then .next (fence link (record 0x6003 dieHub noUnit [] s))
  else .next (admitNow src (s.setPeer src { s.peer src with bootCount := bootCount }))

/-- SEQ_RESET (R178, R410). -/
def execSeqReset (device : Nat) (s : State) : Result := .next (clearSeq device (takeMgmt 0x5C [device] s))

/-- FENCE_LIFT (R418): 60 s after it was set, unless the fenced device is a member. -/
def execFenceLift (link : Nat) (s : State) : Result := match (s.link link).fencedAt with
  | some t =>
    if s.up < t + 60000000000 ∨ s.muster.members.contains (((s.linkRec link).map (·.peer)).getD 1024) = true then impossible "the fence stands"
    else .next (liftFence link s)
  | none => impossible "the link is not fenced"

-- ───────────────────────── leaving (R423, R424)

/-- Send LEAVE to the quorum set (R410, R424). -/
def sendLeave (s : State) : State :=
  let s := s.modMuster fun m => { m with leaving := true, leaveAt := some s.up, grants := [] }
  forAll (s.quorumSet s.deviceId) (fun d s => sendMuster 0x56 d [s.muster.health] s) s

/-- LEAVE (R424): granted while the ledger holds fewer than 2 entries and no other LEAVE held ranks first. -/
def execLeave (src health : Nat) (s : State) : Result :=
  let s := takeMgmt 0x56 [health] s
  if !s.isMember || !s.muster.members.contains src then .next s
  else
    let others := s.muster.leaves.filter (·.1 != src)
    let s := s.modMuster fun m => { m with leaves := (src, health) :: others }
    let first := others.any fun o => decide (o.2 < health) || (o.2 == health && decide (o.1 < src))
    .next (if s.muster.ledger.length < 2 ∧ first = false then sendMuster 0x57 src [src] s else s)

/-- GRANT (R424): a quorum of grants, and the device floods its own EXPEL and tells its rack. -/
def execGrant (src granted : Nat) (s : State) : Result :=
  let s := takeMgmt 0x57 [granted] s
  let set := s.quorumSet s.deviceId
  if granted ≠ s.deviceId ∨ s.muster.leaveAt.isNone ∨ set.contains src = false then .next s
  else
    let s := s.modMuster fun m => { m with grants := (src :: m.grants).eraseDups }
    if s.muster.grants.length < quorum set.length then .next s
    else
      let s := forAll s.rackMembers (fun d s => sendMuster 0x58 d [s.deviceId, s.devTime] s) s
      .next (expelNow s.deviceId (if s.muster.byManager then causeManager else causeHealth) s.deviceId (enterLedger s.deviceId s.devTime s))

/-- LEDGER (R410, R423). -/
def execLedger (device time : Nat) (s : State) : Result :=
  let s := takeMgmt 0x58 [device, time] s
  if rackOf device ≠ rackOf s.deviceId then .next s else .next (enterLedger device time s)

/-- 60 min in ns of device time (R423). -/
def ledgerNs : Nat := 3600000000000

/-- LEDGER_AGE_OUT (R423, R424): a benched device asks again. -/
def execLedgerAgeOut (s : State) : Result :=
  let keep := s.muster.ledger.filter fun e => decide (s.devTime < e.2 + ledgerNs)
  if keep.length = s.muster.ledger.length then impossible "no entry has aged"
  else
    let s := s.modMuster fun m => { m with ledger := keep }
    .next (if s.muster.st = .benched ∧ s.muster.leaving = true then sendLeave s else s)

/-- LEAVE_TIMEOUT (R424): no quorum within 10 ms, and the device is benched. -/
def execLeaveTimeout (s : State) : Result := match s.muster.leaveAt with
  | some t =>
    if s.up < t + 10000000 then impossible "the LEAVE has not run out"
    else
      let was := s.muster.st
      let s := s.modMuster fun m => { m with leaveAt := none, grants := [], st := .benched }
      .next (if was = .benched then s else record 0x6007 dieHub noUnit [] s)
  | none => impossible "no LEAVE is out"

/-- BENCH_RECOVERY (R424): H has stayed at 300 or above for 10 min. -/
def execBenchRecovery (s : State) : Result :=
  let m := s.muster
  if m.st ≠ .benched ∨ m.health < 300 ∨ s.up < m.since300 + 600000000000 then impossible "the device has not recovered"
  else .next (s.modMuster fun m => { m with st := .member, leaving := m.leaveAt.isSome })

-- ───────────────────────── health (R419, R420)

/-- Whole decades of a rate above 1; the count bounds them. -/
def floorLog10 : Nat → Nat → Nat
  | 0, _ => 0
  | k + 1, n => if n < 10 then 0 else 1 + floorLog10 k (n / 10)

/-- Events of the last 24 h. -/
def State.lastDay (s : State) (l : List Nat) : List Nat := l.filter fun t => decide (s.up < t + 86400000000000)

/-- Links in UP with what their wavelengths measured. -/
def State.upWaves (s : State) : List WaveMeasure := (s.links.filter (·.2.st == .up)).flatMap (·.2.waves)

/-- Retired squares that carry a logical square (R422). -/
def State.retiredInUse (s : State) : List Nat := (List.range 180).filter fun p => s.retired p && (s.logicalOf p).isSome

/-- The lowest canary minimum of the last 60 s, in 0.1 %; none is no penalty. -/
def State.lowCanary (s : State) : Nat := ((s.hly.canaryLow.filter fun e => decide (s.up < e.1 + minuteNs)).map (·.2)).foldl min 1000

/-- Monitors that left 80 % of their tolerance band in the last 60 s. -/
def State.voltsOut (s : State) : Nat := (s.hly.voltOut.filter fun e => decide (s.up < e.2 + minuteNs)).length

/-- The link errors that FAB_ has counted (R138, R323). -/
def State.linkErrors (s : State) : Nat := s.hub.cnt.getD 1 0

/-- Link errors per second over the last 60 s: `linkErrs` holds the count at each of the last 60 scores, newest first. -/
def State.linkErrRate (s : State) : Nat := (s.linkErrors - s.muster.linkErrs.getD 59 0) / 60

/-- The nine penalties of R419. Canary minima are in 0.1 %, margins in 0.01 dB. -/
def State.penalties (s : State) : List Nat :=
  let m := s.muster
  let optical := (s.upWaves.map fun w => (300 - w.margin).toNat).foldl max 0
  let bias := (s.upWaves.filter fun w => decide ((w.bias : Int) < 10 * w.biasTrend)).length
  [min 320 (4 * (80 - s.lowCanary)), min 150 (30 * s.voltsOut), min 250 optical, min 100 (20 * bias),
   min 160 (40 * (s.lastDay (m.dqBad.map (·.2))).length), min 300 (60 * (s.lastDay m.uncorrAt).length),
   min 150 (50 * floorLog10 20 s.linkErrRate), min 50 (10 * (s.lastDay m.sramAt).length), min 600 (150 * s.retiredInUse.length)]

/-- HEALTH_SCORE (R419): once per second. All that it reads stands in the state, so the command says nothing more. -/
def execHealthScore (_ : Unit) (s : State) : Result :=
  if s.booted = false ∨ s.halted = true ∨ s.up < s.muster.healthDue then impossible "no score is due"
  else
    let l := s.penalties
    let h := 1000 - l.sum
    let h := if s.muster.dieFault.isEmpty then h else min 250 h
    .next (s.modMuster fun m => { m with
      healthDue := s.up + 1000000000, penalties := l, health := h, linkErrs := (s.linkErrors :: m.linkErrs).take 60
      since700 := if decide (m.health < 700) = decide (h < 700) then m.since700 else s.up
      since300 := if decide (m.health < 300) = decide (h < 300) then m.since300 else s.up
      dqBad := m.dqBad.filter (fun e => decide (s.up < e.2 + 86400000000000)), uncorrAt := s.lastDay m.uncorrAt, sramAt := s.lastDay m.sramAt })

/-- The band after what has lasted 60 s (R420): 0 GOOD, 1 WATCH, 2 POOR. -/
def State.nextBand (s : State) : Nat :=
  let m := s.muster
  let below := fun (limit since : Nat) (was : Bool) => if since + 60000000000 ≤ s.up then decide (m.health < limit) else was
  if below 300 m.since300 (m.band == 2) then 2 else if below 700 m.since700 (decide (1 ≤ m.band)) then 1 else 0

/-- HEALTH_BAND (R420, R424, R429): on entering POOR the device asks to leave. -/
def execHealthBand (s : State) : Result :=
  let b := s.nextBand
  if b = s.muster.band then impossible "the band stands"
  else
    let s := s.modMuster fun m => { m with band := b }
    let s := record 0x6006 dieHub noUnit (item s.muster.health ++ item (s.muster.penalties.foldl max 0)) s
    .next (if b = 2 ∧ s.isMember = true ∧ s.muster.leaving = false then sendLeave (s.modMuster fun m => { m with byManager := false }) else s)

-- ───────────────────────── telltales (R421, R422)

/-- The temperature band of a square's die (R421); none above 105 °C. -/
def State.tempBand (s : State) (p : Nat) : Option Nat :=
  let t := (hottest s.hly.temps (dieCompute p)).1
  if t < 550 then some 0 else if t < 700 then some 1 else if t < 850 then some 2 else if t < 1000 then some 3 else if t < 1050 then some 4 else none

/-- A launch turn of a board that includes the square falls within 250 µs plus GUARD_US (R421). -/
def State.turnNear (s : State) (p : Nat) : Bool :=
  s.cfg.turntables.any fun t => (s.squaresOf t.board).contains p &&
    (List.range t.turns.length).any fun i => match t.turns[((s.turnRun t.board).pos + i) % t.turns.length]? with
      | some e => e.action == 1 && decide ((s.turnRun t.board).due + i * turnNs ≤ s.up + 250000 + t.guardUs * 1000)
      | none => false

/-- A telltale may start on a square (R421, R447). -/
def State.mayTest (s : State) (p : Nat) : Bool :=
  let roomy := match s.logicalOf p with
    | none => true
    | some sq =>
      let l := s.cfg.shares.filter (·.sq == sq)
      decide ((l.map (·.slot)).eraseDups.length < 8) && decide ((l.map (·.blocks)).sum + 8 ≤ 128)
  decide (p < 180) && !s.cfg.gates.contains p && roomy && !(List.range 8).any (fun i => (s.ctx p i).active || (s.ctx p i).wiping) &&
    !(s.sched.slices.any fun x => (s.squaresOf x.board).contains p) && !s.turnNear p && decide (0 < s.energy.common) &&
    s.energy.pace75.isEmpty && s.energy.pace50.isEmpty && s.energy.halved.isEmpty

def State.tellCell (s : State) (k : Nat) : TellCell := Assoc.get s.muster.cells k {}
def setTellCell (k : Nat) (c : TellCell) (s : State) : State := s.modMuster fun m => { m with cells := Assoc.set m.cells k c }

/-- A cell has gone at least as long without a pass as another. -/
def TellCell.longer (a b : TellCell) : Bool := match a.pass, b.pass with
  | none, _ => true
  | some _, none => false
  | some x, some y => decide (x ≤ y)

/-- The cell of a square for its die's present band and load pattern (R421); none above 105 °C. -/
def State.cellOf (s : State) (patterns : List Nat) (p : Nat) : Option Nat := (s.tempBand p).map fun band => p * 20 + band * 4 + patterns.getD (p / 9) 0

/-- TELLTALE_START (R421, R447): among the eligible squares the square's cell has gone longest without a pass. A gated square is powered up first. `patterns` are
the load patterns of the compute dies over the last 100 µs. -/
def execTelltaleStart (psq : Nat) (patterns : List Nat) (s : State) : Result :=
  match s.cellOf patterns psq with
  | none => impossible "the die is too hot"
  | some key =>
    if s.booted = false ∨ s.halted = true ∨ patterns.length ≠ 20 ∨ patterns.any (3 < ·) = true ∨ s.muster.telltale.isSome ∨ s.mayTest psq = false then
      impossible "no telltale may start"
    else if (((List.range 180).filter s.mayTest).filterMap (s.cellOf patterns)).any fun k => !(s.tellCell key).longer (s.tellCell k) then
      impossible "another cell has gone longer"
    else
      let s := if (s.square psq).gated then freshSquare psq false s else s
      .next (s.modMuster fun m => { m with telltale := some { psq := psq, cell := key, rerun := false, start := s.up } })

/-- A square without work is gated again (R447). -/
def regate (p : Nat) (s : State) : State := if s.cfg.powers s.ident.part s.numSquares p then s else freshSquare p true s

/-- A healthy spare on the square's die, or 0xFFFF (R422). -/
def State.spareFor (s : State) (p : Nat) : Nat :=
  if (s.logicalOf p).isNone then 0xFFFF
  else (((List.range 9).map (9 * (p / 9) + ·)).find? fun q => (s.logicalOf q).isNone && !s.retired q && !s.cfg.gates.contains q).getD 0xFFFF

/-- Retire a square (R374, R422). -/
def retire (p : Nat) (s : State) : State :=
  if s.retired p then s
  else
    let s := s.setMram mramRetired 24 (s.mram mramRetired 24 + 2 ^ p)
    record 0x2C01 (dieCompute p) p (item (s.spareFor p)) s

/-- A die's fault in a band ends once each of its squares has passed in the band since, under whichever pattern (R422, assumption 99). -/
def State.diePassed (s : State) (key at_ : Nat) : Bool :=
  (List.range 9).all fun i => (List.range 4).any fun j => match (s.tellCell ((9 * (key / 5) + i) * 20 + key % 5 * 4 + j)).pass with
    | some t => decide (at_ < t)
    | none => false

/-- A telltale passes. -/
def tellPass (t : Telltale) (s : State) : State :=
  let s := setTellCell t.cell { s.tellCell t.cell with pass := some s.up } s
  let s := s.modMuster fun m => { m with telltale := none, dieFault := m.dieFault.filter fun f => !s.diePassed f.1 f.2 }
  regate t.psq s

/-- A telltale fails (R422): the rerun follows at once, unless the square is retired. -/
def tellFail (t : Telltale) (sect : Nat) (s : State) : State :=
  let c := s.tellCell t.cell
  let recent := s.lastDay c.fails
  let band := t.cell % 20 / 4
  let s := record 0x2C00 (dieCompute t.psq) t.psq (item band ++ item (t.cell % 4) ++ item sect) (setTellCell t.cell { c with fails := s.up :: recent } s)
  let key := t.psq / 9 * 5 + band
  let fails := (key, t.psq, s.up) :: s.muster.dieFails.filter fun f => decide (s.up < f.2.2 + 3600000000000)
  let bad := ((fails.filter (·.1 == key)).map (·.2.1)).eraseDups.length
  let s := s.modMuster fun m => { m with dieFails := fails, dieFault := if 3 ≤ bad then Assoc.set m.dieFault key s.up else m.dieFault }
  if t.rerun ∨ recent ≠ [] then regate t.psq (retire t.psq (s.modMuster fun m => { m with telltale := none }))
  else s.modMuster fun m => { m with telltale := some { t with rerun := true, start := s.up } }

/-- TELLTALE_DONE (R421, R422): 312,500 ARITH cycles after its start. -/
def execTelltaleDone (pass : Bool) (sect : Nat) (s : State) : Result := match s.muster.telltale with
  | none => impossible "no telltale runs"
  | some t => if s.up < t.start + 250000 then impossible "the telltale runs" else .next (if pass then tellPass t s else tellFail t sect s)

-- ───────────────────────── cuts (R426, R427)

/-- The participants whose CUT_READY the coordinator holds from before its own CUT_BEGIN (R426). -/
def State.readyFor (s : State) (id : Nat) : List Nat := (s.muster.earlyReady.filter (·.1 == id)).map (·.2)

/-- CUT_BEGIN (R426, R427). -/
def execCutBegin (p : Pasid) (len : Nat) (s : State) : Result :=
  mailbox p 0x0304 len (· == 144) (fun body s =>
    let id := fieldAt body 0 4
    let b := fieldAt body 4 1
    let ms := fieldAt body 8 4
    let devices := bitList 1024 (fieldAt body 16 128)
    let busy := s.muster.cuts.any fun e => (e.1 == id || e.2.burgee == b) && (e.2.forming || e.2.status == cutHeld)
    if id = 0 ∨ b = 0 ∨ ms = 0 ∨ 60000 < ms ∨ devices.contains s.deviceId = false ∨ busy = true ∨ s.inState b [.active] = false ∨
        (s.cfg.partOf b = some 0 ∧ s.radioRunning = true) then (mbWrongState, [], s)
    else
      let s := s.modBurgee b fun g => { g with cutHold := true }
      (mbOk, [], setCut id { burgee := b, timeout := ms, devices := devices, ready := s.readyFor id, begun := s.up, status := cutDraining }
          (s.modMuster fun m => { m with earlyReady := m.earlyReady.filter (·.1 != id) }))) s

/-- Nothing of a burgee is in flight (R272, R426). -/
def State.quietNow (s : State) (b : Nat) : Bool :=
  !((s.sched.cmds.any fun c => c.2.burgee == b && [.launched, .copying, .ended].contains c.2.stage) || s.squareTags b ||
    (s.hub.outs.any fun o => o.burgee == b) || s.messagePending b)

/-- The participant of lowest ID (R426). -/
def Cut.coordinator (c : Cut) : Nat := (c.devices.min?).getD 0

/-- The cut is held (R426, R429). -/
def holdCut (id : Nat) (c : Cut) (s : State) : State := if c.forming then enterCut id cutHeld c s else s

/-- The coordinator notes a participant that is ready; with all of them the cut is HELD everywhere (R426). -/
def noteReady (id src : Nat) (c : Cut) (s : State) : State :=
  let c := { c with ready := (src :: c.ready).eraseDups }
  let s := setCut id c s
  if c.devices.all c.ready.contains then holdCut id c (tellCut 0x5A id c s) else s

/-- CUT_READY (R426): a participant's message to the coordinator. With this device as its source, it is this device that meets the conditions of
R272 and says so. -/
def execCutReady (src : Nat) (cut : BitVec 32) (s : State) : Result :=
  let s := takeMgmt 0x59 [cut.toNat] s
  match Assoc.find s.muster.cuts cut.toNat with
  | none => .next (s.modMuster fun m => { m with earlyReady := ((cut.toNat, src) :: m.earlyReady).eraseDups })
  | some c =>
    let me := s.deviceId
    if src = me then
      if c.status ≠ cutDraining ∨ s.quietNow c.burgee = false then impossible "the burgee is not quiet"
      else
        let c := { c with status := cutReadySent }
        let s := setCut cut.toNat c s
        .next (if c.coordinator = me then noteReady cut.toNat me c s else sendMuster 0x59 c.coordinator [cut.toNat] s)
    else if c.coordinator = me ∧ c.forming = true ∧ c.devices.contains src = true then .next (noteReady cut.toNat src c s)
    else .next s

/-- CUT_HELD (R426). -/
def execCutHeld (cut : BitVec 32) (s : State) : Result :=
  let s := takeMgmt 0x5A [cut.toNat] s
  match Assoc.find s.muster.cuts cut.toNat with
  | some c => .next (if c.status = cutReadySent then holdCut cut.toNat c s else s)
  | none => .next s

/-- CUT_FAIL (R427). -/
def execCutFail (cut : BitVec 32) (s : State) : Result :=
  let s := takeMgmt 0x5B [cut.toNat] s
  match Assoc.find s.muster.cuts cut.toNat with
  | some c => .next (if c.forming then pumpSlices (endCut cut.toNat cutFailed c s) else s)
  | none => .next s

/-- CUT_TIMEOUT (R427). -/
def execCutTimeout (cut : BitVec 32) (s : State) : Result := match Assoc.find s.muster.cuts cut.toNat with
  | some c =>
    if c.forming = false ∨ s.up < c.begun + c.timeout * 1000000 then impossible "the cut has time left"
    else .next (pumpSlices (endCut cut.toNat cutAbandoned c s))
  | none => impossible "no such cut"

/-- CUT_RELEASE (R426, R428). -/
def execCutRelease (p : Pasid) (len : Nat) (s : State) : Result :=
  mailbox p 0x0305 len (· == 4) (fun body s =>
    let id := fieldAt body 0 4
    match Assoc.find s.muster.cuts id with
    | some c =>
      if c.status ≠ cutHeld then (mbWrongState, [], s)
      else (mbOk, [], pumpSlices (unhold c.burgee (s.modMuster fun m => { m with cuts := Assoc.erase m.cuts id })))
    | none => (mbWrongState, [], s)) s

/-- CUT_STATUS (R428). -/
def execCutStatus (p : Pasid) (len : Nat) (s : State) : Result :=
  mailbox p 0x0306 len (· == 4) (fun body s =>
    (mbOk, leBytes 1 (((Assoc.find s.muster.cuts (fieldAt body 0 4)).map (·.status)).getD 0) ++ leBytes 3 0, s)) s

-- ───────────────────────── mailbox (R424, R428)

/-- MUSTER_STATUS's state (R428). -/
def State.musterCode (s : State) : Nat := match s.muster.st with
  | .member => if s.muster.leaving then 2 else 0
  | .benched => 1
  | .expelled => 3
  | .isolated => 4
  | .notAdmitted => 5

/-- MUSTER_STATUS (R428). -/
def execMusterStatus (p : Pasid) (len : Nat) (s : State) : Result :=
  mailboxRead p 0x0300 len (fun s => leBytes 128 (ofBitList s.muster.members) ++
    ((List.range 2).flatMap fun i => match s.muster.ledger[i]? with
      | some e => leBytes 2 e.1 ++ leBytes 6 e.2
      | none => leBytes 8 0) ++
    leBytes 4 s.muster.changes ++ leBytes 1 s.musterCode ++ leBytes 11 0) s

/-- A cell's record in HEALTH_STATUS (R428). -/
def State.cellRecord (s : State) (k : Nat) : List Byte :=
  let c := s.tellCell k
  let mins := match c.pass with
    | some t => min 0xFFFE ((s.up - t) / 60000000000)
    | none => 0xFFFF
  leBytes 2 mins ++ leBytes 1 (min 255 (s.lastDay c.fails).length) ++ leBytes 1 0

/-- HEALTH_STATUS (R428). -/
def execHealthStatus (p : Pasid) (len : Nat) (s : State) : Result :=
  mailboxRead p 0x0301 len (fun s => leBytes 2 s.muster.health ++ leBytes 1 s.muster.band ++ leBytes 1 0 ++ (s.muster.penalties.flatMap (leBytes 2)) ++
    leBytes 2 0 ++ leBytes 24 (s.mram mramRetired 24) ++ (List.range 3600).flatMap s.cellRecord) s

/-- MUSTER_LEAVE (R424, R428): asks to leave, or withdraws in WATCH or GOOD. -/
def execMusterLeave (p : Pasid) (len : Nat) (s : State) : Result :=
  mailbox p 0x0302 len (· == 0) (fun _ s =>
    if s.isMember = false then (mbWrongState, [], s)
    else if s.muster.leaving = false then (mbOk, [], sendLeave (s.modMuster fun m => { m with byManager := true }))
    else if s.muster.band = 2 then (mbOk, [], s)
    else (mbOk, [], s.modMuster fun m => { m with leaving := false, leaveAt := none, grants := [] })) s

/-- MUSTER_REJOIN (R417, R428): accepted while the device is expelled; its fabric lasers may light again. -/
def execMusterRejoin (p : Pasid) (len : Nat) (s : State) : Result :=
  mailbox p 0x0303 len (· == 0) (fun _ s =>
    if s.muster.st ≠ .expelled ∧ s.muster.st ≠ .isolated then (mbWrongState, [], s)
    else (mbOk, [], { s.modMuster (fun m => { m with rejoin := true }) with pwr := { s.pwr with lasersOff := false } })) s

end Sys2Proof.Machine
end

