-- ==== Sys2Proof/Machine/HostWrites.lean ====
section
/-! DEFINITION. Host accesses to the registers (R8, R305 to R323). A register whose access has a command of its own in the table has that command's effect. -/

namespace Sys2Proof.Machine

-- ───────────────────────── reads

/-- A read of TIME_INi_CAP (R8, R261, R306): it takes the pin's oldest stamp, and returns the half that a 32-bit read names (assumption 140). -/
def readCapture (n : Nat) (a : RegAccess) (s : State) : Result :=
  if a.size = 8 then execTimeInCapRead a.pasid n s
  else match Assoc.get s.time.caps n [] with
    | [] => .next (emit (.readValue 0) s)
    | v :: t => .next (emit (.readValue (if a.offset % 8 = 0 then BitVec.ofNat 64 v.toNat else 1)) { s with time := { s.time with caps := Assoc.set s.time.caps n t } })

/-- RC_REGISTER_READ (R8, R249, R261, R306, R321): a read of a register. A 32-bit read of TIME_NOW's low half latches its high half, and one of the high half returns
what was latched. -/
def execRcRegisterRead (a : RegAccess) (s : State) : Result :=
  hostAccess a false (fun s =>
    if a.bar = 4 ∧ a.offset = 0x1000 ∧ a.size = 4 then execTimeNowLowRead a.pasid s
    else if a.bar = 4 ∧ 0x1040 ≤ a.offset ∧ a.offset < 0x1050 then readCapture ((a.offset - 0x1040) / 8) a s
    else if inMailbox a then .next (emit (.memData (cellsAt s.mbox.buf (a.offset - 0x10000) a.size) false) s)
    else if a.bar = 4 ∧ a.offset = 0x1004 then .next (emit (.readValue (BitVec.ofNat 64 s.time.latch.toNat)) s)
    else
      let off := a.offset / 8 * 8
      let v := s.reg a.bar off
      let low := a.offset % 8 == 0
      let high := a.size == 8 || a.offset % 8 == 4
      let out := if a.size = 8 then v else if low then v % 2 ^ 32 else v / 2 ^ 32
      .next (emit (.readValue (BitVec.ofNat 64 out)) (clearRc a.bar off low high s))) s

-- ───────────────────────── writes

/-- What a write puts into an RW register, and what it sends to W1C bits: a 32-bit write changes only its half (R306). -/
def merged (a : RegAccess) (old v : Nat) : Nat :=
  if a.size = 8 then v % 2 ^ 64 else if a.offset % 8 = 0 then old / 2 ^ 32 * 2 ^ 32 + v % 2 ^ 32 else old % 2 ^ 32 + v % 2 ^ 32 * 2 ^ 32

def ones (a : RegAccess) (v : Nat) : Nat := merged a 0 v

/-- Clear the bits of a W1C field. -/
def w1c (w : Nat) (old : BitVec w) (ones : Nat) : BitVec w := old &&& ~~~ (BitVec.ofNat w ones)

/-- A write of MGR_BGE_CTRL (R270, R319): the operation that it names; one outside the table of R270 answers WRONG_STATE. -/
def writeBgeCtrl (v : Nat) (s : State) : Result :=
  let b := bits v 7 0
  match bits v 15 8 with
  | 1 => execEnable none b s
  | 2 => execQuiesce none b s
  | 3 => execResume none b s
  | 4 => execDisable none b s
  | 5 => execForce none b s
  | 6 => execWipe none b s
  | 7 => execRelease none b s
  | _ => .next { s with sched := { s.sched with mgrBurgee := b, mgrStatus := bsWrongState } }

/-- An MSI-X table write (R303, R318): unmasking an entry that is pending sends its message. -/
def writeMsix (a : RegAccess) (v : Nat) (s : State) : Result :=
  let n := (a.offset - 0x8000) / 16
  let e := Assoc.get s.msix n {}
  let m := merged a (s.managerReg (a.offset / 8 * 8)) v
  if a.offset / 8 % 2 = 0 then .next { s with msix := Assoc.set s.msix n { e with addr := BitVec.ofNat 64 m } }
  else
    let s := { s with msix := Assoc.set s.msix n { e with data := BitVec.ofNat 32 (m % 2 ^ 32), masked := bit m 32 } }
    if e.masked && !bit m 32 then execMsixUnmask none n s else .next s

/-- A write of BGE_DOORBELL that covers bit 0 (R306, R311, R320): its high half is zero in a 32-bit write. A TARGET of 2 or 3 is ignored and counted. -/
def writeDoorbell (p : Pasid) (b v : Nat) (s : State) : Result :=
  let value := BitVec.ofNat 32 (bits v 31 0)
  match bits v 33 32 with
  | 0 => execCommandDoorbell p b value s
  | 1 => execCellDoorbell p b value s
  | _ => .next (countDbErr b s)

/-- A page register (R307, R311, R320). -/
def writePage (a : RegAccess) (v : Nat) (s : State) : Result :=
  let b := a.offset / 0x1000
  let off := a.offset % 0x1000 / 8 * 8
  let g := s.burgee b
  let m := merged a (s.pageReg b off) v
  if off = 0x000 then .next (s.setBurgee b { g with ringErr := g.ringErr && !bit (ones a v) 5 })
  else if off = 0x008 then .next (if g.en then s else s.setBurgee b { g with ringBase := BitVec.ofNat 38 (bits m 43 6) })
  else if off = 0x010 then .next (if g.en then s else s.setBurgee b { g with cplBase := BitVec.ofNat 39 (bits m 43 5) })
  else if off = 0x018 then execBgeRingCfgWrite a.pasid b (BitVec.ofNat 64 m) s
  else if off = 0x020 ∧ a.offset % 8 = 0 then writeDoorbell a.pasid b v s
  else if off = 0x038 ∧ a.offset % 8 = 0 then execBgeCplReadWrite a.pasid b (BitVec.ofNat 32 (bits v 31 0)) s
  else .next s

/-- A write of HLY_MBOX_CMD (R321, R389, R398, R423): the request that its code names; a token's OP says which operation it asks for. -/
def writeRequest (p : Pasid) (code len : Nat) (s : State) : Result :=
  match code with
  | 0x0001 => execMemStatus p len s
  | 0x0002 => execLinkStatus p len s
  | 0x0003 => execFhConfig p len s
  | 0x0004 => execFhStatus p len s
  | 0x0005 => execRadioStatus p len s
  | 0x0100 => execFwStage p len s
  | 0x0101 => execFwWrite p len s
  | 0x0102 => execFwStatus p len s
  | 0x0110 => execRecoveryBegin p len s
  | 0x0111 => execRecoveryChunk p len s
  | 0x0112 => execRecoveryFinish p len s
  | 0x0120 => execLogInfo p len s
  | 0x0121 => execLogRead p len s
  | 0x0122 => execLogClear p len s
  | 0x0130 => execSensors p len s
  | 0x0200 => execSecNonce p len s
  | 0x0201 =>
    let op := fieldAt (cellsAt s.mbox.buf 0 1) 0 1
    if op = opRevoke then execRevoke p len s
    else if op = opDeploy then execDeploy p len s
    else if op = opRelease then execLifecycleRelease p len s
    else if op = opReturn then execLcReturn p len s
    else if op = opScrap then execScrap p len s
    else if op = opEpoch then execEpochCommit p len s
    else execEnroll p len s
  | 0x0202 => execSecOwnerKeys p len s
  | 0x0300 => execMusterStatus p len s
  | 0x0301 => execHealthStatus p len s
  | 0x0302 => execMusterLeave p len s
  | 0x0303 => execMusterRejoin p len s
  | 0x0304 => execCutBegin p len s
  | 0x0305 => execCutRelease p len s
  | 0x0306 => execCutStatus p len s
  | _ => execUnknownRequest p (BitVec.ofNat 16 code) len s

/-- HLY_ registers (R321). -/
def writeHalyard (a : RegAccess) (v : Nat) (s : State) : Result :=
  let off := a.offset / 8 * 8
  let m := merged a (s.halyardReg off) v
  let h := s.hoist
  match off with
  | 0x000 => .next { s with hoist := { h with addr := BitVec.ofNat 64 (m / 64 * 64) } }
  | 0x008 => .next { s with hoist := { h with len := BitVec.ofNat 22 m } }
  | 0x010 => if a.offset % 8 ≠ 0 then .next s else if v % 4 = 1 then execLoad a.pasid s else if v % 4 = 2 then execClear a.pasid s else .next s
  | 0x018 => .next { s with hoist := { h with busySeen := h.busySeen && !bit (ones a v) 9 } }
  | 0x028 => if a.offset % 8 = 0 then writeRequest a.pasid (bits v 15 0) (bits v 31 16) s else .next s
  | 0x038 => execHlyWdogCtrlWrite a.pasid (BitVec.ofNat 64 m) s
  | 0x040 => if a.offset % 8 = 0 then execHlyWdogFeed a.pasid s else .next s
  | _ => .next s

/-- A change of what a domain tracks starts it anew. -/
def Domain.retrack (x : Domain) : Domain := { x with parent := none, valid := 0, lastSync := none }

/-- TIME_DOMd registers (R252, R322): a value out of range leaves the register unchanged. -/
def writeDomain (d off m : Nat) (s : State) : State :=
  let x := s.dom d
  if off = 0x00 then
    let asym := toSigned 32 (bits m 31 0)
    let num := bits m 55 48
    let prio := bits m 47 40
    if num < 24 ∨ 43 < num ∨ prio = 0 ∨ asym < -100000 ∨ 100000 < asym then timeRefused s
    else
      let y := { x with en := bit m 63, num := num, prio := prio, asym := asym }
      requalify (s.setDom d (if y.en = x.en ∧ y.num = x.num then y else y.retrack))
  else if off = 0x08 then
    let y := { x with master := BitVec.ofNat 32 (bits m 63 32), slave := BitVec.ofNat 32 (bits m 31 0) }
    requalify (s.setDom d (if y.slave = x.slave then y else y.retrack))
  else s

/-- TIME_OUTn_SHAPE (R260, R322). -/
def writeShape (n m : Nat) (s : State) : State :=
  let x := s.pulse n
  let w := bits m 63 32
  let p := bits m 31 0
  if p < 100 ∨ w < 4 ∨ p < w + 4 ∨ p ≤ x.phase then timeRefused s else s.setPulse n { x with width := w, period := p }

/-- A write of TIME_CTRL (R256, R257, R322): RELOCK, then SELECT, where their bits are set. -/
def writeTimeCtrl (p : Pasid) (v : Nat) (s : State) : Result :=
  let select := fun (s : State) => if bit v 1 then execSelect p (v % 2) s else .next s
  if !bit v 8 then select s
  else match execRelock p s with
    | .next t => select t
    | o => o

/-- TIME_ registers (R322). -/
def writeTime (a : RegAccess) (v : Nat) (s : State) : Result :=
  let off := a.offset / 8 * 8 - 0x1000
  let m := merged a (s.timeReg off) v
  let o := ones a v
  let t := s.time
  if 0x080 ≤ off ∧ off < 0x0C0 then .next (writeDomain ((off - 0x080) / 0x20) ((off - 0x080) % 0x20) m s)
  else if 0x100 ≤ off ∧ off < 0x180 then
    if off % 0x20 = 0x10 then .next (writeShape ((off - 0x100) / 0x20) m s)
    else if off % 0x20 = 0x18 then .next s
    else if off % 0x20 = 0x08 then execTimeOutAtWrite a.pasid ((off - 0x100) / 0x20) (BitVec.ofNat 64 m) s
    else execTimeOutCfgWrite a.pasid ((off - 0x100) / 0x20) (BitVec.ofNat 64 m) s
  else match off with
  | 0x010 => .next { s with time := { t with capOvf := w1c 2 t.capOvf (bits o 21 20), outLate := w1c 4 t.outLate (bits o 19 16)
                                             outDone := w1c 4 t.outDone (bits o 15 12), refused := t.refused && !bit o 8 } }
  | 0x018 => if a.offset % 8 = 0 then writeTimeCtrl a.pasid v s else .next s
  | 0x020 => if a.offset % 8 = 0 then execTimeSet a.pasid (BitVec.ofNat 64 v) s else .next s
  | 0x028 => execTimeFrameOfsWrite a.pasid (BitVec.ofNat 64 m) s
  | 0x030 => execTimeSynceWrite a.pasid (BitVec.ofNat 64 m) s
  | 0x038 => .next { s with time := { t with inCfg := BitVec.ofNat 2 m } }
  | _ => .next s

/-- ELOG_, PWR_ and FAB_ registers (R323). -/
def writeBlock (a : RegAccess) (v : Nat) (s : State) : Result :=
  let off := a.offset / 8 * 8
  let m := merged a (s.blockReg off) v
  match off with
  | 0x2008 => execElogReadWrite a.pasid (BitVec.ofNat 32 m) s
  | 0x2018 => .next { s with elog := { s.elog with thresh := bits m 15 0 } }
  | 0x3000 => execPwrCapWrite a.pasid (BitVec.ofNat 64 m) s
  | 0x3008 => execPwrAllowanceWrite a.pasid (BitVec.ofNat 64 m) s
  | 0x3010 => .next { s with energy := { s.energy with refused := s.energy.refused && !bit (ones a v) 0 } }
  | 0x4008 => .next { s with hub := { s.hub with combineNs := BitVec.ofNat 10 m } }
  | _ => .next s

/-- REGISTER_WRITE (R8, R305, R306, R319 to R323). -/
def execRegisterWrite (a : RegAccess) (value : BitVec 512) (s : State) : Result :=
  hostAccess a true (fun s =>
    let v := value.toNat % 2 ^ (8 * a.size)
    if inMailbox a then .next { s with mbox := { s.mbox with buf := putCells s.mbox.buf (a.offset - 0x10000) (leBytes a.size v) } }
    else match a.bar with
    | 0 =>
      if 0x8000 ≤ a.offset ∧ a.offset < 0x10000 then writeMsix a v s
      else if a.offset = 0x020 then writeBgeCtrl v s
      else if a.offset / 8 * 8 = 0x038 then .next { s with irqStat := w1c 8 s.irqStat (ones a v) }
      else .next s
    | 2 => writePage a v s
    | _ =>
      if a.offset < 0x1000 then writeHalyard a v s
      else if a.offset < 0x2000 then writeTime a v s
      else if a.offset < 0x6000 then writeBlock a v s
      else .next s) s

end Sys2Proof.Machine
end

