-- ==== Sys2Proof/Machine/Dispatch.lean ====
section
/-! DEFINITION. One arm per command: each calls its own meaning. -/

namespace Sys2Proof.Machine

def exec (i : Instr) (s : State) : Host.Outcome State Fault Refusal :=
  match i with
  | .load p => Sys2Proof.Machine.execLoad p s
  | .clear p => Sys2Proof.Machine.execClear p s
  | .clearWipeDone => Sys2Proof.Machine.execClearWipeDone s
  | .hoistCopyDone bytes poison => Sys2Proof.Machine.execHoistCopyDone bytes poison s
  | .hoistVerified => Sys2Proof.Machine.execHoistVerified s
  | .hoistHoldDrained => Sys2Proof.Machine.execHoistHoldDrained s
  | .hoistBoardSwitch board => Sys2Proof.Machine.execHoistBoardSwitch board s
  | .hoistHoldTimeout => Sys2Proof.Machine.execHoistHoldTimeout s
  | .nop c f => Sys2Proof.Machine.execNop c f s
  | .trap c f => Sys2Proof.Machine.execTrap c f s
  | .endK c f steal => Sys2Proof.Machine.execEndK c f steal s
  | .rdcsr c f cycle => Sys2Proof.Machine.execRdcsr c f cycle s
  | .lil c f => Sys2Proof.Machine.execLil c f s
  | .lih c f => Sys2Proof.Machine.execLih c f s
  | .loop c f => Sys2Proof.Machine.execLoop c f s
  | .add c f => Sys2Proof.Machine.execAdd c f s
  | .sub c f => Sys2Proof.Machine.execSub c f s
  | .mul c f => Sys2Proof.Machine.execMul c f s
  | .andR c f => Sys2Proof.Machine.execAndR c f s
  | .orR c f => Sys2Proof.Machine.execOrR c f s
  | .xorR c f => Sys2Proof.Machine.execXorR c f s
  | .shl c f => Sys2Proof.Machine.execShl c f s
  | .shr c f => Sys2Proof.Machine.execShr c f s
  | .sra c f => Sys2Proof.Machine.execSra c f s
  | .minR c f => Sys2Proof.Machine.execMinR c f s
  | .maxR c f => Sys2Proof.Machine.execMaxR c f s
  | .slt c f => Sys2Proof.Machine.execSlt c f s
  | .addi c f => Sys2Proof.Machine.execAddi c f s
  | .subi c f => Sys2Proof.Machine.execSubi c f s
  | .muli c f => Sys2Proof.Machine.execMuli c f s
  | .andi c f => Sys2Proof.Machine.execAndi c f s
  | .ori c f => Sys2Proof.Machine.execOri c f s
  | .xori c f => Sys2Proof.Machine.execXori c f s
  | .shli c f => Sys2Proof.Machine.execShli c f s
  | .shri c f => Sys2Proof.Machine.execShri c f s
  | .srai c f => Sys2Proof.Machine.execSrai c f s
  | .mini c f => Sys2Proof.Machine.execMini c f s
  | .maxi c f => Sys2Proof.Machine.execMaxi c f s
  | .slti c f => Sys2Proof.Machine.execSlti c f s
  | .ld8 c f => Sys2Proof.Machine.execLd8 c f s
  | .ld16 c f => Sys2Proof.Machine.execLd16 c f s
  | .ld32 c f => Sys2Proof.Machine.execLd32 c f s
  | .ld64 c f => Sys2Proof.Machine.execLd64 c f s
  | .st8 c f => Sys2Proof.Machine.execSt8 c f s
  | .st16 c f => Sys2Proof.Machine.execSt16 c f s
  | .st32 c f => Sys2Proof.Machine.execSt32 c f s
  | .st64 c f => Sys2Proof.Machine.execSt64 c f s
  | .dataCacheLineFill c victim upset => Sys2Proof.Machine.execDataCacheLineFill c victim upset s
  | .beq c f => Sys2Proof.Machine.execBeq c f s
  | .bne c f => Sys2Proof.Machine.execBne c f s
  | .blt c f => Sys2Proof.Machine.execBlt c f s
  | .bge c f => Sys2Proof.Machine.execBge c f s
  | .jump c f => Sys2Proof.Machine.execJump c f s
  | .call c f => Sys2Proof.Machine.execCall c f s
  | .ret c f => Sys2Proof.Machine.execRet c f s
  | .qwait c f => Sys2Proof.Machine.execQwait c f s
  | .qdrop c f => Sys2Proof.Machine.execQdrop c f s
  | .qstat c f => Sys2Proof.Machine.execQstat c f s
  | .qpush c f => Sys2Proof.Machine.execQpush c f s
  | .qpop c f => Sys2Proof.Machine.execQpop c f s
  | .queueStallResume c cycles => Sys2Proof.Machine.execQueueStallResume c cycles s
  | .vadd c f => Sys2Proof.Machine.execVadd c f s
  | .vsub c f => Sys2Proof.Machine.execVsub c f s
  | .vmul c f => Sys2Proof.Machine.execVmul c f s
  | .vfma c f => Sys2Proof.Machine.execVfma c f s
  | .vmax c f => Sys2Proof.Machine.execVmax c f s
  | .vmin c f => Sys2Proof.Machine.execVmin c f s
  | .vabs c f => Sys2Proof.Machine.execVabs c f s
  | .vneg c f => Sys2Proof.Machine.execVneg c f s
  | .vcvt c f => Sys2Proof.Machine.execVcvt c f s
  | .vcmp c f => Sys2Proof.Machine.execVcmp c f s
  | .vsel c f => Sys2Proof.Machine.execVsel c f s
  | .vexp c f => Sys2Proof.Machine.execVexp c f s
  | .vlog c f => Sys2Proof.Machine.execVlog c f s
  | .vrcp c f => Sys2Proof.Machine.execVrcp c f s
  | .vrsq c f => Sys2Proof.Machine.execVrsq c f s
  | .vtanh c f => Sys2Proof.Machine.execVtanh c f s
  | .vsig c f => Sys2Proof.Machine.execVsig c f s
  | .vrsum c f => Sys2Proof.Machine.execVrsum c f s
  | .vrmax c f => Sys2Proof.Machine.execVrmax c f s
  | .vperm c f => Sys2Proof.Machine.execVperm c f s
  | .vld c f => Sys2Proof.Machine.execVld c f s
  | .vst c f => Sys2Proof.Machine.execVst c f s
  | .vshift c f => Sys2Proof.Machine.execVshift c f s
  | .vlogic c f => Sys2Proof.Machine.execVlogic c f s
  | .waitsem c f => Sys2Proof.Machine.execWaitsem c f s
  | .waitsemSatisfied c => Sys2Proof.Machine.execWaitsemSatisfied c s
  | .signalsem c f => Sys2Proof.Machine.execSignalsem c f s
  | .barrier c f => Sys2Proof.Machine.execBarrier c f s
  | .barrierComplete c => Sys2Proof.Machine.execBarrierComplete c s
  | .fence c f => Sys2Proof.Machine.execFence c f s
  | .checkgen c f => Sys2Proof.Machine.execCheckgen c f s
  | .generationQuery src burgee tag page => Sys2Proof.Machine.execGenerationQuery src burgee tag page s
  | .checkgenResult c remote => Sys2Proof.Machine.execCheckgenResult c remote s
  | .reduce c f => Sys2Proof.Machine.execReduce c f s
  | .allreduce c f => Sys2Proof.Machine.execAllreduce c f s
  | .bcast c f => Sys2Proof.Machine.execBcast c f s
  | .reduceTreeStep c => Sys2Proof.Machine.execReduceTreeStep c s
  | .mmt c f => Sys2Proof.Machine.execMmt c f s
  | .mmp c f => Sys2Proof.Machine.execMmp c f s
  | .mmpTileComplete c => Sys2Proof.Machine.execMmpTileComplete c s
  | .loadw c f => Sys2Proof.Machine.execLoadw c f s
  | .swap c f => Sys2Proof.Machine.execSwap c f s
  | .shapeSwitch sq shape => Sys2Proof.Machine.execShapeSwitch sq shape s
  | .kernelLaunch c cmd => Sys2Proof.Machine.execKernelLaunch c cmd s
  | .shareWipeDone c => Sys2Proof.Machine.execShareWipeDone c s
  | .accessRequestIssue psq => Sys2Proof.Machine.execAccessRequestIssue psq s
  | .streamReadReply psq tag upset timing => Sys2Proof.Machine.execStreamReadReply psq tag upset timing s
  | .streamWriteAck psq tag => Sys2Proof.Machine.execStreamWriteAck psq tag s
  | .heldRequestAdmit bank => Sys2Proof.Machine.execHeldRequestAdmit bank s
  | .channelFrameStart => Sys2Proof.Machine.execChannelFrameStart s
  | .refreshSlot => Sys2Proof.Machine.execRefreshSlot s
  | .calibrationSlot lost => Sys2Proof.Machine.execCalibrationSlot lost s
  | .towerPatrolScrub ch upset => Sys2Proof.Machine.execTowerPatrolScrub ch upset s
  | .scratchpadScrub psq bank upset => Sys2Proof.Machine.execScratchpadScrub psq bank upset s
  | .halyardSramScrub upset => Sys2Proof.Machine.execHalyardSramScrub upset s
  | .demandScrub ch granule upset => Sys2Proof.Machine.execDemandScrub ch granule upset s
  | .channelRetrainDone ch ok step => Sys2Proof.Machine.execChannelRetrainDone ch ok step s
  | .memCorrSummary => Sys2Proof.Machine.execMemCorrSummary s
  | .memDqDegraded ch dq => Sys2Proof.Machine.execMemDqDegraded ch dq s
  | .memStatus p len => Sys2Proof.Machine.execMemStatus p len s
  | .operationWindowWrite c stream addr g => Sys2Proof.Machine.execOperationWindowWrite c stream addr g s
  | .fabricRequestSend id => Sys2Proof.Machine.execFabricRequestSend id s
  | .fabricLoad r => Sys2Proof.Machine.execFabricLoad r s
  | .fabricStore r => Sys2Proof.Machine.execFabricStore r s
  | .mstore r dests => Sys2Proof.Machine.execMstore r dests s
  | .fabricSwap r => Sys2Proof.Machine.execFabricSwap r s
  | .cas r => Sys2Proof.Machine.execCas r s
  | .fadd r => Sys2Proof.Machine.execFadd r s
  | .fmin r => Sys2Proof.Machine.execFmin r s
  | .fmax r => Sys2Proof.Machine.execFmax r s
  | .fand r => Sys2Proof.Machine.execFand r s
  | .forA r => Sys2Proof.Machine.execForA r s
  | .fxor r => Sys2Proof.Machine.execFxor r s
  | .radd r => Sys2Proof.Machine.execRadd r s
  | .rmin r => Sys2Proof.Machine.execRmin r s
  | .rmax r => Sys2Proof.Machine.execRmax r s
  | .rladd r => Sys2Proof.Machine.execRladd r s
  | .subCommand sc => Sys2Proof.Machine.execSubCommand sc s
  | .subCommandEnd cmd device r => Sys2Proof.Machine.execSubCommandEnd cmd device r s
  | .readData r => Sys2Proof.Machine.execReadData r s
  | .atomicData r => Sys2Proof.Machine.execAtomicData r s
  | .acknowledgment r => Sys2Proof.Machine.execAcknowledgment r s
  | .requestForward m => Sys2Proof.Machine.execRequestForward m s
  | .combineWindowClose entry => Sys2Proof.Machine.execCombineWindowClose entry s
  | .combinedRequest opcode r parts => Sys2Proof.Machine.execCombinedRequest opcode r parts s
  | .combinedData entry r => Sys2Proof.Machine.execCombinedData entry r s
  | .requestRetransmit id => Sys2Proof.Machine.execRequestRetransmit id s
  | .flitReceive link flit badCw => Sys2Proof.Machine.execFlitReceive link flit badCw s
  | .linkProbe link => Sys2Proof.Machine.execLinkProbe link s
  | .probeTimeout link => Sys2Proof.Machine.execProbeTimeout link s
  | .lightDetected link => Sys2Proof.Machine.execLightDetected link s
  | .farEndReturn link => Sys2Proof.Machine.execFarEndReturn link s
  | .linkTrainingDone link => Sys2Proof.Machine.execLinkTrainingDone link s
  | .linkIdentity link serial device peerLink => Sys2Proof.Machine.execLinkIdentity link serial device peerLink s
  | .automaticPowerReduction link => Sys2Proof.Machine.execAutomaticPowerReduction link s
  | .engineFailover engine fatal us => Sys2Proof.Machine.execEngineFailover engine fatal us s
  | .spareSelectorSettled => Sys2Proof.Machine.execSpareSelectorSettled s
  | .linkMarginMeasure link waves => Sys2Proof.Machine.execLinkMarginMeasure link waves s
  | .linkMargin link wave => Sys2Proof.Machine.execLinkMargin link wave s
  | .linkPreFec link wave => Sys2Proof.Machine.execLinkPreFec link wave s
  | .linkStatus p len => Sys2Proof.Machine.execLinkStatus p len s
  | .cellDoorbell p page value => Sys2Proof.Machine.execCellDoorbell p page value s
  | .slotBoundary cell slot => Sys2Proof.Machine.execSlotBoundary cell slot s
  | .configRequest cell r => Sys2Proof.Machine.execConfigRequest cell r s
  | .startRequest cell => Sys2Proof.Machine.execStartRequest cell s
  | .stopRequest cell => Sys2Proof.Machine.execStopRequest cell s
  | .dlTtiRequest cell slot pdus => Sys2Proof.Machine.execDlTtiRequest cell slot pdus s
  | .ulTtiRequest cell slot allocs => Sys2Proof.Machine.execUlTtiRequest cell slot allocs s
  | .ulDciRequest cell slot dcis => Sys2Proof.Machine.execUlDciRequest cell slot dcis s
  | .txDataRequest cell slot pdus => Sys2Proof.Machine.execTxDataRequest cell slot pdus s
  | .otherDownlinkMessage cell mtype => Sys2Proof.Machine.execOtherDownlinkMessage cell mtype s
  | .ecpriUplaneReceive f => Sys2Proof.Machine.execEcpriUplaneReceive f s
  | .ulWindowExpiry cell slot symbol ant => Sys2Proof.Machine.execUlWindowExpiry cell slot symbol ant s
  | .codeBlockDecoded die block crcOk iters bits => Sys2Proof.Machine.execCodeBlockDecoded die block crcOk iters bits s
  | .uplinkEngineReport cell slot die report => Sys2Proof.Machine.execUplinkEngineReport cell slot die report s
  | .uplinkIndicationDeadline cell slot => Sys2Proof.Machine.execUplinkIndicationDeadline cell slot s
  | .frameEnd cell sfn noise rssi => Sys2Proof.Machine.execFrameEnd cell sfn noise rssi s
  | .radioStatus p len => Sys2Proof.Machine.execRadioStatus p len s
  | .downlinkCplaneSend cell slot symbol flow weights => Sys2Proof.Machine.execDownlinkCplaneSend cell slot symbol flow weights s
  | .downlinkUplaneSend cell slot symbol flow prbs => Sys2Proof.Machine.execDownlinkUplaneSend cell slot symbol flow prbs s
  | .paControlSend cell enable antennas edgeTime => Sys2Proof.Machine.execPaControlSend cell enable antennas edgeTime s
  | .oneWayDelayMeasurement port sub rawPs => Sys2Proof.Machine.execOneWayDelayMeasurement port sub rawPs s
  | .ptpSync port sub domain rawPs origin => Sys2Proof.Machine.execPtpSync port sub domain rawPs origin s
  | .ptpAnnounce port sub domain clockClass best => Sys2Proof.Machine.execPtpAnnounce port sub domain clockClass best s
  | .ptpDelayReq port sub rawPs => Sys2Proof.Machine.execPtpDelayReq port sub rawPs s
  | .ptpDelayResp domain valid sent received => Sys2Proof.Machine.execPtpDelayResp domain valid sent received s
  | .ptpMasterSend port sub sync => Sys2Proof.Machine.execPtpMasterSend port sub sync s
  | .esmcReceive port sub ql => Sys2Proof.Machine.execEsmcReceive port sub ql s
  | .esmcSend => Sys2Proof.Machine.execEsmcSend s
  | .fhLinkDown port sub => Sys2Proof.Machine.execFhLinkDown port sub s
  | .fhLinkUp port sub => Sys2Proof.Machine.execFhLinkUp port sub s
  | .fhConfig p len => Sys2Proof.Machine.execFhConfig p len s
  | .fhStatus p len => Sys2Proof.Machine.execFhStatus p len s
  | .domainAnnounceTimeout d => Sys2Proof.Machine.execDomainAnnounceTimeout d s
  | .timeFirstLock => Sys2Proof.Machine.execTimeFirstLock s
  | .timeHoldover => Sys2Proof.Machine.execTimeHoldover s
  | .relock p => Sys2Proof.Machine.execRelock p s
  | .select p d => Sys2Proof.Machine.execSelect p d s
  | .timeSet p value => Sys2Proof.Machine.execTimeSet p value s
  | .timeFrameOfsWrite p value => Sys2Proof.Machine.execTimeFrameOfsWrite p value s
  | .timeOutCfgWrite p n value => Sys2Proof.Machine.execTimeOutCfgWrite p n value s
  | .timeOutAtWrite p n value => Sys2Proof.Machine.execTimeOutAtWrite p n value s
  | .oneShotFire n => Sys2Proof.Machine.execOneShotFire n s
  | .timeInEdge n falling => Sys2Proof.Machine.execTimeInEdge n falling s
  | .timeInCapRead p n => Sys2Proof.Machine.execTimeInCapRead p n s
  | .timeNowLowRead p => Sys2Proof.Machine.execTimeNowLowRead p s
  | .timeSynceWrite p value => Sys2Proof.Machine.execTimeSynceWrite p value s
  | .synceLockLoss => Sys2Proof.Machine.execSynceLockLoss s
  | .enable p b => Sys2Proof.Machine.execEnable p b s
  | .quiesce p b => Sys2Proof.Machine.execQuiesce p b s
  | .burgeeQuiet b => Sys2Proof.Machine.execBurgeeQuiet b s
  | .resume p b => Sys2Proof.Machine.execResume p b s
  | .disable p b => Sys2Proof.Machine.execDisable p b s
  | .force p b => Sys2Proof.Machine.execForce p b s
  | .forceDone b => Sys2Proof.Machine.execForceDone b s
  | .wipe p b => Sys2Proof.Machine.execWipe p b s
  | .burgeeWipeDone b => Sys2Proof.Machine.execBurgeeWipeDone b s
  | .release p b => Sys2Proof.Machine.execRelease p b s
  | .turnStart board => Sys2Proof.Machine.execTurnStart board s
  | .sliceStart => Sys2Proof.Machine.execSliceStart s
  | .sliceEnd board => Sys2Proof.Machine.execSliceEnd board s
  | .priorityLaunch cmd => Sys2Proof.Machine.execPriorityLaunch cmd s
  | .fallPoint cmd => Sys2Proof.Machine.execFallPoint cmd s
  | .commandPromotion cmd => Sys2Proof.Machine.execCommandPromotion cmd s
  | .latencyTargetMiss cmd cause => Sys2Proof.Machine.execLatencyTargetMiss cmd cause s
  | .commandOverrun cmd => Sys2Proof.Machine.execCommandOverrun cmd s
  | .floorInterval shortfalls => Sys2Proof.Machine.execFloorInterval shortfalls s
  | .cmdRateMillisecond => Sys2Proof.Machine.execCmdRateMillisecond s
  | .bgeRingCfgWrite p page value => Sys2Proof.Machine.execBgeRingCfgWrite p page value s
  | .commandDoorbell p page value => Sys2Proof.Machine.execCommandDoorbell p page value s
  | .commandRead b => Sys2Proof.Machine.execCommandRead b s
  | .kernel cmd => Sys2Proof.Machine.execKernel cmd s
  | .copyIn cmd => Sys2Proof.Machine.execCopyIn cmd s
  | .copyOut cmd => Sys2Proof.Machine.execCopyOut cmd s
  | .sync cmd => Sys2Proof.Machine.execSync cmd s
  | .commandWaitSatisfied cmd => Sys2Proof.Machine.execCommandWaitSatisfied cmd s
  | .commandAdmit cmd => Sys2Proof.Machine.execCommandAdmit cmd s
  | .commandCompletion cmd energyUj => Sys2Proof.Machine.execCommandCompletion cmd energyUj s
  | .copyHostCompletion cmd granules failed => Sys2Proof.Machine.execCopyHostCompletion cmd granules failed s
  | .msixUnmask p entry => Sys2Proof.Machine.execMsixUnmask p entry s
  | .bgeCplReadWrite p page value => Sys2Proof.Machine.execBgeCplReadWrite p page value s
  | .hostMemRead addr len => Sys2Proof.Machine.execHostMemRead addr len s
  | .hostMemWrite addr bytes poison => Sys2Proof.Machine.execHostMemWrite addr bytes poison s
  | .registerWrite a value => Sys2Proof.Machine.execRegisterWrite a value s
  | .rcRegisterRead a => Sys2Proof.Machine.execRcRegisterRead a s
  | .hlyWdogFeed p => Sys2Proof.Machine.execHlyWdogFeed p s
  | .hlyWdogCtrlWrite p value => Sys2Proof.Machine.execHlyWdogCtrlWrite p value s
  | .wdogHost => Sys2Proof.Machine.execWdogHost s
  | .wdogCore pc => Sys2Proof.Machine.execWdogCore pc s
  | .hlySramUncorr offset upset => Sys2Proof.Machine.execHlySramUncorr offset upset s
  | .hlySramCorr => Sys2Proof.Machine.execHlySramCorr s
  | .elogReadWrite p value => Sys2Proof.Machine.execElogReadWrite p value s
  | .suppressed code => Sys2Proof.Machine.execSuppressed code s
  | .anchor => Sys2Proof.Machine.execAnchor s
  | .flushComplete => Sys2Proof.Machine.execFlushComplete s
  | .pwrFailNFall => Sys2Proof.Machine.execPwrFailNFall s
  | .pwrFailNRise railsOk => Sys2Proof.Machine.execPwrFailNRise railsOk s
  | .fwStage p len => Sys2Proof.Machine.execFwStage p len s
  | .fwWrite p len => Sys2Proof.Machine.execFwWrite p len s
  | .fwWriteComplete readBack => Sys2Proof.Machine.execFwWriteComplete readBack s
  | .fwStatus p len => Sys2Proof.Machine.execFwStatus p len s
  | .recoveryBegin p len => Sys2Proof.Machine.execRecoveryBegin p len s
  | .recoveryChunk p len => Sys2Proof.Machine.execRecoveryChunk p len s
  | .recoveryFinish p len => Sys2Proof.Machine.execRecoveryFinish p len s
  | .logInfo p len => Sys2Proof.Machine.execLogInfo p len s
  | .logRead p len => Sys2Proof.Machine.execLogRead p len s
  | .logClear p len => Sys2Proof.Machine.execLogClear p len s
  | .sensors p len => Sys2Proof.Machine.execSensors p len s
  | .unknownRequest p code len => Sys2Proof.Machine.execUnknownRequest p code len s
  | .secNonce p len => Sys2Proof.Machine.execSecNonce p len s
  | .enroll p len => Sys2Proof.Machine.execEnroll p len s
  | .revoke p len => Sys2Proof.Machine.execRevoke p len s
  | .deploy p len => Sys2Proof.Machine.execDeploy p len s
  | .lifecycleRelease p len => Sys2Proof.Machine.execLifecycleRelease p len s
  | .lcReturn p len => Sys2Proof.Machine.execLcReturn p len s
  | .scrap p len => Sys2Proof.Machine.execScrap p len s
  | .epochCommit p len => Sys2Proof.Machine.execEpochCommit p len s
  | .secOwnerKeys p len => Sys2Proof.Machine.execSecOwnerKeys p len s
  | .getVersion req => Sys2Proof.Machine.execGetVersion req s
  | .getCapabilities req => Sys2Proof.Machine.execGetCapabilities req s
  | .negotiateAlgorithms req => Sys2Proof.Machine.execNegotiateAlgorithms req s
  | .getDigests req => Sys2Proof.Machine.execGetDigests req s
  | .getCertificate slot offset length => Sys2Proof.Machine.execGetCertificate slot offset length s
  | .challenge req => Sys2Proof.Machine.execChallenge req s
  | .getMeasurements req signed => Sys2Proof.Machine.execGetMeasurements req signed s
  | .energyWindowStart measured => Sys2Proof.Machine.execEnergyWindowStart measured s
  | .energyReconcile draws device baseband => Sys2Proof.Machine.execEnergyReconcile draws device baseband s
  | .pwrCapWrite p value => Sys2Proof.Machine.execPwrCapWrite p value s
  | .pwrAllowanceWrite p value => Sys2Proof.Machine.execPwrAllowanceWrite p value s
  | .peakPace => Sys2Proof.Machine.execPeakPace s
  | .sensorScan temps towers volts => Sys2Proof.Machine.execSensorScan temps towers volts s
  | .canaryScan minima => Sys2Proof.Machine.execCanaryScan minima s
  | .railFault rail mv => Sys2Proof.Machine.execRailFault rail mv s
  | .avsUpdate target => Sys2Proof.Machine.execAvsUpdate target s
  | .thermtrip sensor => Sys2Proof.Machine.execThermtrip sensor s
  | .heartbeatPeriod => Sys2Proof.Machine.execHeartbeatPeriod s
  | .heartbeat src bootCount health benched leaving => Sys2Proof.Machine.execHeartbeat src bootCount health benched leaving s
  | .suspect src target withdraw => Sys2Proof.Machine.execSuspect src target withdraw s
  | .expel target cause decider => Sys2Proof.Machine.execExpel target cause decider s
  | .depart src code => Sys2Proof.Machine.execDepart src code s
  | .join link src bootCount serial rejoin => Sys2Proof.Machine.execJoin link src bootCount serial rejoin s
  | .musterAdmit device => Sys2Proof.Machine.execMusterAdmit device s
  | .seqReset device => Sys2Proof.Machine.execSeqReset device s
  | .leave src health => Sys2Proof.Machine.execLeave src health s
  | .grant src granted => Sys2Proof.Machine.execGrant src granted s
  | .ledger device time => Sys2Proof.Machine.execLedger device time s
  | .ledgerAgeOut => Sys2Proof.Machine.execLedgerAgeOut s
  | .isolationTimeout => Sys2Proof.Machine.execIsolationTimeout s
  | .fenceLift link => Sys2Proof.Machine.execFenceLift link s
  | .leaveTimeout => Sys2Proof.Machine.execLeaveTimeout s
  | .benchRecovery => Sys2Proof.Machine.execBenchRecovery s
  | .healthScore m => Sys2Proof.Machine.execHealthScore m s
  | .healthBand => Sys2Proof.Machine.execHealthBand s
  | .telltaleStart psq patterns => Sys2Proof.Machine.execTelltaleStart psq patterns s
  | .telltaleDone pass sect => Sys2Proof.Machine.execTelltaleDone pass sect s
  | .cutBegin p len => Sys2Proof.Machine.execCutBegin p len s
  | .cutReady src cut => Sys2Proof.Machine.execCutReady src cut s
  | .cutHeld cut => Sys2Proof.Machine.execCutHeld cut s
  | .cutFail cut => Sys2Proof.Machine.execCutFail cut s
  | .cutTimeout cut => Sys2Proof.Machine.execCutTimeout cut s
  | .cutRelease p len => Sys2Proof.Machine.execCutRelease p len s
  | .cutStatus p len => Sys2Proof.Machine.execCutStatus p len s
  | .musterStatus p len => Sys2Proof.Machine.execMusterStatus p len s
  | .healthStatus p len => Sys2Proof.Machine.execHealthStatus p len s
  | .musterLeave p len => Sys2Proof.Machine.execMusterLeave p len s
  | .musterRejoin p len => Sys2Proof.Machine.execMusterRejoin p len s
  | .powerOn auxRose => Sys2Proof.Machine.execPowerOn auxRose s
  | .resetNFall lowNs => Sys2Proof.Machine.execResetNFall lowNs s
  | .resetNRise railsOk => Sys2Proof.Machine.execResetNRise railsOk s
  | .bootStepComplete r => Sys2Proof.Machine.execBootStepComplete r s
  | .refclkWaitTimeout freq => Sys2Proof.Machine.execRefclkWaitTimeout freq s
  | .clockLoss freq => Sys2Proof.Machine.execClockLoss freq s
  | .ucieModuleDown module => Sys2Proof.Machine.execUcieModuleDown module s
  | .mailboxRequestDone => Sys2Proof.Machine.execMailboxRequestDone s
  | .linkTrainingFailed link => Sys2Proof.Machine.execLinkTrainingFailed link s
  | .timeOutPeriodicEdge n => Sys2Proof.Machine.execTimeOutPeriodicEdge n s
  | .synceLockRegained => Sys2Proof.Machine.execSynceLockRegained s
  | .synceSourceHoldEnd => Sys2Proof.Machine.execSynceSourceHoldEnd s
  | .hoistRegionWipeDone => Sys2Proof.Machine.execHoistRegionWipeDone s
  | .hostSnoop addr => Sys2Proof.Machine.execHostSnoop addr s
  | .subCommandCancel src cmd => Sys2Proof.Machine.execSubCommandCancel src cmd s

end Sys2Proof.Machine
end

