-- ==== Sys2Proof/Machine/Tick.lean ====
section
/-! DEFINITION. One TIME cycle (R182, R183, R197, R247, R444, R445, R452). -/

namespace Sys2Proof.Machine

/-- Device time runs: from step 3 of boot on, while REFCLK is there and the device is out of reset. -/
def State.timeRuns (s : State) : Bool := !s.pwr.inReset && s.pwr.state != .off && decide (4 ≤ s.pwr.step) && !s.pwr.clockLost

/-- The accumulator gains 2^32 + RATE in each TIME cycle (R247). -/
def advanceTime (t : TimeUnit) : TimeUnit := { t with acc := t.acc + BitVec.ofInt 96 (2 ^ 32 + t.rate) }

/-- What a flit takes on a link, in 10 ps (R182). -/
def flitTime : Nat := 1216

/-- A link in UP sends the flit whose time has come (R182, R183). -/
def flitDueOn (l : Nat) (s : State) : State :=
  let k := s.link l
  if k.st = .up ∧ k.flitDue ≤ s.up * 100 then sendFlit l (s.setLink l { k with flitDue := k.flitDue + flitTime }) else s

/-- One TIME cycle passes: time runs, the links in UP send their flits, and messages that wait at the hub go on where they can (R183, R197). -/
def tick (s : State) : State :=
  let s := { s with up := s.up + 1, time := if s.timeRuns then advanceTime s.time else s.time }
  let s := forAll (s.links.map (·.1)) flitDueOn s
  if s.hub.waiting.isEmpty then s else forwardWaiting s

end Sys2Proof.Machine
end

