-- ==== Sys2Proof/Safety.lean ====
section
/-! DEFINITION. The terms that the statements use: when a command can have its effect, what stays as it was, and which states
are well kept. -/

namespace Sys2Proof.Machine

-- ───────────────────────── contexts on the squares

/-- The context `r` runs on physical square `p` (R60, R62): it is active, its share is wiped, it waits for nothing, an instruction stands at its place, no fault
has stopped its command, and its board reads the configuration in force (R48). -/
abbrev Ready (s : State) (r : CtxRef) (p : Nat) : Prop :=
  s.physOf r.sq = some p ∧ (s.ctx p r.slot).active = true ∧ (s.ctx p r.slot).wiping = false ∧ (s.ctx p r.slot).wait = .none ∧
    (s.ctx p r.slot).pc < (s.ctx p r.slot).codeLen ∧ s.haltOf p r.slot = none ∧ s.ownView (s.boardNo p r.slot) = true

/-- The context may issue now: the device issues instructions, the governor lets the burgee go on (R361), and the line at its place is in the instruction cache
or the memory controller serves its fetch (R56). -/
abbrev MayIssue (s : State) (r : CtxRef) (p : Nat) : Prop :=
  Ready s r p ∧ s.pwr.issueStop = false ∧ s.issueOpen p (s.ctx p r.slot).burgee = true ∧ s.codeServed p r.slot = true

/-- The context issues instruction `i`: the word fetched at its place is `i`'s and is not poisoned (R56, R62, R140). What `i` does starts from the state once the
line has been fetched, `fetchCode p r.slot s`. -/
abbrev Runs (i : Instr) (s : State) (r : CtxRef) (p : Nat) : Prop :=
  MayIssue s r p ∧ ∃ w, (fetchCode p r.slot s).codeWord p r.slot = some (w, false) ∧ encodeWord i = some w

/-- The context holds `c` and goes on at the next instruction. -/
def goOn (r : CtxRef) (p : Nat) (c : Ctx) (s : State) : State := advance p r.slot (s.setCtx p r.slot c)

/-- The context goes on at byte offset `t`. -/
def jumpTo (r : CtxRef) (p t : Nat) (s : State) : State := s.setCtx p r.slot { s.ctx p r.slot with pc := t }

/-- A jump of the context that holds `c`. -/
def jumpWith (r : CtxRef) (p t : Nat) (c : Ctx) (s : State) : State := jumpTo r p t (s.setCtx p r.slot c)

/-- The source selects read in order (R65). -/
def gather (c : Ctx) (sreg : BitVec 5) (fmt : Nat) (srcs : List (BitVec 6)) : Got (List VReg) :=
  srcs.foldl (fun (a : Got (List VReg)) x => match a with
    | .ok l c => match c.source x sreg fmt with
      | .ok v c => .ok (l ++ [v]) c
      | .stall => .stall
      | .fault rr t d => .fault rr t d
    | .stall => .stall
    | .fault rr t d => .fault rr t d) (.ok [] c)

/-- No field of a vector instruction is reserved and the queues it names are legal (R62, R64, R65). -/
abbrev VectorLegal (c : Ctx) (f : VecF) (fmts : List Nat) (imm : Nat) (srcs : List (BitVec 6)) (writes : Bool) : Prop :=
  fmts.contains f.fmt.toNat = true ∧ f.rnd ≠ 3 ∧ f.imm.toNat &&& (65535 - imm) = 0 ∧ badSource f.va = false ∧
    badSource f.vb = false ∧ badSource f.vc = false ∧ badDest f.vd = false ∧
    c.queuesLegal srcs (if writes then some f.vd else none) = true

-- ───────────────────────── the host interface

/-- The mailbox takes a request with this code now (R321, R378, R380, R389, R400). -/
abbrev MailboxFree (s : State) (code : Nat) : Prop :=
  s.hostSeen = true ∧ s.mbox.st ≠ .running ∧ s.mailboxRefuses code = none

/-- The manager's register writes have their effect: the function answers and the device is not halted (R305, R390). -/
abbrev ManagerServed (s : State) : Prop := s.hostSeen = true ∧ s.halted = false

-- ───────────────────────── cells

/-- Where the next downlink message of a cell lies, and its bytes with the entry's header (R208). -/
def messageSpan (c : Cell) (s : State) : Nat × Nat :=
  let a := c.dlBase + 64 * (s.nextEntry c).1
  (a, 16 + peekDev s (a + 4) 4)

/-- The cell is `c`, its directory entry is read, the radio stack has published a message for it, and the controllers serve its read (R124, R207, R212). -/
abbrev MessageReady (s : State) (cell : Nat) (c : Cell) : Prop :=
  s.cell cell = some c ∧ c.dirRead = true ∧ s.published c ≠ 0 ∧ s.ringServes (messageSpan c s).1 (messageSpan c s).2 false = true

/-- The state once the cell has taken its next message: its granules are read, and DL_READ passes the entry, in the cell and in its directory entry (R150, R208). -/
def taken (cell : Nat) (c : Cell) (s : State) : State :=
  let x := messageSpan c s
  let c' := { c with dlRead := (c.dlRead + (s.nextEntry c).2) % 2 ^ 32 }
  writeEntry c' 44 c'.dlRead ((readDev x.1 x.2 (noteField c' 40 4 s)).2.setCell cell c')

-- ───────────────────────── what is well kept, and what leaves what alone

/-- Every memory of the device holds its canonical form: addresses strictly rising, no listed zero. -/
def State.memoriesWf (s : State) : Bool :=
  s.tower.wf && s.scratch.wf && s.sram.wf && cellsWf s.hly.mram && cellsWf s.hly.nor && cellsWf s.elog.ring && cellsWf s.mbox.buf

/-- Commands that touch registers, links, ports, time, sensors and reports alone: no device memory, no context, no square. -/
def registerOnly : Instr → Bool
  | .ptpSync .. | .ptpAnnounce .. | .ptpDelayReq .. | .ptpDelayResp .. | .ptpMasterSend .. | .esmcReceive .. | .esmcSend
  | .fhLinkDown .. | .fhLinkUp .. | .fhConfig .. | .oneWayDelayMeasurement .. => true
  | .domainAnnounceTimeout .. | .timeFirstLock | .timeHoldover | .relock .. | .select .. | .timeSet .. | .timeFrameOfsWrite ..
  | .timeOutCfgWrite .. | .timeOutAtWrite .. | .oneShotFire .. | .timeOutPeriodicEdge .. | .timeInEdge .. | .timeInCapRead ..
  | .timeNowLowRead .. | .timeSynceWrite .. | .synceLockLoss | .synceLockRegained | .synceSourceHoldEnd => true
  | .linkProbe .. | .probeTimeout .. | .lightDetected .. | .farEndReturn .. | .linkTrainingDone .. | .linkTrainingFailed ..
  | .automaticPowerReduction .. | .linkMarginMeasure .. | .linkMargin .. | .linkPreFec .. => true
  | .pwrCapWrite .. | .pwrAllowanceWrite .. | .peakPace | .canaryScan .. | .railFault .. | .avsUpdate .. | .sensorScan ..
  | .energyWindowStart .. | .energyReconcile .. => true
  | .rcRegisterRead .. | .msixUnmask .. | .bgeRingCfgWrite .. | .commandDoorbell .. | .bgeCplReadWrite .. | .hostSnoop .. => true
  | .memStatus .. | .linkStatus .. | .fhStatus .. | .radioStatus .. | .fwStatus .. | .logInfo .. | .logRead .. | .sensors .. | .secNonce ..
  | .secOwnerKeys .. | .musterStatus .. | .healthStatus .. | .cutStatus .. | .unknownRequest .. | .mailboxRequestDone => true
  | .hlyWdogFeed .. | .hlyWdogCtrlWrite .. | .elogReadWrite .. | .suppressed .. | .anchor => true
  | .getVersion .. | .getCapabilities .. | .negotiateAlgorithms .. | .getDigests .. | .getCertificate .. | .challenge .. | .getMeasurements .. => true
  | .seqReset .. | .leave .. | .ledger .. | .ledgerAgeOut | .leaveTimeout | .benchRecovery | .healthScore .. | .healthBand | .cutBegin ..
  | .cutReady .. | .cutHeld .. | .commandPromotion .. => true
  | .linkIdentity .. | .spareSelectorSettled .. | .requestForward .. | .combineWindowClose .. | .requestRetransmit .. | .flitReceive .. | .heartbeat ..
  | .musterAdmit .. | .fenceLift .. | .musterLeave .. | .musterRejoin .. => true
  | _ => false

end Sys2Proof.Machine
end

