-- ==== Sys2Proof/Certificates/Slice0/Obligations.lean ====
section
/-! DEFINITION. The statements for the provers: every family of commands, every kind of state, the frames and the invariants. -/

open Sys2Proof Sys2Proof.Machine

/-- R462: SD takes SA op SB for the register forms of the integer operations, whatever the registers hold, and the sequencer
goes on; nothing else changes. Shifts take bits [5:0] of SB, MIN, MAX and SLT compare as signed. R462: the immediate forms take
IMM32 sign-extended to 64 bits as the second operand. R461, R462: NOP goes on; LIL and LIH write one half of SD; RDCSR writes
the register that IMM32 selects: TIME, CYCLE, SQUARE, SLOT, ROLLS. R56: `s` is the state once the instruction's line is in the
instruction cache. -/
def Obligations.ScalarResults : Prop :=
  (∀ (b : State) (r : CtxRef) (f : ScalarF) (p : Nat), f.rsv = 0 → f.imm = 0 →
    let s := fetchCode p r.slot b
    let c := s.ctx p r.slot
    let x := c.reg f.sa
    let y := c.reg f.sb
    let gives := fun (i : Instr) (v : Word) => Runs i b r p → exec i b = .next (goOn r p (c.setReg f.sd v) s)
    gives (.add r f) (x + y) ∧ gives (.sub r f) (x - y) ∧ gives (.mul r f) (x * y) ∧ gives (.andR r f) (x &&& y) ∧
    gives (.orR r f) (x ||| y) ∧ gives (.xorR r f) (x ^^^ y) ∧ gives (.shl r f) (x <<< (y.toNat % 64)) ∧
    gives (.shr r f) (x >>> (y.toNat % 64)) ∧ gives (.sra r f) (x.sshiftRight (y.toNat % 64)) ∧
    gives (.minR r f) (if x.toInt ≤ y.toInt then x else y) ∧ gives (.maxR r f) (if x.toInt < y.toInt then y else x) ∧
    gives (.slt r f) (if x.toInt < y.toInt then 1 else 0)) ∧
  (∀ (b : State) (r : CtxRef) (f : ScalarF) (p : Nat), f.rsv = 0 → f.sb = 0 →
    let s := fetchCode p r.slot b
    let c := s.ctx p r.slot
    let x := c.reg f.sa
    let y : Word := f.imm.signExtend 64
    let gives := fun (i : Instr) (v : Word) => Runs i b r p → exec i b = .next (goOn r p (c.setReg f.sd v) s)
    gives (.addi r f) (x + y) ∧ gives (.subi r f) (x - y) ∧ gives (.muli r f) (x * y) ∧ gives (.andi r f) (x &&& y) ∧
    gives (.ori r f) (x ||| y) ∧ gives (.xori r f) (x ^^^ y) ∧ gives (.shli r f) (x <<< (y.toNat % 64)) ∧
    gives (.shri r f) (x >>> (y.toNat % 64)) ∧ gives (.srai r f) (x.sshiftRight (y.toNat % 64)) ∧
    gives (.mini r f) (if x.toInt ≤ y.toInt then x else y) ∧ gives (.maxi r f) (if x.toInt < y.toInt then y else x) ∧
    gives (.slti r f) (if x.toInt < y.toInt then 1 else 0)) ∧
  (∀ (b : State) (r : CtxRef) (f : ScalarF) (cycle : BitVec 64) (p : Nat), f.rsv = 0 → f.sa = 0 → f.sb = 0 →
    let s := fetchCode p r.slot b
    let c := s.ctx p r.slot
    let old := c.reg f.sd
    let gives := fun (i : Instr) (v : Word) => Runs i b r p → exec i b = .next (goOn r p (c.setReg f.sd v) s)
    (f.sd = 0 → f.imm = 0 → Runs (.nop r f) b r p → exec (.nop r f) b = .next (advance p r.slot s)) ∧
    gives (.lil r f) (old.extractLsb' 32 32 ++ f.imm) ∧
    gives (.lih r f) (f.imm ++ old.extractLsb' 0 32) ∧
    (f.imm = 0 → gives (.rdcsr r f cycle) (BitVec.ofNat 64 s.stamp)) ∧
    (f.imm = 1 → gives (.rdcsr r f cycle) cycle) ∧
    (f.imm = 2 → gives (.rdcsr r f cycle) (BitVec.ofNat 64 c.sqLogical)) ∧
    (f.imm = 3 → gives (.rdcsr r f cycle) (BitVec.ofNat 64 r.slot)) ∧
    (f.imm = 4 → ∀ d, s.cmd c.cmd = some d →
      gives (.rdcsr r f cycle) (BitVec.ofNat 64 (d.rolls.steals + d.rolls.combines + d.rolls.ties + d.rolls.routes + d.rolls.falls))))

/-- R462: a branch whose condition holds goes to its target, one whose condition fails goes on; J goes to its target; CALL
pushes the offset of the next instruction while fewer than 16 stand there, RET pops one; LOOP enters its body or skips it. R69:
a target outside the code is ILLEGAL, a 17th call or a RET without one is STACK. R462: LOOP with a count above zero pushes a
level whose body is the IMM32 instructions that follow; with a count of zero it goes on behind them; R69: a fifth level is
STACK. -/
def Obligations.BranchesCallsAndLoops : Prop :=
  (∀ (b : State) (r : CtxRef) (f : ScalarF) (p : Nat), f.rsv = 0 → f.sd = 0 → f.imm.toNat % 8 = 0 →
    let s := fetchCode p r.slot b
    let c := s.ctx p r.slot
    let target : Int := c.pc + f.imm.toInt
    let inside := 0 ≤ target ∧ target < c.codeLen
    let gives := fun (i : Instr) (t : State) => Runs i b r p → exec i b = .next t
    let branches := fun (i : Instr) (cond : Prop) =>
      (¬ cond → gives i (advance p r.slot s)) ∧
      (cond → inside → gives i (jumpTo r p target.toNat s)) ∧
      (cond → ¬ inside → gives i (contextFault p r.slot 0x01 0xFF 0 s))
    branches (.beq r f) (c.reg f.sa = c.reg f.sb) ∧
    branches (.bne r f) (c.reg f.sa ≠ c.reg f.sb) ∧
    branches (.blt r f) ((c.reg f.sa).toInt < (c.reg f.sb).toInt) ∧
    branches (.bge r f) ((c.reg f.sb).toInt ≤ (c.reg f.sa).toInt) ∧
    (f.sa = 0 → f.sb = 0 →
      branches (.jump r f) True ∧
      (inside → c.calls.length < 16 →
        gives (.call r f) (jumpWith r p target.toNat { c with calls := (c.pc + 8) :: c.calls } s)) ∧
      (inside → 16 ≤ c.calls.length → gives (.call r f) (contextFault p r.slot 0x07 0xFF 0 s)) ∧
      (f.imm = 0 → c.calls = [] → gives (.ret r f) (contextFault p r.slot 0x07 0xFF 0 s)) ∧
      (f.imm = 0 → ∀ back rest, c.calls = back :: rest → back < c.codeLen →
        gives (.ret r f) (jumpWith r p back { c with calls := rest } s)))) ∧
  (∀ (b : State) (r : CtxRef) (f : ScalarF) (p : Nat), f.rsv = 0 → f.sd = 0 → f.sb = 0 → f.imm ≠ 0 → Runs (.loop r f) b r p →
    let s := fetchCode p r.slot b
    let c := s.ctx p r.slot
    let stop := c.pc + 8 + 8 * f.imm.toNat
    let behind := loopNext c.loops stop
    (c.loops.length < 4 → c.reg f.sa ≠ 0 →
      exec (.loop r f) b = .next (goOn r p { c with loops := { start := c.pc + 8, stop := stop, left := (c.reg f.sa).toNat } :: c.loops } s)) ∧
    (c.loops.length < 4 → c.reg f.sa = 0 → exec (.loop r f) b = .next (jumpWith r p behind.1 { c with loops := behind.2 } s)) ∧
    (4 ≤ c.loops.length → exec (.loop r f) b = .next (contextFault p r.slot 0x07 0xFF 0 s)))

/-- R57, R462: a scalar load whose line is in the data cache and not poisoned there writes SD with the bytes, zero-extended; a
store to a line in the cache overlays its low bytes and marks the line dirty; both are open to time (R330). The address is SA
plus IMM32 sign-extended; it must lie in the burgee's regions and be aligned. R57: a load that misses waits for its line; the
fill brings the line's 64 bytes from device memory into the cache and the access completes as on a hit. Stated for an 8-byte
load of a line whose granules are not poisoned, into a cache that is not full, where the memory controller serves the read. -/
def Obligations.ScalarMemory : Prop :=
  (∀ (b : State) (r : CtxRef) (f : ScalarF) (p : Nat) (l : CacheLine), f.rsv = 0 →
    let s := openToTime p r.slot (fetchCode p r.slot b)
    let c := (fetchCode p r.slot b).ctx p r.slot
    let a := (c.reg f.sa + f.imm.signExtend 64).toNat
    (s.square p).line r.slot a = some l →
    let loads := fun (n : Nat) (i : Instr) => Runs i b r p → f.sb = 0 → s.cfg.owns c.burgee a n = true → a % n = 0 →
      l.poison.getD (a % 64 / 32) false = false →
      exec i b = .next (goOn r p (c.setReg f.sd (BitVec.ofNat 64 (fieldAt l.bytes (a % 64) n))) s)
    let stores := fun (n : Nat) (i : Instr) => Runs i b r p → f.sd = 0 → s.cfg.owns c.burgee a n = true → a % n = 0 →
      exec i b = .next (advance p r.slot (s.setSquare p { s.square p with
        cache := (s.square p).cache.map fun x => if x.slot = l.slot ∧ x.addr = l.addr
          then { l with bytes := overlay l.bytes (a % 64) (leBytes n (c.reg f.sb).toNat), dirty := true } else x }))
    loads 1 (.ld8 r f) ∧ loads 2 (.ld16 r f) ∧ loads 4 (.ld32 r f) ∧ loads 8 (.ld64 r f) ∧
    stores 1 (.st8 r f) ∧ stores 2 (.st16 r f) ∧ stores 4 (.st32 r f) ∧ stores 8 (.st64 r f)) ∧
  (∀ (s : State) (r : CtxRef) (f : ScalarF) (p victim : Nat) (upset : List Upset), s.physOf r.sq = some p → f.rsv = 0 → f.sb = 0 →
    let c := s.ctx p r.slot
    let a := (c.reg f.sa + f.imm.signExtend 64).toNat
    let line := a / 64 * 64
    c.wait = .line (.ld64 r f) line → s.fillPasses p r.slot line victim = true → s.cfg.owns c.burgee a 8 = true → a % 8 = 0 →
    (s.square p).cache.length < 512 → (s.square p).line r.slot a = none →
    let m := (disturbSpan line 64 upset s).tower
    (m.read s.cfg.key line 32).2 = false → (m.read s.cfg.key (line + 32) 32).2 = false →
    let bytes := (m.read s.cfg.key line 32).1 ++ (m.read s.cfg.key (line + 32) 32).1
    let filled := fillLine p r.slot line victim upset (s.setCtx p r.slot { c with wait := .none })
    let t := openToTime p r.slot (fetchCode p r.slot filled)
    Runs (.ld64 r f) filled r p →
    exec (.dataCacheLineFill r victim upset) s =
      .next (goOn r p (({ c with wait := .none } : Ctx).setReg f.sd (BitVec.ofNat 64 (fieldAt bytes (a % 64) 8))) t) ∧
    (filled.square p).cache = (s.square p).cache ++
      [{ slot := r.slot, addr := line, bytes := bytes, dirty := false, poison := [false, false] }])

/-- R69: TRAP faults its context with USER and IMM32 as the detail. R62, R118: END ends a member whose write streams and tiles
have ended while no other member waits at a barrier; one that has not finished writing waits. R56, R62, R140: an instruction
whose granule is poisoned in the instruction cache faults with POISON and the instruction's device address; a word of a
reserved class or opcode faults with ILLEGAL. -/
def Obligations.TrapAndEnd : Prop :=
  (∀ (b : State) (r : CtxRef) (f : ScalarF) (p : Nat), f.rsv = 0 → f.sd = 0 → f.sa = 0 → f.sb = 0 →
    let s := fetchCode p r.slot b
    let c := s.ctx p r.slot
    (Runs (.trap r f) b r p → exec (.trap r f) b = .next (contextFault p r.slot 0x0B 0xFF f.imm.toNat s)) ∧
    (f.imm = 0 → Runs (.endK r f 0) b r p →
      (s.barrierWaits c = false → s.endReady p r.slot = true → s.linesPass p r.slot = true →
        exec (.endK r f 0) b = .next (finishEnd p r.slot s)) ∧
      (s.barrierWaits c = false → s.endReady p r.slot = false →
        exec (.endK r f 0) b = .next (s.setCtx p r.slot { c with wait := .ending })) ∧
      (s.barrierWaits c = true → exec (.endK r f 0) b = .next (contextFault p r.slot 0x08 0xFF 0 s)))) ∧
  (∀ (b : State) (r : CtxRef) (f : ScalarF) (p : Nat) (i : Instr) (w : Word), MayIssue b r p →
    i ∈ [Instr.nop r f, .add r f, .addi r f, .trap r f, .jump r f, .lil r f] →
    let s := fetchCode p r.slot b
    (s.codeWord p r.slot = some (w, true) →
      exec i b = .next (contextFault p r.slot 0x06 0xFF (s.ctx p r.slot).codeAt s)) ∧
    (s.codeWord p r.slot = some (w, false) → decodeWord r w = none → exec i b = .next (contextFault p r.slot 0x01 0xFF 0 s)))

/-- R63, R64: QWAIT goes on once COUNT entries (inbound) or COUNT free places (outbound) are there; QDROP discards COUNT
entries; QSTAT reads the occupancy, bit 7 whether a LAST entry is present and bit 8 whether the queue has ended; QPUSH and QPOP
move COUNT granules between the share and the queue. R64: too few entries stall the context, and on an ended queue fault with
QUEUE_END. R64, R129: a context stalled at QWAIT completes it when the entries have come, and the stall's cycles are counted. -/
def Obligations.QueueInstructions : Prop :=
  (∀ (b : State) (r : CtxRef) (f : QueueF) (p : Nat), f.rsv = 0 → f.count.toNat ≠ 0 → f.count.toNat ≤ 64 →
    let s := fetchCode p r.slot b
    let c := s.ctx p r.slot
    let q := f.q.toNat
    let n := f.count.toNat
    let a := (c.reg f.sa).toNat
    let inShare := shareCheck c a (32 * n) = none
    let gives := fun (i : Instr) (t : State) => Runs i b r p → exec i b = .next t
    c.indexQueue q = false →
    (f.sd = 0 → f.sa = 0 → c.outbound q = true → n ≤ 64 - (c.queue q).length →
      gives (.qwait r f) (goOn r p (c.touch q) s)) ∧
    (f.sd = 0 → f.sa = 0 → c.outbound q = true → 64 - (c.queue q).length < n →
      gives (.qwait r f) (s.setCtx p r.slot { c.touch q with wait := .queue (.qwait r f) })) ∧
    (f.sd = 0 → f.sa = 0 → c.outbound q = false →
      (n ≤ (c.queue q).length → gives (.qwait r f) (goOn r p (c.touch q) s)) ∧
      ((c.queue q).length < n → (c.touch q).ended q = true →
        gives (.qwait r f) (contextFault p r.slot 0x05 0xFF 0 (s.setCtx p r.slot (c.touch q)))) ∧
      ((c.queue q).length < n → (c.touch q).ended q = false →
        gives (.qwait r f) (s.setCtx p r.slot { c.touch q with wait := .queue (.qwait r f) })) ∧
      (n ≤ (c.queue q).length →
        gives (.qdrop r f) (goOn r p ((((c.touch q).setQueue q ((c.queue q).drop n)).countUnused ((c.queue q).take n))) s))) ∧
    (f.sa = 0 → gives (.qstat r f) (goOn r p (c.setReg f.sd (BitVec.ofNat 64 ((c.queue q).length +
      (if (c.queue q).any (·.last) then 128 else 0) + (if c.ended q then 256 else 0)))) s)) ∧
    (f.sd = 0 → c.outbound q = true → inShare → n ≤ 64 - (c.queue q).length →
      (readPad p c.shareBase a (32 * n) s).2 = false →
      gives (.qpush r f) (goOn r p ((c.markRead a (32 * n)).push q
        ((chunksOf 32 n (readPad p c.shareBase a (32 * n) s).1).map bytesGranule)) s)) ∧
    (f.sd = 0 → c.outbound q = false → inShare → ∀ l c', (c.touch q).pop q n = .ok l c' →
      gives (.qpop r f) (advance p r.slot (writePad p c.shareBase a (l.flatMap granuleBytes) false (s.setCtx p r.slot c'))))) ∧
  (∀ (s : State) (r : CtxRef) (f : QueueF) (p cycles : Nat), f.rsv = 0 → f.sd = 0 → f.sa = 0 → f.count.toNat ≠ 0 → f.count.toNat ≤ 64 →
    let c := s.ctx p r.slot
    let q := f.q.toNat
    let counted := countStall p r.slot (.qwait r f) cycles (s.setCtx p r.slot { c with wait := .none })
    let t := fetchCode p r.slot counted
    let c' := t.ctx p r.slot
    s.physOf r.sq = some p → c.wait = .queue (.qwait r f) → Runs (.qwait r f) counted r p →
    c'.indexQueue q = false → c'.outbound q = false → f.count.toNat ≤ (c'.queue q).length →
    exec (.queueStallResume r cycles) s = .next (goOn r p (c'.touch q) t))

/-- R65, R66: a lane-wise vector instruction whose fields are legal and whose operands are ready completes: its result goes to
the destination select, its flags to the command, draws move the generator on, and the sequencer goes on; every other effect is
that of reading the operands. R65, R66: VRMAX also writes the index of the largest lane to SREG; VPERM reads one or two sources
by its pattern; VCMP writes the predicate that IMM16[6:4] names; they complete under the same conditions. R65: VLD writes the
destination's selected lanes from 512 bytes of the share at s[SREG] + IMM16 × 32; VST writes the selected lanes there; both
complete where the span lies in the share, is granule aligned and, for VLD, holds no poison. -/
def Obligations.VectorInstructionsComplete : Prop :=
  (∀ (b : State) (r : CtxRef) (f : VecF) (p : Nat) (i : Instr) (fmts : List Nat) (imm : Nat) (srcs : List (BitVec 6)) (l : List VReg) (c' : Ctx),
    Runs i b r p →
    (i, fmts, imm, srcs) ∈
      [(.vadd r f, [0, 1, 2, 3, 4], 0, [f.va, f.vb]), (.vsub r f, [0, 1, 2, 3, 4], 0, [f.va, f.vb]),
       (.vmul r f, [0, 1, 2, 3, 4], 0, [f.va, f.vb]), (.vfma r f, [0, 1, 2, 3, 4], 0, [f.va, f.vb, f.vc]),
       (.vmax r f, [0, 1, 2, 3, 4], 0, [f.va, f.vb]), (.vmin r f, [0, 1, 2, 3, 4], 0, [f.va, f.vb]),
       (.vabs r f, [0, 1, 2, 3, 4], 0, [f.va]), (.vneg r f, [0, 1, 2, 3, 4], 0, [f.va]),
       (.vcvt r f, [0, 1, 2, 3, 4, 5, 6, 7], 0x17, [f.va]), (.vsel r f, [0, 1, 2, 3, 4], 0, [f.va, f.vb]),
       (.vexp r f, [0, 1, 2], 0, [f.va]), (.vlog r f, [0, 1, 2], 0, [f.va]), (.vrcp r f, [0, 1, 2], 0, [f.va]),
       (.vrsq r f, [0, 1, 2], 0, [f.va]), (.vtanh r f, [0, 1, 2], 0, [f.va]), (.vsig r f, [0, 1, 2], 0, [f.va]),
       (.vrsum r f, [0, 1, 2, 3, 4], 0xFF, [f.va]), (.vshift r f, [3, 4], 0x3F, [f.va]), (.vlogic r f, [3, 4], 3, [f.va, f.vb])] →
    let c := (fetchCode p r.slot b).ctx p r.slot
    VectorLegal c f fmts imm srcs true → gather c f.sreg f.fmt.toNat srcs = .ok l c' → c.destReady f.vd = true →
    ∃ (v : VReg) (sr : Word) (flags : Nat) (lost : Bool),
      let result := { c' with sr := sr }
      let s := fetchCode p r.slot (if lost then breakReplay c.cmd b else b)
      exec i b = .next (advance p r.slot (raiseFlags c.cmd flags (s.setCtx p r.slot (result.writeDest f.vd v))))) ∧
  (∀ (b : State) (r : CtxRef) (f : VecF) (p : Nat) (l : List VReg) (c' : Ctx),
    let s := fetchCode p r.slot b
    let c := s.ctx p r.slot
    let fmts := [0, 1, 2, 3, 4]
    let pat := f.imm.toNat % 4
    let permSrcs := if pat = 1 ∨ pat = 2 then [f.va, f.vb] else [f.va]
    (Runs (.vrmax r f) b r p → VectorLegal c f fmts 0 [f.va] true → gather c f.sreg f.fmt.toNat [f.va] = .ok l c' → c.destReady f.vd = true →
      ∃ v, exec (.vrmax r f) b = .next (goOn r p ((c'.setReg f.sreg (BitVec.ofNat 64
        ((largestLane f.fmt.toNat (l.getD 0 0)).map (·.1) |>.getD 0))).writeDest f.vd v) s)) ∧
    (Runs (.vperm r f) b r p → VectorLegal c f fmts 3 permSrcs true → gather c f.sreg f.fmt.toNat permSrcs = .ok l c' → c.destReady f.vd = true →
      ∃ v, exec (.vperm r f) b = .next (goOn r p (c'.writeDest f.vd v) s)) ∧
    (Runs (.vcmp r f) b r p → VectorLegal c f fmts 0x77 [f.va, f.vb] false → f.imm.toNat % 8 ≠ 7 → gather c f.sreg f.fmt.toNat [f.va, f.vb] = .ok l c' →
      ∃ m, exec (.vcmp r f) b = .next (goOn r p (c'.setPred (f.imm.toNat / 16 % 8) m) s))) ∧
  (∀ (b : State) (r : CtxRef) (f : VecF) (p : Nat),
    let s := fetchCode p r.slot b
    let c := s.ctx p r.slot
    let a := (c.reg f.sreg).toNat + f.imm.toNat * 32
    f.fmt.toNat ≤ 4 → f.rnd ≠ 3 → badSource f.va = false → badSource f.vb = false → badSource f.vc = false → badDest f.vd = false →
    a + 512 ≤ c.shareLen → a % 32 = 0 →
    (Runs (.vld r f) b r p → c.queuesLegal [] (some f.vd) = true → c.destReady f.vd = true → (readPad p c.shareBase a 512 s).2 = false →
      ∃ v, exec (.vld r f) b = .next (goOn r p ((c.markRead a 512).writeDest f.vd v) s) ∧
        ∀ j, j < laneCount f.fmt.toNat → (c.pred f.pred.toNat).getLsbD j = true →
          lane f.fmt.toNat v j = lane f.fmt.toNat (BitVec.ofNat 4096 (leNat (readPad p c.shareBase a 512 s).1)) j) ∧
    (Runs (.vst r f) b r p → c.queuesLegal [f.va] none = true → ∀ v c', c.source f.va f.sreg f.fmt.toNat = .ok v c' →
      (∀ j, j < laneCount f.fmt.toNat → (c.pred f.pred.toNat).getLsbD j = true) →
      exec (.vst r f) b = .next (advance p r.slot ((List.range 16).foldl (fun s i =>
        writePad p c.shareBase (a + 32 * i) (granuleBytes (v.extractLsb' (256 * i) 256)) false s) (s.setCtx p r.slot c')))))

/-- R65, R66, R110: what the lanes of a register destination hold after the integer and moving vector instructions on register
sources, in every lane that the predicate selects; the other lanes keep their bits. INT32 (FMT 3) and INT16 (FMT 4). Without SAT
a sum wraps; VSHIFT shifts by IMM16[4:0]; VSEL takes VA where the predicate is set and VB elsewhere. -/
def Obligations.IntegerLaneResults : Prop :=
  ∀ (b : State) (r : CtxRef) (f : VecF) (p : Nat), f.fmt = 3 ∨ f.fmt = 4 → f.rnd = 0 →
    f.vd.toNat < 32 → f.va.toNat < 32 → f.vb.toNat < 32 → badSource f.vc = false →
    let c := (fetchCode p r.slot b).ctx p r.slot
    let fmt := f.fmt.toNat
    let w := laneBits fmt
    let x := fun j => lane fmt (c.vreg f.va.toNat) j
    let y := fun j => lane fmt (c.vreg f.vb.toNat) j
    let lanes := fun (i : Instr) (op : Nat → Nat) => Runs i b r p → ∃ t, exec i b = .next t ∧ ∀ j, j < laneCount fmt →
      lane fmt ((t.ctx p r.slot).vreg f.vd.toNat) j =
        if (c.pred f.pred.toNat).getLsbD j then op j % 2 ^ w else lane fmt (c.vreg f.vd.toNat) j
    (f.sat = false → f.imm = 0 → lanes (.vadd r f) (fun j => x j + y j)) ∧
    (f.sat = false → f.imm = 0 → lanes (.vsub r f) (fun j => x j + (2 ^ w - y j))) ∧
    (f.sat = false → f.imm = 0 → lanes (.vmul r f) (fun j => x j * y j)) ∧
    (f.imm = 0 → lanes (.vmax r f) (fun j => if toSigned w (x j) < toSigned w (y j) then y j else x j)) ∧
    (f.imm = 0 → lanes (.vmin r f) (fun j => if toSigned w (x j) < toSigned w (y j) then x j else y j)) ∧
    (f.imm.toNat < 32 → lanes (.vshift r f) (fun j => x j * 2 ^ (f.imm.toNat % 32))) ∧
    (f.imm = 0 → lanes (.vlogic r f) (fun j => x j &&& y j)) ∧
    (f.imm = 1 → lanes (.vlogic r f) (fun j => x j ||| y j)) ∧
    (f.imm = 2 → lanes (.vlogic r f) (fun j => x j ^^^ y j)) ∧
    (f.imm = 0 → Runs (.vsel r f) b r p → ∃ t, exec (.vsel r f) b = .next t ∧ ∀ j, j < laneCount fmt →
      lane fmt ((t.ctx p r.slot).vreg f.vd.toNat) j = if (c.pred f.pred.toNat).getLsbD j then x j else y j)

/-- R67, R57, R128: WAITSEM on an address of the burgee's own regions makes the context wait with the comparison;
WAITSEM_SATISFIED lets it go on once the stored value satisfies it (MODE 0 at least, 1 equal, 2 not equal) and drops the
context's cache lines. R67, R57: with every earlier write of the context performed, SIGNALSEM writes back the context's dirty
lines, then writes SB to the semaphore (MODE 0) or adds SB to it (MODE 1), and the context goes on; FENCE goes on at once where
there is nothing to wait for. The memory controllers serve the accesses.
R67, R69, R80: a BARRIER that meets no other ID and no ended member waits; a member that waits with another ID or has ended
faults it with BARRIER; once every member of the level waits there, on this device and on the others, BARRIER_COMPLETE lets all
of this device go on; one that waits elsewhere with another ID faults the context. -/
def Obligations.SynchronisationInstructions : Prop :=
  (∀ (b : State) (r : CtxRef) (f : SyncF) (p : Nat),
    let s := openToTime p r.slot (fetchCode p r.slot b)
    let c := s.ctx p r.slot
    let a := (c.reg f.sa).toNat
    Runs (.waitsem r f) b r p → f.rsvHi = 0 → f.rsvLo = 0 → f.level = 0 → f.id = 0 → f.mode.toNat ≤ 2 →
    a < 2 ^ 44 → s.cfg.owns c.burgee a 8 = true → a % 8 = 0 →
    exec (.waitsem r f) b = .next (refillHub (s.setCtx p r.slot { c with wait := .sem a (c.reg f.sb) f.mode.toNat false }))) ∧
  (∀ (s : State) (r : CtxRef) (p : Nat), s.physOf r.sq = some p →
    let c := s.ctx p r.slot
    ∀ a v m u, c.wait = .sem a v m u → a < 2 ^ 44 → s.passesFor p c.burgee a 8 false = true →
      let got := s.tower.read s.cfg.key a 8
      let have_ := BitVec.ofNat 64 (leNat got.1)
      got.2 = false → (if m = 0 then v ≤ have_ else if m = 1 then have_ = v else have_ ≠ v) →
      ∃ t, exec (.waitsemSatisfied r) s = .next t ∧ (t.ctx p r.slot).wait = .none ∧
        (t.ctx p r.slot).pc = (loopNext c.loops (c.pc + 8)).1 ∧
        (t.square p).cache = (s.square p).cache.filter (·.slot != r.slot) ∧ t.tower = s.tower) ∧
  (∀ (b : State) (r : CtxRef) (f : SyncF) (p : Nat), f.rsvHi = 0 → f.rsvLo = 0 → f.level = 0 → f.id = 0 →
    let s := openToTime p r.slot (fetchCode p r.slot b)
    let c := s.ctx p r.slot
    let a := (c.reg f.sa).toNat
    let next := loopNext c.loops (c.pc + 8)
    (∀ o ∈ s.hub.outs, ¬ (o.kind = 5 ∧ o.psq = p ∧ o.slot = r.slot)) →
    (Runs (.signalsem r f) b r p → f.mode.toNat ≤ 1 → a < 2 ^ 44 → s.cfg.owns c.burgee a 8 = true → a % 8 = 0 →
      s.writesDone p r.slot = true → s.linesPass p r.slot = true → s.signalPasses p r.slot a (f.mode == 1) = true →
      ∃ t, exec (.signalsem r f) b = .next t ∧ t.ctx p r.slot = { c with pc := next.1, loops := next.2 } ∧
        t.tower = (signalLocal a (c.reg f.sb) (f.mode == 1) (writeBackAll p r.slot s)).tower) ∧
    (Runs (.fence r f) b r p → f.sa = 0 → f.sb = 0 →
      (f.mode = 0 ∧ s.tilesOut p r.slot = false) ∨ (f.mode = 1 ∧ s.writesOut p r.slot false = false) →
      ∃ t, exec (.fence r f) b = .next t ∧ t.ctx p r.slot = { c with pc := next.1, loops := next.2 })) ∧
  (∀ (b : State) (r : CtxRef) (f : SyncF) (p : Nat), Runs (.barrier r f) b r p →
    f.rsvHi = 0 → f.rsvLo = 0 → f.mode = 0 → f.sa = 0 → f.sb = 0 →
    let s := fetchCode p r.slot b
    let c := s.ctx p r.slot
    let level := f.level.toNat
    let others := (s.levelMembers c level).filter fun m => !(m.psq == p && m.slot == r.slot)
    s.badLevel c level = false →
    ((∀ m ∈ others, ¬ (m.started = true ∧ m.ended = true) ∧ ∀ id, s.barrierAt m level = some id → id = f.id.toNat) →
      exec (.barrier r f) b = .next ((openToTime p r.slot s).setCtx p r.slot { c with wait := .barrier level f.id.toNat })) ∧
    ((∃ m ∈ others, (m.started = true ∧ m.ended = true) ∨ ∃ id, s.barrierAt m level = some id ∧ id ≠ f.id.toNat) →
      exec (.barrier r f) b = .next (contextFault p r.slot 0x08 0xFF 0 s))) ∧
  (∀ (s : State) (r : CtxRef) (p l id : Nat) (d : Cmd) (x : Level) (remote : List Nat), s.physOf r.sq = some p →
    let c := s.ctx p r.slot
    c.wait = .barrier l id → s.cmd c.cmd = some d → s.levelAt d c.sqLogical l = some x → remote.length = s.remoteCount x →
    (∀ m ∈ s.levelMembers c l, s.barrierAt m l = some id) →
    ((∀ i ∈ remote, i = id) →
      ∃ t, exec (.barrierComplete ⟨r, remote⟩) s = .next t ∧ ∀ m ∈ s.levelMembers c l, (t.ctx m.psq m.slot).wait = .none) ∧
    (∀ i ∈ remote, i ≠ id → exec (.barrierComplete ⟨r, remote⟩) s = .next (contextFault p r.slot 0x08 0xFF 0 s)))

/-- R62, R63, R65, R67, R68, R90, R91, R92, R461: an instruction and its word agree. The word of an instruction, with every
operand field at every value, decodes to that instruction for every context; what END and RDCSR take from outside stands in no
word. A word that decodes is the word of what it decodes to, so no bit of it is dropped; a word of a reserved class or opcode
decodes to nothing, and only a word that no instruction has. -/
def Obligations.InstructionWordsRoundTrip : Prop :=
  (∀ (i : Instr) (w : Word), encodeWord i = some w →
    ∃ r, decodeWord r w = some i ∨ (∃ f n, i = .endK r f n ∧ decodeWord r w = some (.endK r f 0)) ∨
      ∃ f v, i = .rdcsr r f v ∧ decodeWord r w = some (.rdcsr r f 0)) ∧
  (∀ (r : CtxRef) (w : Word) (i : Instr), decodeWord r w = some i → encodeWord i = some w) ∧
  (∀ (r : CtxRef) (w : Word), (decodeWord r w = none ↔ ∀ i, encodeWord i ≠ some w)) ∧
  (∀ (r : CtxRef) (w : Word), 6 ≤ wordClass w → decodeWord r w = none)

/-- R127, R128: CHECKGEN asks once the stream's watched reads have ended; a home answers a query with the page's write
generation, in the order of the burgee's requests; with every page at home and every earlier write performed, CHECKGEN_RESULT
writes to SB the number of pages whose generation moved (bits 15:0), whether the list overflowed (bit 62) and whether either is
so (bit 63), and clears the watch list. -/
def Obligations.GenerationChecks : Prop :=
  (∀ (b : State) (r : CtxRef) (f : SyncF) (p : Nat), Runs (.checkgen r f) b r p →
    f.rsvHi = 0 → f.rsvLo = 0 → f.mode = 0 → f.sa = 0 → f.level = 0 →
    let s := openToTime p r.slot (fetchCode p r.slot b)
    let i := f.id.toNat
    i < 16 → (∀ o ∈ s.hub.outs, ¬ (o.kind = 5 ∧ o.psq = p ∧ o.slot = r.slot)) →
    (∀ g ∈ (s.square p).tags, ¬ (g.slot = r.slot ∧ g.stream = i ∧ g.dead = false)) →
    ∃ t w, exec (.checkgen r f) b = .next t ∧ (t.ctx p r.slot).wait = .gen i f.sb.toNat true w) ∧
  (∀ (b : State) (src burgee seq tag page : Nat), page < 2 ^ 32 →
    let q : FabReq := { src := src, burgee := burgee, seq := seq, retry := false, radio := b.radioBurgee burgee, rsvZero := true
                        addr := BitVec.ofNat 64 (b.deviceId * 2 ^ 44 + page * 4096), size := 1, fmt := 0, payload := [], tag := tag, watch := false
                        tie := false }
    let s := takeIn (isRequest 0x41 q) b
    s.waitsAtHome q = false → s.seqAhead src burgee seq = 0 →
    exec (.generationQuery src burgee ⟨seq, tag⟩ page) b = .next (drainHome (performNow 0x41 q s).hub.homeWait.length (performNow 0x41 q s)) ∧
    (performOp 0x41 q s).1.gen = some (Assoc.get s.tow.gens page 0).toNat ∧ (performOp 0x41 q s).1.status = 0) ∧
  (∀ (s : State) (r : CtxRef) (p i sb : Nat) (w : List (Nat × Nat)) (t0 : Stream), s.physOf r.sq = some p →
    let c := s.ctx p r.slot
    c.wait = .gen i sb true w → w.all s.writeOver = true → (∀ o ∈ s.hub.outs, ¬ (o.kind = 7 ∧ o.psq = p ∧ o.slot = r.slot)) →
    c.streams[i]? = some t0 → BitVec.ofNat 5 sb ≠ 0 → (∀ e ∈ t0.watchList, (s.pageHome c t0 e.1).1 = s.deviceId) →
    let n := (t0.watchList.filter fun e => (Assoc.get s.tow.gens (s.pageHome c t0 e.1).2 0).toNat != e.2 % 65536).length
    ∃ t, exec (.checkgenResult r []) s = .next t ∧ (t.ctx p r.slot).wait = .none ∧
      (t.ctx p r.slot).reg (BitVec.ofNat 5 sb) = BitVec.ofNat 64 (n % 65536 + (if t0.watchLost then 2 ^ 62 else 0) +
        (if n ≠ 0 ∨ t0.watchLost = true then 2 ^ 63 else 0)))

/-- R68: a reduction whose fields are legal and whose ranges lie in the share waits with its tensor read from the share, where
no member that has come there names other values. R74: in the binomial tree inside the package, a leaf of a REDUCE sends its
tensor to its partner when its step comes, which combines it with its own, own operand first, and the leaf goes on; the root of
a REDUCE to which nothing is still to come writes its tensor to its destination and goes on. R74, R75: the step of a member on
another device joins the tensor in its own turn. R68: a root on another device that names other values faults the member. -/
def Obligations.Reductions : Prop :=
  (∀ (b : State) (r : CtxRef) (f : ReduceF) (p : Nat), f.rsv = 0 → f.op.toNat ≤ 5 →
    let s := fetchCode p r.slot b
    let c := s.ctx p r.slot
    let level := f.level.toNat
    let src := (c.reg f.sa).toNat
    let dst := (c.reg f.sb).toNat
    let len := (c.reg f.sl).toNat
    s.badLevel c level = false → len ≠ 0 → len ≤ c.shareLen / 32 →
    s.reduceBad c (((s.treePlace c level).map (·.board.reduceRemote)).getD false) src dst len = none →
    let issues := fun (opc : Nat) (i : Instr) => Runs i b r p →
      (∀ t, s.treePlace c level = some t → ∀ m ∈ s.nearOthers c t, ∀ k, reduceKey (s.ctx m.psq m.slot).wait = some k →
        k = (opc, f.op.toNat, len, f.tag.toNat)) →
      ∃ t, exec i b = .next t ∧
        (t.ctx p r.slot).wait = .reduce opc f.op.toNat level src dst len f.tag.toNat ∧
        (t.ctx p r.slot).tensor = (List.range len).map fun k => getPad s p c.shareBase (src + 32 * k)
    issues 0 (.reduce r f) ∧ issues 1 (.allreduce r f) ∧ issues 2 (.bcast r f)) ∧
  (∀ (s : State) (r : CtxRef) (p opc op level src dst len tag : Nat) (t : TreePlace), s.physOf r.sq = some p →
    let c := s.ctx p r.slot
    c.wait = .reduce opc op level src dst len tag → s.treePlace c level = some t → t.board.reduceRemote = false → c.redGot = false → opc ≤ 1 →
    (opc = 0 → t.r = 0 → c.nextSender t = none → (∀ o ∈ s.hub.outs, ¬ (o.kind = 3 ∧ o.ret = some (ctxKey p r.slot))) →
      exec (.reduceTreeStep ⟨r, none⟩) s = .next (reduceDone p r.slot (putTensor p r.slot dst c.tensor s))) ∧
    (∀ j dev sq, c.nextSender t = some j → s.partner c t j = some (.far dev sq) →
      ∃ u, exec (.reduceTreeStep ⟨r, none⟩) s = .next u ∧ (u.ctx p r.slot).redStep = c.redStep + 1 ∧
        (u.ctx p r.slot).tensor = (combine op c.tensor ((List.range c.tensor.length).map fun k => getPad s p c.shareBase (dst + 32 * k))).1) ∧
    (∀ dev sq root, t.r ≠ 0 → s.partner c t 0 = some (.far dev sq) → root ≠ (opc, op, len, tag) →
      exec (.reduceTreeStep ⟨r, some root⟩) s = .next (contextFault p r.slot 0x09 0xFF 0 s)) ∧
    (∀ k m, opc = 0 → t.r ≠ 0 → c.nextSender t = none → (∀ o ∈ s.hub.outs, ¬ (o.kind = 3 ∧ o.ret = some (ctxKey p r.slot))) →
      sendStep 8 t.r = some k → s.partner c t (t.r - 2 ^ k) = some (.near m) → ctxKey m.psq m.slot ≠ ctxKey p r.slot →
      s.takesFrom t m = true →
      let d := s.ctx m.psq m.slot
      ∃ u, exec (.reduceTreeStep ⟨r, none⟩) s = .next u ∧ (u.ctx p r.slot).wait = .none ∧
        (u.ctx m.psq m.slot).tensor = (combine op d.tensor c.tensor).1 ∧ (u.ctx m.psq m.slot).redStep = d.redStep + 1))

/-- R82, R84, R90, R91, R93, R94, R97, R98: an MMT or MMP that is legal enters the array with its operands when the array takes
it, and the sequencer goes on; `enter` says what R84 and R98 ask of the array. For SEG 0 that is: the array has the shape, no
segment of it is held, and, for an MMP, no MMT is in flight. Stated for operands that are not queues. An MMT with M or N zero
goes on without entering the array. -/
def Obligations.MatrixInstructions : Prop :=
  (∀ (b : State) (r : CtxRef) (f : MmtF) (p : Nat), Runs (.mmt r f) b r p →
    let s := fetchCode p r.slot b
    let c := s.ctx p r.slot
    let arr := (s.square p).arr
    let brd := s.boardOf c
    let dim := (c.reg f.sdim).toNat
    let m := bits dim 15 0
    let n := bits dim 31 16
    let k := bits dim 47 32
    let x := opWord (c.reg f.sa)
    let y := opWord (c.reg f.sb)
    let oc := opWord (c.reg f.sc)
    let d := opWord (c.reg f.sd)
    let cls := formatClass x.fmt
    let sh := mmtShape brd s.cfg.device.shapePolicy f.seg.toNat m
    f.rsvHi = 0 → f.rsvLo = 0 → f.rnd ≠ 3 → dim < 2 ^ 48 → cls ≠ 0 → formatClass y.fmt = cls → (scaleWord c cls f.sab).2.2.2.2 = true →
    segForbidden brd f.seg.toNat = false → outFormatsOk cls oc.fmt (some d.fmt) (oc.kind != 0) = true → arr.otherSeg r.slot f.seg.toNat = false →
    checkOperand c (c.reg f.sa) m k false false false true = none → checkOperand c (c.reg f.sb) k n true false false true = none →
    checkOperand c (c.reg f.sc) m n false false true false = none → checkOperand c (c.reg f.sd) m n false true false false = none →
    x.kind ≠ 3 → y.kind ≠ 3 → oc.kind ≠ 3 → d.kind ≠ 3 →
    (m = 0 ∨ n = 0 → exec (.mmt r f) b = .next (advance p r.slot s)) ∧
    (m ≠ 0 → n ≠ 0 → ∀ ix ar, arr.enter r.slot f.seg.toNat sh = .go ix ar →
      ∃ (op : MatOp) (t : State), exec (.mmt r f) b = .next t ∧ (t.square p).arr.tiles = ar.tiles ++ [op] ∧
        (t.ctx p r.slot).pc = (loopNext c.loops (c.pc + 8)).1 ∧ op.kind = .mmt ∧ op.slot = r.slot ∧ op.segIx = ix ∧ op.shape = sh ∧
        op.m = m ∧ op.n = n ∧ op.k = k ∧ op.a = x ∧ op.b = y ∧ op.c = oc ∧ op.d = d) ∧
    (m ≠ 0 → n ≠ 0 → f.seg = 0 → arr.held r.slot = none → arr.segCount = 0 → arr.shape = sh → ∃ t, exec (.mmt r f) b = .next t)) ∧
  (∀ (b : State) (r : CtxRef) (f : MmpF) (p : Nat), Runs (.mmp r f) b r p →
    let s := fetchCode p r.slot b
    let c := s.ctx p r.slot
    let arr := (s.square p).arr
    let dim := (c.reg f.srow).toNat
    let m := bits dim 15 0
    let base := bits dim 31 16
    let nw := bits dim 47 32
    let x := opWord (c.reg f.sa)
    let oc := opWord (c.reg f.sc)
    let d := opWord (c.reg f.sd)
    let cls := formatClass x.fmt
    let sh := f.shape.toNat
    let mc := chunkRows sh (c.accum == 1 && !isIntPair cls)
    f.rsvHi = 0 → f.rsvLo = 0 → f.rnd ≠ 3 → 1 ≤ sh → sh ≤ 4 → dim < 2 ^ 48 → cls ≠ 0 → (scaleWord c cls f.sab).2.2.2.2 = true →
    (f.seg = 0 ∨ segShape f.seg.toNat = sh) → segForbidden (s.boardOf c) f.seg.toNat = false → m ≠ 0 → m ≤ mc → nw ≠ 0 →
    nw ≤ blockWidth sh cls (f.seg.toNat != 0) → (if base < mc then base + m ≤ mc else base + m ≤ 2 * mc) →
    opWordBad (c.reg f.sc) = false → opWordBad (c.reg f.sd) = false → (f.flush = true → d.kind ≠ 0) →
    outFormatsOk cls oc.fmt (if d.kind = 0 then none else some d.fmt) (oc.kind != 0) = true →
    x.kind ≠ 3 → (f.flush = true → oc.kind ≠ 3 ∧ d.kind ≠ 3 ∧ checkOperand c (c.reg f.sc) m nw false false true false = none ∧
      checkOperand c (c.reg f.sd) m nw false true false false = none) →
    ∀ ix ar, arr.enterStep r.slot f.seg.toNat sh = .go ix ar →
    let set := (ar.seg ix).front
    let kr := if set.loaded then set.kr else 0
    (set.loaded = true → formatClass set.fmt = cls) → checkOperand c (c.reg f.sa) m kr false false false true = none →
    ∃ (op : MatOp) (t : State), exec (.mmp r f) b = .next t ∧ (t.square p).arr.tiles = ar.tiles ++ [op] ∧
      (t.ctx p r.slot).pc = (loopNext c.loops (c.pc + 8)).1 ∧ op.kind = .mmp ∧ op.slot = r.slot ∧ op.segIx = ix ∧ op.shape = sh ∧
      op.m = m ∧ op.n = nw ∧ op.base = base ∧ op.zero = f.zero ∧ op.flush = f.flush ∧ op.a = x ∧ op.front = { set with kr := kr } ∧
      (f.flush = true → op.c = oc ∧ op.d = d)) ∧
  (∀ (arr : ArrayState) (slot : Nat), arr.held slot = none → arr.segCount = 0 →
    (∃ ar, arr.enter slot 0 arr.shape = .go 0 ar ∧ ar.tiles = arr.tiles) ∧
    (arr.mmtIn 0 = false → ∃ ar, arr.enterStep slot 0 arr.shape = .go 0 ar ∧ ar.tiles = arr.tiles ∧ (ar.seg 0).front = (arr.seg 0).front))

/-- R82, R84, R92, R98: LOADW of an operand in the share loads the back stationary set with the block's elements and leaves the
front set; SWAP exchanges front and back; the sequencer goes on. Both are taken when no MMT is in flight in the context's
columns. R140: a poisoned granule in the block faults the context. SHAPE_SWITCH gives an empty array the shape that an
instruction waits for, with both stationary sets and both bank halves zero. -/
def Obligations.StationarySets : Prop :=
  (∀ (b : State) (r : CtxRef) (f : LoadwF) (p : Nat), Runs (.loadw r f) b r p →
    let s := fetchCode p r.slot b
    let c := s.ctx p r.slot
    let w := (c.reg f.skn).toNat
    let kr := bits w 15 0
    let nc := bits w 31 16
    let y := opWord (c.reg f.sb)
    let cls := formatClass y.fmt
    let sh := f.shape.toNat
    f.rsv = 0 → 1 ≤ sh → sh ≤ 4 → w < 2 ^ 32 → cls ≠ 0 → (f.seg = 0 ∨ segShape f.seg.toNat = sh) → segForbidden (s.boardOf c) f.seg.toNat = false →
    kr ≠ 0 → kr ≤ blockDepth sh cls → nc ≠ 0 → nc ≤ blockWidth sh cls (f.seg.toNat != 0) →
    y.kind ≠ 3 → checkOperand c (c.reg f.sb) kr nc true false false true = none →
    (readPad p c.shareBase y.addr (y.shareEnd kr nc true - y.addr) s).2 = false →
    ∀ ix ar, (s.square p).arr.enterStep r.slot f.seg.toNat sh = .go ix ar →
    ∃ t, exec (.loadw r f) b = .next t ∧ (t.ctx p r.slot).pc = (loopNext c.loops (c.pc + 8)).1 ∧
      let g := (t.square p).arr.seg ix
      g.front = (ar.seg ix).front ∧ g.bank = (ar.seg ix).bank ∧ g.back.fmt = y.fmt ∧ g.back.loaded = true ∧ g.back.kr = kr ∧ g.back.nc = nc ∧
      ∀ k j, k < kr → j < nc → Assoc.get g.back.elems (k * 1024 + j) 0 = (shareElem s p c.shareBase y kr nc k j).1) ∧
  (∀ (b : State) (r : CtxRef) (f : SwapF) (p : Nat), Runs (.swap r f) b r p →
    let s := fetchCode p r.slot b
    let c := s.ctx p r.slot
    let arr := (s.square p).arr
    f.rsv = 0 → segForbidden (s.boardOf c) f.seg.toNat = false →
    ∀ ix ar, arr.enterStep r.slot f.seg.toNat (if f.seg = 0 then arr.shape else segShape f.seg.toNat) = .go ix ar →
    exec (.swap r f) b = .next (advance p r.slot (s.setSquare p { s.square p with
      arr := ar.setSeg ix { ar.seg ix with front := (ar.seg ix).back, back := (ar.seg ix).front } }))) ∧
  (∀ (s : State) (sq shape p : Nat), s.physOf sq = some p →
    (s.square p).arr.want = some shape → (s.square p).arr.tiles = [] → (s.square p).arr.segCount = 0 →
    ∃ t, exec (.shapeSwitch sq shape) s = .next t ∧ (t.square p).arr = { shape := shape, want := none, tiles := [], half := 0 })

/-- R81, R91, R95, R101, R107, R112: the oldest tile of a context ends. An MMP adds its rows to the bank of its segment and,
where it flushes, converts them and writes D; it leaves the array. A tile of an MMT loads a block of B, swaps it to the front,
adds its rows, and the MMT goes on to its next tile or leaves. R140: poison in what the tile reads faults the context. Stated
for an operation that uses no queue, while the governor does not delay the tile (R361). -/
def Obligations.MatrixTiles : Prop :=
  ∀ (s : State) (r : CtxRef) (p : Nat) (op : MatOp), s.physOf r.sq = some p →
    let c := s.ctx p r.slot
    let arr := (s.square p).arr
    let g := arr.seg op.segIx
    arr.front r.slot = some op → c.wait = .none → op.kind ≠ .loadw → op.done = false → op.holds = false → op.needA = 0 → op.needB = 0 →
    op.needC = 0 → op.out = [] → op.d.kind ≠ 3 → s.domainOpen 0 c.burgee = true →
    let load := if op.kind = .mmt then loadBlock s p c.shareBase op else (op.front, false)
    let sum := { sumTile s p c.shareBase op load.1 g.bank with sr := c.sr }
    let x := if op.block.last then flushTile p c.shareBase op sum c.sr (s.unitSeed c op.m) else sum
    ((load.2 || x.poison) = true → exec (.mmpTileComplete r) s = .next (contextFault p r.slot 0x06 0xFF 0 s)) ∧
    (load.2 = false → x.poison = false → op.kind = .mmp → ∃ t, exec (.mmpTileComplete r) s = .next t ∧
      (t.square p).arr.seg op.segIx = { g with bank := x.bank } ∧ (t.square p).arr.tiles = replaceOp arr.tiles r.slot none ∧
      t.scratch = x.st.scratch ∧ t.tower = s.tower ∧ (t.ctx p r.slot).sr = x.sr) ∧
    (load.2 = false → x.poison = false → op.kind = .mmt → op.k ≠ 0 → ∃ t, exec (.mmpTileComplete r) s = .next t ∧
      (t.square p).arr.seg op.segIx = { g with bank := x.bank, front := load.1, back := g.front } ∧
      (t.square p).arr.tiles = replaceOp arr.tiles r.slot op.nextTile ∧
      t.scratch = x.st.scratch ∧ t.tower = s.tower ∧ (t.ctx p r.slot).sr = x.sr)

/-- R70, R71, R463: KERNEL_LAUNCH of a started member whose descriptor is sound, without streams, on a board without TEMPO that
reads the configuration in force: the slot's context runs the command from the entry offset with the registers of R71, while its
vector registers and queues stay. R463: a descriptor that breaks a rule gives ILLEGAL, and its code and parameters lie in the regions. R60, R290: once the share of a torn
context is wiped its granules read as zero and the slot can be used again. -/
def Obligations.LaunchAndShareWipe : Prop :=
  (∀ (s : State) (r : CtxRef) (n p : Nat) (d : Cmd) (m : MemberRun) (h : Share), s.physOf r.sq = some p →
    let c := s.ctx p r.slot
    let k := parseKernel (s.tower.read s.cfg.key d.desc 128).1
    s.cmd n = some d → (d.members.find? fun m => m.psq == p && m.slot == r.slot && !m.started && !m.ended) = some m →
    s.cfg.share r.sq r.slot = some h → s.ownView d.board = true → s.launchPasses p d = true →
    d.stage = .launched → c.active = false → c.wiping = false → s.pwr.issueStop = false →
    (s.tower.read s.cfg.key d.desc 128).2 = false → k.fault d.burgee s = none → k.streams = 0 →
    (s.tower.read s.cfg.key k.codeAddr k.codeLen).2 = false → ((s.cfg.board d.board).map (·.tempo)).getD false = false →
    (s.square p).arr.front r.slot = none → (∀ o ∈ s.hub.outs, ¬ (o.kind = 5 ∧ o.psq = p ∧ o.slot = r.slot)) →
    ∃ t, exec (.kernelLaunch r n) s = .next t ∧ (t.ctx p r.slot).active = true ∧ (t.ctx p r.slot).cmd = n ∧
      (t.ctx p r.slot).pc = k.entry ∧ (t.ctx p r.slot).codeLen = k.codeLen ∧ (t.ctx p r.slot).regs = launchRegs m h d k ∧
      (t.ctx p r.slot).vregs = c.vregs ∧ (t.ctx p r.slot).queues = c.queues) ∧
  (∀ (s : State) (r : CtxRef) (p : Nat), s.physOf r.sq = some p → (s.ctx p r.slot).wiping = true →
    let c := s.ctx p r.slot
    exec (.shareWipeDone r) s = .next (pumpSlices ((wipePad p c.shareBase c.shareLen s).setCtx p r.slot { c with wiping := false })) ∧
    ∀ a, a < c.shareLen → cellAt (wipePad p c.shareBase c.shareLen s).scratch.data (padKey p c.shareBase a) = 0) ∧
  (∀ (l : List Byte) (b : Nat) (s : State),
    let k := parseKernel l
    (k.codeLen < 8 ∨ 65536 < k.codeLen ∨ k.codeLen % 8 ≠ 0 ∨ k.codeLen ≤ k.entry ∨ k.entry % 8 ≠ 0 ∨ 4096 < k.paramLen ∨ 16 < k.streams ∨
      2 < k.accum ∨ k.codeAddr % 64 ≠ 0 ∨ k.streamAddr % 64 ≠ 0 → k.fault b s = some 0x01) ∧
    (k.fault b s = none → s.cfg.owns b k.codeAddr k.codeLen = true ∧ s.cfg.owns b k.paramAddr k.paramLen = true))

/-- R118, R123 to R126, R129: the access engine serves its contexts and their streams in rotation; the first that has a request
ready and room for it issues it under the next tag number, one whose address faults tears its context down, and with none ready
nothing is issued. R118, R126, R152: the reply of a request to the own share or to a tower brings its granules, the
acknowledgment of a write frees its tag; a write burst whose counter is out of step is rejected and stays to be issued again.
R124: a bank queue with room takes the oldest held request of the next square in rotation. R158, R159: a granule that a stream
carries to its operation window and that does not complete its operation joins what the hub assembles; a whole operation enters
the hub. -/
def Obligations.AccessEngine : Prop :=
  (∀ (b : State) (psq : Nat), psq < 180 → (b.square psq).gated = false → b.pwr.issueStop = false →
    let s := markStreams psq (forAll ((List.range 8).filter fun k => (b.ctx psq k).active) (sweep psq) b)
    let order := (List.range 8).flatMap fun k =>
      let slot := ((s.square psq).lastSlot + 1 + k) % 8
      (List.range 16).map fun j => (slot, ((s.ctx psq slot).lastStream + 1 + j) % 16)
    let ready := fun (e : Nat × Nat) => match s.plan psq e.1 e.2 with
      | .fault _ _ => true
      | .issue _ _ _ _ _ => true
      | _ => false
    (∀ slot i idx kind dests addrs ends, order.find? ready = some (slot, i) → s.plan psq slot i = .issue idx kind dests addrs ends →
      exec (.accessRequestIssue psq) b = .next (sweep psq slot (issueRequest psq slot i idx kind dests addrs ends s)) ∧
      ((issueRequest psq slot i idx kind dests addrs ends s).square psq).nextTag = (s.square psq).nextTag + 1) ∧
    (∀ slot i reason detail, order.find? ready = some (slot, i) → s.plan psq slot i = .fault reason detail →
      exec (.accessRequestIssue psq) b = .next (contextFault psq slot reason i detail s)) ∧
    (order.find? ready = none → exec (.accessRequestIssue psq) b = .next s)) ∧
  (∀ (s : State) (psq tag : Nat) (t : Tag) (upset : List Upset) (counter again : BitVec 16),
    ((s.square psq).tags.find? (·.id == tag)) = some t → t.held = false → t.ready = false →
    let ch := t.bank / 16
    let x := noteServed (.tower (chanId ch)) (s.tagPart psq t) s
    let y := towerGranules t upset (leaveBank t.bank psq tag x)
    (t.write = false → t.kind = 1 → t.dead = false →
      exec (.streamReadReply psq tag upset ⟨counter, again⟩) s = .next (arrive psq t
        (t.addrs.map fun a => getPad s psq (s.ctx psq t.slot).shareBase a)
        (s.setCtx psq t.slot ((s.ctx psq t.slot).watchPage t.stream 0 none)))) ∧
    (t.write = false → t.kind = 1 → t.dead = true → exec (.streamReadReply psq tag upset ⟨counter, again⟩) s = .next (freeTag psq tag s)) ∧
    (t.write = false → t.kind = 0 → t.dead = false → s.issues psq t = true → s.inStep counter = true →
      let a := t.addrs.headD 0
      exec (.streamReadReply psq tag upset ⟨counter, again⟩) s = .next (arrive psq t y.1
        (y.2.setCtx psq t.slot ((y.2.ctx psq t.slot).watchPage t.stream (a / 4096) (y.2.genOf a))))) ∧
    (t.write = true → t.kind = 1 → t.dead = false → exec (.streamWriteAck psq ⟨tag, counter⟩) s = .next (sweep psq t.slot (freeTag psq tag s))) ∧
    (t.write = true → t.kind = 0 → t.dead = false → s.issues psq t = true →
      (s.inStep counter = true → exec (.streamWriteAck psq ⟨tag, counter⟩) s =
        .next (sweep psq t.slot (freeTag psq tag (putDev (t.addrs.headD 0) t.back (leaveBank t.bank psq tag x))))) ∧
      (s.inStep counter = false → exec (.streamWriteAck psq ⟨tag, counter⟩) s = .next (alignError ch false x)))) ∧
  (∀ (s : State) (bank q : Nat) (t : Tag), q < 180 → s.heldTag bank q = some t → t.dead = false →
    (∀ p ∈ (s.rotation bank).takeWhile (· != q), serveHeld bank p s = none) →
    exec (.heldRequestAdmit bank) s = .next (rotate bank q (enterBank q t.id (countHeld q t.slot t.stream s)))) ∧
  (∀ (s : State) (r : CtxRef) (i p : Nat) (g : Granule) (t : Tag), s.physOf r.sq = some p →
    ((s.square p).tags.find? fun t => t.slot == r.slot && t.stream == i && t.kind == 5 && !t.dead) = some t →
    t.back.head? = some g → t.addrs.head? = some (opWindow + 32 * i) →
    let c := s.ctx p r.slot
    let key := ctxKey p r.slot * 16 + i
    let have_ := Assoc.get s.hub.windows key []
    let all := have_ ++ [g]
    let h := granuleBytes (Code.value (all.headD (Code.clean 0))).1
    let rest := { t with back := t.back.drop 1, addrs := t.addrs.drop 1 }
    let taken := s.setSquare p { s.square p with tags := (s.square p).tags.map fun u => if u.id = t.id then rest else u }
    let need := operandGranules (fieldAt h 0 1) (fieldAt h 8 8) (fieldAt h 2 1)
    let cleared := { taken with hub := { taken.hub with windows := Assoc.erase taken.hub.windows key } }
    (have_ = [] → isPoisoned g = false ∧ badHeader h = false ∧ (bit (fieldAt h 3 1) 0 = true → c.inShare (fieldAt h 4 4) 64 = true)) →
    rest.back ≠ [] →
    (all.length ≤ need → exec (.operationWindowWrite r i (opWindow + 32 * i) g) s =
      .next (refillHub (settle p r.slot { taken with hub := { taken.hub with windows := Assoc.set taken.hub.windows key all } }))) ∧
    (need < all.length → fieldAt h 0 1 ≠ 0x30 → fieldAt h 0 1 ≠ 0x20 → s.ahead p r.slot t.id = false →
      fabDevice (fieldAt h 8 8) = s.deviceId ∨ s.hubRoom c.burgee = true →
      exec (.operationWindowWrite r i (opWindow + 32 * i) g) s =
        .next (refillHub (settle p r.slot (newOut (windowOut p r.slot i t.id h (all.drop 1) cleared) cleared).2))))

/-- R162, R170: a request whose SEQ is the next from its source and burgee is performed once its memory controllers serve it, its
order advances and its source is answered, and what waited for it follows; one that comes early waits; R177: a repeated one is
answered without being performed again. R165: a multicast element's copy for this device is performed in the source's order and
the rest goes on. R173: a combined request whose constituents are each next is performed, one that is not combinable is answered
MALFORMED. `s` is the state once the message has left its receive buffer (R182). -/
def Obligations.FabricRequestsAtHome : Prop :=
  (∀ (b : State) (r : FabReq) (op : Nat) (i : Instr),
    (op, i) ∈ [(0x01, .fabricLoad r), (0x02, .fabricStore r), (0x10, .fabricSwap r), (0x11, .cas r), (0x12, .fadd r), (0x13, .fmin r),
      (0x14, .fmax r), (0x15, .fand r), (0x16, .forA r), (0x17, .fxor r), (0x20, .radd r), (0x21, .rmin r), (0x22, .rmax r),
      (0x23, .rladd r)] →
    let s := takeIn (isRequest op r) b
    let d := s.seqAhead r.src r.burgee r.seq
    let waiting := { s with hub := { s.hub with homeWait := s.hub.homeWait ++ [{ opcode := op, req := r, parts := [] }] } }
    (s.waitsAtHome r = true → exec i b = .next s) ∧
    (s.waitsAtHome r = false → d = 0 → s.homePasses op r = true →
      exec i b = .next (drainHome (performNow op r s).hub.homeWait.length (performNow op r s)) ∧
      Assoc.get (performNow op r s).hub.homeNext (pairKey r.src r.burgee) 1 =
        (Assoc.get s.hub.homeNext (pairKey r.src r.burgee) 1 + 1) % 2 ^ 24) ∧
    (s.waitsAtHome r = false → d = 0 → s.homePasses op r = false → exec i b = .next waiting) ∧
    (s.waitsAtHome r = false → 0 < d → d < 2 ^ 23 → exec i b = .next waiting) ∧
    (s.waitsAtHome r = false → 2 ^ 23 ≤ d → (op = 1 → s.homePasses op r = true) → exec i b = .next (answerDuplicate op r s))) ∧
  (∀ (b : State) (r : FabReq) (group : Nat) (dests : List (Nat × Nat)),
    let far := dests.filter (fun d => d.1 != b.deviceId)
    let s := takeIn (fun w => w.opcode == 0x03 && w.src == r.src && w.tag == r.tag) b
    let t := if far = [] then s else sendWire (multicastWire r group far) s
    (dests.find? (fun d => d.1 == b.deviceId) = none → exec (.mstore r ⟨group, dests⟩) b = .next t) ∧
    (∀ seq, dests.find? (fun d => d.1 == b.deviceId) = some (b.deviceId, seq) →
      let q := { r with seq := seq }
      t.waitsAtHome q = false → t.seqAhead r.src r.burgee seq = 0 → t.homePasses 0x03 q = true →
      exec (.mstore r ⟨group, dests⟩) b = .next (drainHome (performNow 0x03 q t).hub.homeWait.length (performNow 0x03 q t)))) ∧
  (∀ (b : State) (r : FabReq) (op : Nat) (parts : List CombinePart),
    let s := takeIn (fun w => w.opcode == op && w.src == r.src && w.tag == r.tag && w.parts == parts) b
    (combinable op = false → exec (.combinedRequest op r parts) b = .next (respondCombined r { status := 3 } s)) ∧
    (combinable op = true → parts ≠ [] → s.combinedDropped op r parts = true → exec (.combinedRequest op r parts) b = .next s) ∧
    (combinable op = true → parts ≠ [] → s.combinedDropped op r parts = false → s.combinedReady parts = true → s.homePasses op r = true →
      let x := performCombined op r parts s
      exec (.combinedRequest op r parts) b = .next (drainHome x.hub.homeWait.length x)) ∧
    (combinable op = true → parts ≠ [] → s.combinedDropped op r parts = false → s.combinedReady parts = false →
      exec (.combinedRequest op r parts) b = .next { s with hub := { s.hub with
        homeWait := s.hub.homeWait ++ [{ opcode := op, req := r, parts := parts }] } }))

/-- R161 to R164: what performing an operation on device memory answers and writes when every check of R157 passes and nothing
is poisoned: a LOAD answers the granules as stored; a STORE writes its bytes; an atomic answers the old value and writes the new
one, or nothing where the compare fails; a reduction answers no data. R157: the home's checks come in one order: what is not
present answers NOT_PRESENT, then what the rights do not cover DENIED, then what the operation table does not allow MALFORMED,
and nothing is changed. -/
def Obligations.HomeChecksAndResults : Prop :=
  (∀ (s : State) (r : FabReq) (op o : Nat), s.homeCheck op r = 0 → op ≠ 0x41 → s.spot (fabOffset r.addr.toNat) r.size = some (.tower o) →
    let v := loadSpot (.tower o) r.size s
    let old := payloadBytes v.1 (fabOffset r.addr.toNat % 32) r.size
    let x := payloadBytes r.payload 0 r.size
    let clean := v.1.any isPoisoned = false ∧ r.payload.any isPoisoned = false
    let writes := fun (n : Nat) => storeSpot (.tower o) r.size (carry (fabOffset r.addr.toNat % 32) (leBytes r.size n) [false]) true v.2
    (op = 0x01 → (performOp op r s).1.payload = (spans (r.size + 1) o r.size).map (fun q => s.tower.granule (s.cfg.key q.1)) ∧
      (performOp op r s).1.status = 0 ∧ (performOp op r s).2.tower = s.tower) ∧
    (op = 0x02 → (performOp op r s).1.status = 0 ∧ (performOp op r s).2.tower = putGranules s.cfg.key o r.size r.payload s.tower) ∧
    (isAtomic op = true → clean → (performOp op r s).1.payload = [Code.form (bytesGranule old) false] ∧ (performOp op r s).1.status = 0) ∧
    (op = 0x10 → clean → (performOp op r s).2 = writes (leNat x)) ∧
    (op = 0x11 → leNat old ≠ leNat x → (performOp op r s).2.tower = s.tower) ∧
    (op = 0x12 → r.fmt = 1 ∨ r.fmt = 2 → clean → (performOp op r s).2 = writes ((leNat old + leNat x) % 2 ^ (8 * fmtBytes r.fmt))) ∧
    (op = 0x15 → clean → (performOp op r s).2 = writes (leNat old &&& leNat x)) ∧
    (op = 0x16 → clean → (performOp op r s).2 = writes (leNat old ||| leNat x)) ∧
    (op = 0x17 → clean → (performOp op r s).2 = writes (leNat old ^^^ leNat x)) ∧
    (isReduction op = true → (performOp op r s).1.payload = [] ∧ (performOp op r s).1.status = 0)) ∧
  (∀ (s : State) (r : FabReq) (op : Nat),
    (s.homeCheck op r ≠ 0 → op ≠ 0x41 → performOp op r s = ({ status := s.homeCheck op r }, s)) ∧
    (s.spot (fabOffset r.addr.toNat) r.size = none → s.homeCheck op r = 1) ∧
    (∀ o, r.rsvZero = true → r.addr.toNat < 2 ^ 54 → s.spot (fabOffset r.addr.toNat) r.size = some (.tower o) →
      (s.cfg.rangeIn (s.regionOpen r.burgee) (fabOffset r.addr.toNat) r.size = false → s.homeCheck op r = 2) ∧
      (s.cfg.rangeIn (s.regionOpen r.burgee) (fabOffset r.addr.toNat) r.size = true →
        s.homeCheck op r = if wellSized op r.fmt (fabOffset r.addr.toNat) r.size then 0 else 3)))

/-- R166, R169, R170, R195: an operation that may leave, and whose turn it is, goes out with the next SEQ toward its destination
over the link that R195 picks, and is marked as sent; with no live link it waits at the hub (R197). One for this device is
performed at once. R176: a request unanswered for 50 µs is sent again with RETRY set. R161, R164, R165: an answer ends its
destination's part of the operation it names; the last one ends the operation, and a response that names none changes nothing. -/
def Obligations.FabricSource : Prop :=
  (∀ (s : State) (id d seq0 : Nat) (o : FabOut), s.hub.outs.find? (·.id == id) = some o → o.kind ≠ 5 → o.sent = false → s.fenced o = false →
    s.firstOfPair o = true → s.mayDraw (s.sendDraws o) = true → o.opcode ≠ 3 → o.dests = [(d, seq0)] →
    (d = s.deviceId → s.ownPasses o = true → ∃ s', exec (.fabricRequestSend id) s = .next (performOwn { o with sent := true, sentAt := s.up } s') ∧
      s'.tower = s.tower ∧ s'.scratch = s.scratch ∧ s'.links = s.links) ∧
    (d ≠ s.deviceId → s.gone d = false → s.creditFree o d = true → s.egressTurn o = true →
      let key := pairKey d o.burgee
      let q := Assoc.get s.hub.seqNext key 1
      let w := o.wire s.deviceId d q
      ∃ t, exec (.fabricRequestSend id) s = .next t ∧ Assoc.get t.hub.seqNext key 1 = (q + 1) % 2 ^ 24 ∧
        (∀ f ∈ t.hub.outs, f.id = id → f.sent = true ∧ f.dests = [(d, q)]) ∧
        (∀ l picked, s.pickLink w.vc w.src w.dst w.addr.toNat = some (l, picked) →
          (t.link l).txq = (s.link l).txq ++ [{ vc := w.vc, dst := w.dst, left := wireGranules w }] ∧ t.hub.waiting = s.hub.waiting) ∧
        (s.pickLink w.vc w.src w.dst w.addr.toNat = none → t.hub.waiting = s.hub.waiting ++ [w]))) ∧
  (∀ (s : State) (id : Nat) (o : FabOut), s.hub.outs.find? (·.id == id) = some o →
    (o.sent = true → o.sentAt + 50000 ≤ s.up → (∃ d ∈ o.dests, d.1 ≠ s.deviceId ∧ s.gone d.1 = false ∧ s.copyWaits id d.1 = false) →
      ∃ t o', exec (.requestRetransmit id) s = .next t ∧ t.hub.outs.find? (·.id == id) = some o' ∧ o'.retries = o.retries + 1 ∧
        o'.sentAt = s.up ∧ o'.dests = o.dests)) ∧
  (∀ (b : State) (r : FabResp), (∀ f ∈ b.hub.outs, f.id = r.tag → f.kind ≠ 7) →
    let at_ := fun (code : Nat) => takeIn (fun w => w.opcode == code && w.src == r.src && w.tag == r.tag) b
    (b.hub.outs.find? (·.id == r.tag) = none →
      exec (.readData r) b = .next (at_ 0x80) ∧ exec (.atomicData r) b = .next (at_ 0x81) ∧ exec (.acknowledgment r) b = .next (at_ 0x82)) ∧
    (∀ o, b.hub.outs.find? (·.id == r.tag) = some o → o.sent = true → (o.dests.any (·.1 == r.src)) = true →
      let left := o.dests.filter (·.1 != r.src)
      let first := if o.status = 0 then r.status else o.status
      let o' := { o with dests := left, status := first }
      let ended := fun (s : State) => if left = [] then answerOut o' { r with status := first } s else putOut o' s
      (o.opcode = 1 → exec (.readData r) b = .next (ended (at_ 0x80))) ∧
      (isAtomic o.opcode = true → exec (.atomicData r) b = .next (ended (at_ 0x81))) ∧
      (o.opcode ≠ 1 → isAtomic o.opcode = false → exec (.acknowledgment r) b = .next (ended (at_ 0x82)))))

/-- R172, R195: the router passes a message on that may not combine; one that may opens an entry, or joins the one whose window
runs and that it matches; a closed window with two or more constituents sends one combined request and counts it, with one its
own request goes on. R173: the reply of a combined LOAD gives each constituent its own, with its SEQ and tag. R182: `s` is the
state once the message has left its receive buffer. -/
def Obligations.RouterForwardsAndCombines : Prop :=
  (∀ (b : State) (m : Wire), m.dst ≠ b.deviceId → m.dests = [] →
    let s := takeIn (fun w => { w with watch := m.watch, gen := m.gen } == m) b
    (mayCombine m = false ∨ s.hub.combineNs = 0 → exec (.requestForward m) b = .next (sendWire m s)) ∧
    (mayCombine m = true → s.hub.combineNs ≠ 0 → (∀ e ∈ s.hub.combines, s.joins m e = false) →
      ∃ t e, exec (.requestForward m) b = .next t ∧ t.hub.combines = s.hub.combines ++ [e] ∧ e.openAt = s.up ∧ e.parts = [partOf m] ∧
        t.links = s.links ∧ t.hub.waiting = s.hub.waiting) ∧
    (∀ e, mayCombine m = true → s.hub.combineNs ≠ 0 → s.hub.combines.find? (s.joins m) = some e →
      (16 ≤ e.parts.length ∨ (e.parts.any fun q => q.src == m.src && q.burgee == m.burgee) = true →
        exec (.requestForward m) b = .next (sendWire m s)) ∧
      (e.parts.length < 16 → (e.parts.any fun q => q.src == m.src && q.burgee == m.burgee) = false →
        ∃ t, exec (.requestForward m) b = .next t ∧ t.hub.combines.length = s.hub.combines.length ∧
          (∃ x ∈ t.hub.combines, x.id = e.id ∧ x.parts = e.parts ++ [partOf m]) ∧ t.links = s.links ∧ t.hub.waiting = s.hub.waiting))) ∧
  (∀ (s : State) (entry : Nat) (e : CombineEntry), (s.hub.combines.find? fun e => e.id == entry && !e.sent) = some e →
    e.openAt + s.hub.combineNs.toNat ≤ s.up →
    (2 ≤ e.parts.length → (e.close s.deviceId).parts = e.parts ∧ (e.close s.deviceId).tag = e.id ∧ (e.close s.deviceId).src = s.deviceId ∧
      exec (.combineWindowClose entry) s = .next (sendWire (e.close s.deviceId) { s with hub := { s.hub with
        combines := s.hub.combines.map fun x => if x.id = entry then { x with sent := true } else x
        combineCnt := satAdd 64 s.hub.combineCnt 1 } })) ∧
    (e.parts.length < 2 → exec (.combineWindowClose entry) s = .next (sendWire { e.first with held := e.held + 1 } { s with hub := { s.hub with
        combines := s.hub.combines.filter (·.id != entry) } }))) ∧
  (∀ (b : State) (entry : Nat) (e : CombineEntry) (r : FabResp),
    let s := takeIn (fun w => w.opcode == 0x83 && w.src == r.src && w.tag == entry) b
    (s.hub.combines.find? fun e => e.id == entry && e.sent) = some e → e.opcode = 1 →
    let own := fun (q : CombinePart) (t : State) => if t.gone q.src then t else
      dispatch { opcode := 0x80, vc := 1, combined := true, size := e.size - 1, fmt := r.status, src := r.src, dst := q.src, burgee := q.burgee
                 seq := q.seq, addr := e.addr, tag := q.tag, payload := r.payload, gen := r.gen } t
    exec (.combinedData entry r) b = .next (forAll e.parts own
      { s with hub := { s.hub with combines := s.hub.combines.filter (·.id != entry) } }))

/-- R17, R77, R78, R335: the messages of sub-commands act in the order of their burgee's requests and are acknowledged (R158,
R170); one performed before is only acknowledged. A sub-command that the device accepts waits for its energy like a command of
its own, one it refuses ends at its issuer with REMOTE_REFUSED; the end of a remote member folds its counts, flags and energy
into the board command; a cancelled sub-command is gone. -/
def Obligations.SubCommands : Prop :=
  (∀ (b : State) (i : Instr) (src burgee seq tag : Nat) (act : State → State),
    (∃ sc : SubCmd, i = .subCommand ⟨⟨seq, tag⟩, sc⟩ ∧ src = sc.src ∧ burgee = sc.burgee ∧ act = takeSub sc) ∨
      (∃ n e, i = .subCommandEnd n ⟨src, burgee, ⟨seq, tag⟩⟩ e ∧ act = remoteEnded n src e) ∨
      (∃ n, i = .subCommandCancel ⟨src, burgee, ⟨seq, tag⟩⟩ n ∧ act = fun s => pumpSlices (forAll (s.sched.cmds.filter fun c => c.2.sub == some (src, n))
        (fun c s => turnEnded c.1 ((returnClaims c.1 (cancelMembers c.1 s)).dropCmd c.1)) s)) →
    let r : FabReq := { src := src, burgee := burgee, seq := seq, retry := false, radio := b.radioBurgee burgee, rsvZero := true
                        addr := BitVec.ofNat 64 (b.deviceId * 2 ^ 44), size := 1, fmt := 0, payload := [], tag := tag, watch := false, tie := false }
    let s := takeIn (isRequest 0x40 r) b
    let done := respond 0x40 r {} (advanceSeq src burgee (act s))
    (b.seqAhead src burgee seq = 0 → exec i b = .next (drainHome done.hub.homeWait.length done)) ∧
    (2 ^ 23 ≤ b.seqAhead src burgee seq → exec i b = .next (respond 0x40 r {} s))) ∧
  (∀ (s : State) (sc : SubCmd),
    let n := s.sched.nextCmd
    let fresh : Cmd := { id := n, burgee := sc.burgee, opcode := 1, cls := sc.cls, board := sc.board, tag := sc.tag, energyUj := sc.energyUj
                         maxDurUs := sc.boundUs, desc := sc.desc, stage := .energy, readAt := s.up, waitedSince := s.up
                         sub := some (sc.src, sc.srcCmd), squares := sc.squares, ranges := [sc.m, sc.n, sc.k], subLast := sc.last
                         subRoot := sc.isRoot, origin := some sc.origin, above := sc.above }
    (s.refusesSub sc fresh = false → (takeSub sc s).cmd n = some fresh ∧ (takeSub sc s).sched.nextCmd = n + 1) ∧
    (s.refusesSub sc fresh = true → ∃ e : SubEnd, e.status = 0x05 ∧ takeSub sc s = sendSub sc.src sc.burgee 0 (.ended sc.srcCmd e) s)) ∧
  (∀ (s : State) (n device i : Nat) (d : Cmd) (e : SubEnd), s.cmd n = some d →
    d.remotes.findIdx? (fun x => x.device == device && !x.ended) = some i → e.status = 0 →
    ∃ d', (remoteEnded n device e s).cmd n = some d' ∧ d'.rolls.steals = d.rolls.steals + e.steals ∧
      d'.rolls.ties = d.rolls.ties + e.ties ∧ d'.aflags = d.aflags ||| (e.aflags % 32) ∧ d'.remoteUj = d.remoteUj + e.energyUj ∧
      d'.status = d.status)

/-- R135, R136: every error in one symbol of a granule is corrected, and a poisoned granule stays poisoned under it. R134, R136: a granule formed from
data reads back as that data with its poison, and the example of R134: data whose only byte is d31 = 0x01 has the check symbols 0x0F, 0x36, 0x78, 0x40.
R133: the check burst of a tower carries the check symbols of each data channel's granule, its VALID and the sender's burst-time counter. -/
def Obligations.SingleSymbolErrorsAreCorrected : Prop :=
  (∀ (data : BitVec 256) (poison : Bool) (i : Nat) (e : Byte), i < 36 → e ≠ 0 →
    Code.value (Code.disturb (Code.form data poison) [(i, e)]) = (data, poison)) ∧
  ((∀ (data : BitVec 256) (poison : Bool), Code.value (Code.form data poison) = (data, poison)) ∧
  Code.checkOf (BitVec.ofNat 256 (2 ^ 248)) = 0x4078360F) ∧
  (∀ (gs : List (Option Granule)) (k : BitVec 16), gs.length = 6 →
    Code.burstCounter (Code.checkBurst gs k) = k ∧
    ∀ c x, gs[c]? = some x →
      Code.burstValid (Code.checkBurst gs k) c = x.isSome ∧
      ∀ g, x = some g → Code.burstSymbols (Code.checkBurst gs k) c = (Code.symbols g).drop 32)

/-- R135: an error in two symbols of a clean granule is corrected, or the granule is taken as poisoned: it is never passed on as
clean wrong data. -/
def Obligations.DoubleSymbolErrorsNeverPassAsCleanData : Prop :=
  ∀ (data : BitVec 256) (i j : Nat) (e f : Byte), i < j → j < 36 → e ≠ 0 → f ≠ 0 →
    let v := Code.value (Code.disturb (Code.form data false) [(i, e), (j, f)])
    v = (data, false) ∨ v.2 = true

/-- R144, R149: a frame starts at each whole 8 µs of device time; slot 62 refreshes every tower and slot 63 of a frame without calibration the hot ones;
the calibration slot is that of every sixteenth frame and a channel that loses its alignment there retrains. R136, R146, R147: a patrol or demand scrub puts
the corrected codeword back, or the poisoned one where the granule is poisoned or uncorrectable; the patrol moves on by one granule. A demand scrub whose
granule has been written since writes nothing. R149, R151: a channel that has retrained runs again; its third failure in succession is final and fatal; the
summary of corrected symbols starts anew every 60 s; a degraded DQ is noted. -/
def Obligations.TowerMaintenance : Prop :=
  (∀ s : State,
    (s.tow.frameDue ≤ s.devTime → ∃ t, exec .channelFrameStart s = .next t ∧ t.tow.frameDue = (s.devTime / 8000 + 1) * 8000 ∧
      t.tow.frameNo = s.devTime / 8000 % 125 ∧ t.tow.refreshed = false ∧ t.tow.calibrated = false) ∧
    (s.inSlot 62 = true → s.tow.refreshed = false → ∃ t, exec .refreshSlot s = .next t ∧ t.tow.refreshed = true ∧
      ∀ tw, tw < 6 → Assoc.get t.tow.refreshRow tw 0 = (Assoc.get s.tow.refreshRow tw 0 + refreshRows) % bankRows) ∧
    (s.inSlot 63 = true → s.calibrates = false → s.tow.calibrated = false → s.hotTowers ≠ [] →
      ∃ t, exec .refreshSlot s = .next t ∧ t.tow.calibrated = true ∧
      ∀ tw ∈ s.hotTowers, Assoc.get t.tow.refreshRow tw 0 = (Assoc.get s.tow.refreshRow tw 0 + refreshRows) % bankRows) ∧
    (∀ lost : List Nat, s.inSlot 63 = true → s.calibrates = true → s.tow.calibrated = false → (∀ ch ∈ lost, ch < 42) →
      ∃ t, exec (.calibrationSlot lost) s = .next t ∧ t.tow.calibrated = true ∧ ∀ ch ∈ lost, (t.chan ch).st ≠ 0)) ∧
  (∀ (s : State) (upset : Upset),
    let back := fun (g : Granule) => if Code.residue g = 0 then g else Code.scrubbed g
    (∀ ch, dataChan ch = true → (s.chan ch).st = 0 → (s.chan ch).nextScrub ≤ s.up → s.inSlot 63 = true → s.calibrates = false →
      s.wipingTowers = false →
      let k := keyOfChan ch ((s.chan ch).scrub * 32)
      ∃ t, exec (.towerPatrolScrub ch upset) s = .next t ∧ t.tower = s.tower.put k (back (Code.disturb (s.tower.granule k) upset)) ∧
        (t.chan ch).scrub = ((s.chan ch).scrub + 1) % chanGranules) ∧
    (∀ psq bank, psq < 180 → bank < 32 → (s.square psq).gated = false → Assoc.get (s.square psq).scrubDue bank 0 ≤ s.up →
      let row := Assoc.get (s.square psq).scrubRow bank 0
      let k := psq * padSize + (row * 1024 + bank * 32)
      ∃ t, exec (.scratchpadScrub psq bank upset) s = .next t ∧
        t.scratch = s.scratch.put k (back (Code.disturb (s.scratch.granule k) upset)) ∧
        Assoc.get (t.square psq).scrubRow bank 0 = (row + 1) % 8192) ∧
    (s.tow.sramDue ≤ s.up →
      let a := s.tow.sramScrub * 32
      ∃ t, exec (.halyardSramScrub upset) s = .next t ∧ t.sram = s.sram.put a (back (Code.disturb (s.sram.granule a) upset))) ∧
    (∀ ch granule x, let k := keyOfChan ch (granule * 32)
      s.tow.scrubs.find? (·.key == k) = some x → dataChan ch = true → s.runs ch = true →
      ∃ t, exec (.demandScrub ch granule upset) s = .next t ∧
        t.tower = (if x.stale then s.tower else s.tower.put k (Code.scrubbed (Code.disturb x.g upset))) ∧
        ∀ y ∈ t.tow.scrubs, y.key ≠ k)) ∧
  (∀ (s : State) (ch : Nat), ch < 42 → (s.chan ch).st = 1 → s.up ≤ (s.chan ch).since + 2000000 →
    (∀ step, ∃ t, exec (.channelRetrainDone ch true step) s = .next t ∧ (t.chan ch).st = 0 ∧ (t.chan ch).fails = 0) ∧
    (∀ step, 2 ≤ step → step ≤ 5 → (s.chan ch).fails < 2 →
      ∃ t, exec (.channelRetrainDone ch false step) s = .next t ∧ (t.chan ch).st = 1 ∧ (t.chan ch).fails = (s.chan ch).fails + 1) ∧
    (∀ step, 2 ≤ step → step ≤ 5 → 2 ≤ (s.chan ch).fails → ∃ t, exec (.channelRetrainDone ch false step) s = .next t ∧
      (t.chan ch).st = 2 ∧ t.elog.firstFatal = some (s.elog.firstFatal.getD 0x2406))) ∧
  (∀ (s : State) (ch : Nat),
    (s.tow.sumDue ≤ s.up → ∃ t, exec .memCorrSummary s = .next t ∧ s.up < t.tow.sumDue ∧ (t.chan ch).sum1 = 0 ∧ (t.chan ch).sum2 = 0) ∧
    (∀ dq, ch < 42 → dq < 32 → 10 ≤ (s.chan ch).hotRun dq (s.up / 1000000000) → dq ∉ (s.chan ch).dqHot →
      ∃ t, exec (.memDqDegraded ch dq) s = .next t ∧ dq ∈ (t.chan ch).dqHot))

/-- R187, R190, R193: a dark link that may light probes, at least 100 s after its last probe; it answers light, trains on the far end's return, sends its
identity when trained, comes UP where the peer is the one its LINK entry names, and fails where it is not; a probe runs out after 2 ms and a training after
3 ms. R187, R189, R199, R202: light that goes away takes a lit link DOWN and counts; three links of an engine that leave UP within 1 s with their light, or a
fatal report, hand the engine to the spare, whose links then start anew. R200: measures are kept with the bias of the last 30 days, whose slope is the trend;
R202: a wavelength below its margin for 60 s, or below a pre-FEC figure of 500 for 10 s, starts its time anew when recorded. -/
def Obligations.LinksUpAndDown : Prop :=
  (∀ (s : State) (l : Nat),
    let k := s.link l
    (k.st = .down ∨ k.st = .off → s.mayLight l = true → s.probeDue l = true →
      exec (.linkProbe l) s = .next (s.setLink l { k with st := .probe, stateAt := s.up, lastProbe := some s.up })) ∧
    (k.st = .probe → k.stateAt + 2000000 ≤ s.up → exec (.probeTimeout l) s = .next (s.setLink l { k with st := .down, stateAt := s.up })) ∧
    (k.st = .down → s.mayLight l = true → exec (.lightDetected l) s = .next (s.setLink l { k with st := .answer, stateAt := s.up })) ∧
    (k.st = .probe ∨ k.st = .answer → exec (.farEndReturn l) s = .next (s.setLink l { k with st := .train, stateAt := s.up })) ∧
    (k.st = .train → exec (.linkTrainingDone l) s =
      .next (emit (.linkId l s.ident.serial s.deviceId) (s.setLink l { k with st := .verify, stateAt := s.up }))) ∧
    (k.st = .train → k.stateAt + 3000000 ≤ s.up →
      let f := s.up :: k.fails.filter fun t => decide (s.up < t + 60000000000)
      ∃ t, exec (.linkTrainingFailed l) s = .next t ∧ (t.link l).fails = f ∧ (t.link l).st = if 8 ≤ f.length then .failed else .down) ∧
    (∀ e serial device peerLink, k.st = .verify → s.linkRec l = some e → ∃ t, exec (.linkIdentity l serial device peerLink) s = .next t ∧
      (t.link l).st = if device = e.peer ∧ peerLink = e.peerLink then .up else .failed)) ∧
  (∀ (s : State) (l : Nat),
    let k := s.link l
    (k.st ∈ [LinkSt.probe, .answer, .train, .verify, .up] → ∃ t, exec (.automaticPowerReduction l) s = .next t ∧ (t.link l).st = .down ∧
      (t.link l).apr = satAdd 32 k.apr 1) ∧
    (∀ e fatal us, e < 8 → s.pwr.spareEn = false → fatal = true ∨ s.engineFalls e = true →
      ∃ t, exec (.engineFailover e fatal us) s = .next t ∧ t.pwr.spareEn = true ∧ t.pwr.spareSel = e ∧
        ∀ i, i < 8 → (t.link (8 * e + i)).st = .failed ∧ (t.link (8 * e + i)).carrier = some (64 + i) ∧ (t.link (8 * e + i)).failover = true) ∧
    (s.pwr.spareEn = true → (∃ i, i < 8 ∧ (s.link (8 * s.pwr.spareSel + i)).failover = true ∧ (s.link (8 * s.pwr.spareSel + i)).st = .failed) →
      ∃ t, exec .spareSelectorSettled s = .next t ∧ ∀ i, i < 8 →
        let n := 8 * s.pwr.spareSel + i
        (s.link n).failover = true → (s.link n).st = .failed →
        (t.link n).st = if s.hasRole n = false then .off else if s.mayLight n && s.probeDue n then .probe else .down) ∧
    (∀ raw : List WaveRaw, k.st = .up → raw.length = 4 → (∀ e ∈ k.biasLog.head?, e.1 + 1000000000 ≤ s.up) →
      let log := (s.up, raw.map (·.bias)) :: k.biasLog.filter fun e => decide (s.up ≤ e.1 + days30)
      ∃ t, exec (.linkMarginMeasure l raw) s = .next t ∧ (t.link l).biasLog = log ∧ (t.link l).waves.length = 4 ∧
        ∀ w m r, (t.link l).waves[w]? = some m → raw[w]? = some r →
          m.rxPower = r.rxPower ∧ m.margin = r.margin ∧ m.bias = r.bias ∧ m.preFec = r.preFec ∧
          let q := slope (log.map fun p => (p.1, p.2.getD w 0))
          q.2 ≠ 0 → -32768 ≤ q.1 / q.2 → q.1 / q.2 < 32767 → m.biasTrend = q.1 / q.2 ∨ m.biasTrend = q.1 / q.2 + 1) ∧
    (∀ w t0, k.st = .up → Assoc.find k.lowMargin w = some t0 → t0 + 60000000000 ≤ s.up →
      ∃ t, exec (.linkMargin l w) s = .next t ∧ Assoc.find (t.link l).lowMargin w = some s.up) ∧
    (∀ w t0, k.st = .up → Assoc.find k.lowFec w = some t0 → t0 + 10000000000 ≤ s.up →
      ∃ t, exec (.linkPreFec l w) s = .next t ∧ Assoc.find (t.link l).lowFec w = some s.up))

/-- R182, R184, R185: on a link in UP a flit with an uncorrected codeword is refused and counted; one whose CRC or sequence number is wrong is refused; one
whose slots show no syndrome is accepted, and the link's sequence number, credits and acknowledgment move. R138: one whose slots show a syndrome is refused
the first time. R182 to R184: when a link's flit time comes and nothing is to be sent again, a new flit leaves with the next FSEQ, the ACK of what was
received, 16 slots and its CRC, and is kept until acknowledged; with no message waiting its VALID is zero. A slot takes its granule from the first virtual
channel of the priority order that has one and a credit for it. A NAK has the flits after its ACK sent again. -/
def Obligations.FlitsSentAndReceived : Prop :=
  (∀ (s : State) (l : Nat) (flit : Flit), l < 72 → (s.link l).st = .up →
    let k := s.link l
    let crcOk := BitVec.ofNat 16 (fieldAt flit.ctl 30 2) = crc16 (fitTo 30 flit.ctl)
    let due := BitVec.ofNat 12 (fieldAt flit.ctl 0 2) = k.fseq + 1
    (∀ n, n ≠ 0 → exec (.flitReceive l flit n) s = .next (refuseFlit l true (s.setLink l { k with uncorr := satAdd 32 k.uncorr n }))) ∧
    (¬ crcOk → exec (.flitReceive l flit 0) s = .next (refuseFlit l true s)) ∧
    (crcOk → ¬ due → exec (.flitReceive l flit 0) s = .next (refuseFlit l false s)) ∧
    (crcOk → due → k.badSyn = [] → badSlots flit ≠ [] →
      exec (.flitReceive l flit 0) s = .next (refuseFlit l true (s.setLink l { k with badSyn := badSlots flit }))) ∧
    (crcOk → due → k.badSyn = [] → badSlots flit = [] → ∃ t, exec (.flitReceive l flit 0) s = .next t ∧
      (t.link l).fseq = k.fseq + 1 ∧ (t.link l).refusals = 0 ∧ (t.link l).st = .up ∧
      (t.link l).acked = BitVec.ofNat 12 (fieldAt flit.ctl 2 2) ∧
      (t.link l).credits = (List.range 4).map fun v => min ([4096, 4096, 1024, 256].getD v 0) (k.credits.getD v 0 + fieldAt flit.ctl (12 + 2 * v) 2))) ∧
  (∀ (s : State) (l : Nat),
    let k := s.link l
    k.st = .up → k.flitDue ≤ s.up * 100 → k.retryBuf.length < 512 → k.retryBuf.length ≤ k.sentTo → k.freed.length = 4 →
    ∃ f, (flitDueOn l s).out = .flit l f :: s.out ∧ f.slots.length = 16 ∧ fieldAt f.ctl 0 2 = k.sendSeq.toNat ∧
      fieldAt f.ctl 2 2 = k.fseq.toNat + (if k.nakDue then 0x8000 else 0) ∧ BitVec.ofNat 16 (fieldAt f.ctl 30 2) = crc16 (fitTo 30 f.ctl) ∧
      (k.txq = [] → fieldAt f.ctl 4 2 = 0) ∧
      ((flitDueOn l s).link l).retryBuf = k.retryBuf ++ [f] ∧ ((flitDueOn l s).link l).sendSeq = k.sendSeq + 1 ∧
      ((flitDueOn l s).link l).flitDue = k.flitDue + 1216) ∧
  (∀ (k : Link) (v : Nat) (g : Granule) (q : List TxMsg), v < 4 → k.credits.getD v 0 ≠ 0 → takeGranule v k.txq = some (g, q) →
    (∀ u, v < u → u < 4 → k.credits.getD u 0 = 0 ∨ takeGranule u k.txq = none) →
    k.nextSlot = some ((v, g), { k with txq := q, credits := k.credits.modify v (· - 1) })) ∧
  (∀ (k : Link) (a : BitVec 12) (n : Nat), n ≤ k.retryBuf.length → a + 1 = k.sendSeq - BitVec.ofNat 12 k.retryBuf.length + BitVec.ofNat 12 n →
    k.retryBuf.length ≤ 512 →
    (k.takeAck a true).retryBuf = k.retryBuf.drop n ∧ (k.takeAck a true).sentTo = 0 ∧
      ∀ f, k.retryBuf[n]? = some f → (k.takeAck a true).nextFlit.map (·.1) = some (restamp f k.fseq k.nakDue))

/-- R210, R211, R237, R258, R233, R209: how a cell's state moves. A first doorbell of an enabled burgee of partition 0 after a hoist reads the cell's directory
entry; a fitting CONFIG.request configures a cell that does not run and one whose parameters differ leaves its state; a START.request is taken by a configured
cell with time, and the cell runs from the first slot of a frame of even SFN; a STOP.request stops a running cell at its next slot boundary; a message that the
state does not take is answered by ERROR.indication. R214, R215: at the boundary the mapping engine puts out the slot's downlink. -/
def Obligations.CellStates : Prop :=
  ∀ (s : State) (cell : Nat) (c : Cell),
    (∀ page d i a value, s.hostSeen = true → page < 256 → 0 < page → value.toNat % 65536 = cell → s.cell cell = some c →
      c.dirRead = false ∨ c.dirDue = true → (s.burgee page).en = true → s.cfg.partOf page = some 0 → s.cfg.directory 0 = some d →
      ((List.range (peekDev s d 2)).find? fun i => match s.cfg.directory (64 + 64 * i) with
        | some a => peekDev s a 2 == cell
        | none => false) = some i → s.cfg.directory (64 + 64 * i) = some a → (readDev a 64 s).1.2 = false →
      ∀ q, s.burgeeOf q = some page →
      ∃ t, exec (.cellDoorbell (some q) page value) s = .next t ∧ (t.cell cell).map (·.dirRead) = some true ∧
        (t.cell cell).map (·.dirDue) = some false ∧
        (t.cell cell).map (·.dirIndex) = some i ∧ (t.cell cell).map (·.ulBase) = some (fieldAt (readDev a 64 s).1.1 16 8)) ∧
    (MessageReady s cell c →
      (∀ r e tl, c.st ≠ .running → s.cfg.cellRec cell = some e → Tlvs.putAll r.tlvs {} = some tl → extrasOk r.scs r.bwMhz r.extras = true →
        (r.bwMhz = e.bwMhz ∧ r.scs = e.scs ∧ r.tx = e.tx ∧ r.rx = e.rx ∧ r.duplex = e.duplex) → s.cfg.neuralOk tl = true →
        s.peersOk cell = true →
        ∃ t, exec (.configRequest cell r) s = .next t ∧ (t.cell cell).map (·.st) = some .configured ∧
          (t.cell cell).map (·.tlv) = some tl) ∧
      (∀ r e, c.st ≠ .running → s.cfg.cellRec cell = some e → r.bwMhz ≠ e.bwMhz →
        ∃ t, exec (.configRequest cell r) s = .next t ∧ (t.cell cell).map (·.st) = some c.st ∧ (t.cell cell).map (·.tlv) = some c.tlv) ∧
      (c.st = .configured → s.muster.st ≠ .benched → s.time.st = .locked ∨ s.time.st = .holdover →
        ∃ t, exec (.startRequest cell) s = .next t ∧ (t.cell cell).map (·.starting) = some true ∧
          (t.cell cell).map (·.st) = some .configured) ∧
      (c.st = .running → ∃ t, exec (.stopRequest cell) s = .next t ∧ (t.cell cell).map (·.stopping) = some true ∧
        (t.cell cell).map (·.st) = some .running) ∧
      (c.st ≠ .running → exec (.stopRequest cell) s =
        .next (sendError cell errState (Config.fapiType msgStop).toNat 0 (taken cell c s))) ∧
      (∀ typ, exec (.otherDownlinkMessage cell typ) s = .next (sendError cell errState typ.toNat 0 (taken cell c s)))) ∧
    (∀ e slot, s.cell cell = some c → s.cfg.cellRec cell = some e → slotStart s.time.alpha e.scs slot ≤ s.devTime →
      (c.st = .configured → c.starting = true → slot % slotsPerFrame e.scs = 0 → sfnOf e.scs slot % 2 = 0 →
        ∃ t, exec (.slotBoundary cell slot) s = .next t ∧ (t.cell cell).map (·.st) = some .running ∧
          (t.cell cell).map (·.slotNow) = some (some slot)) ∧
      (c.st = .running → (∀ m, c.slotNow = some m → m < slot) → c.stopSlot = none → c.stopping = false →
        ∃ t, exec (.slotBoundary cell slot) s = .next t ∧ (t.cell cell).map (·.st) = some .running ∧
          (t.cell cell).map (·.slotNow) = some (some slot) ∧
          (t.cell cell).map (·.cnt.slots) = some (satAdd 32 c.cnt.slots 1) ∧
          ∀ d x, Assoc.get c.dl slot [] = [d] → Assoc.get c.dci slot [] = [] → d.pdsch = true → pdschOk d = true → Assoc.get c.tx slot [] = [x] →
            x.id = d.id → x.poison = false → x.pointer = none → (t.cell cell).map (·.grid) = some [mapPdu e.onSquares d x.bytes]) ∧
      (c.st = .running → (∀ m, c.slotNow = some m → m < slot) → c.stopSlot = none → c.stopping = true → c.allocs = [] →
        ∃ t, exec (.slotBoundary cell slot) s = .next t ∧ (t.cell cell).map (·.st) = some .configured ∧
          (t.cell cell).map (·.slotNow) = some none))

/-- R204, R209, R212, R217: a message for a slot of a running cell is taken when the slot lies at least two slots ahead (its PDUs, its DCIs, its payloads, its
allocations with their gain freezes). R209, R212: a first late message for a slot is counted and answered by ERROR.indication. R210: one for a slot after the
one at which the cell stops is discarded without an answer. -/
def Obligations.SlotMessages : Prop :=
  ∀ (s : State) (cell slot : Nat) (c : Cell), MessageReady s cell c →
    (c.st = .running → c.stopSlot = none → c.stopping = false → c.slotNow.getD 0 + 2 ≤ slot →
      (∀ l, exec (.dlTtiRequest cell slot l) s = .next ((taken cell c s).modCell cell fun c =>
        { c with dl := Assoc.set c.dl slot (Assoc.get c.dl slot [] ++ l) })) ∧
      (∀ l, exec (.ulDciRequest cell slot l) s = .next ((taken cell c s).modCell cell fun c =>
        { c with dci := Assoc.set c.dci slot (Assoc.get c.dci slot [] ++ l) })) ∧
      (∀ l, exec (.txDataRequest cell slot l) s = .next ((taken cell c s).modCell cell fun c =>
        { c with tx := Assoc.set c.tx slot (Assoc.get c.tx slot [] ++ l) })) ∧
      (∀ (a : UlAlloc) (e : CellRec), s.cfg.cellRec cell = some e → allocOk e.rx a = true →
        (∀ n, engineLimit a.kind = some n → s.engineLoad e slot a.kind < n) →
        ∃ t, exec (.ulTtiRequest cell slot [a]) s = .next t ∧ (t.cell cell).map (·.allocs) = some (c.allocs ++ [{ slot := slot, alloc := a }]) ∧
          (t.cell cell).map (·.freezes) = some (c.freezes ++ [(slot * 14 + a.firstSym, slot * 14 + a.lastSym)])) ∧
      (∀ (a : UlAlloc) (e : CellRec), s.cfg.cellRec cell = some e → allocOk e.rx a = false →
        exec (.ulTtiRequest cell slot [a]) s = .next (sendError cell errSlot (Config.fapiType msgUlTti).toNat slot (taken cell c s)))) ∧
    (∀ i l d x u, i = Instr.dlTtiRequest cell slot l ∨ i = .ulDciRequest cell slot d ∨ i = .txDataRequest cell slot x ∨ i = .ulTtiRequest cell slot u →
      (c.st = .running → c.stopSlot = none → c.stopping = false → slot < c.slotNow.getD 0 + 2 → slot ∉ c.lateSlots →
        ∃ t, exec i s = .next t ∧ (t.cell cell).map (·.cnt.dlLate) = some (satAdd 32 c.cnt.dlLate 1) ∧
          (t.cell cell).map (·.dl) = some c.dl ∧ (t.cell cell).map (·.tx) = some c.tx ∧ (t.cell cell).map (·.dci) = some c.dci ∧
          (t.cell cell).map (·.allocs) = some c.allocs) ∧
      (∀ n, c.stopAt = some n → n < slot → exec i s = .next (taken cell c s)))

/-- R211, R213, R217 to R224, R242: the uplink of a running cell. A symbol whose window has passed is counted late; a decoded block leaves its queue, and its
LLRs enter an empty HARQ buffer or are added with saturation to those of a clean one; an engine's report ends its allocations; past the deadline an allocation
of the slot is over; and the end of a frame writes the cell's status area. -/
def Obligations.UplinkChain : Prop :=
  ∀ (s : State) (cell slot : Nat) (c : Cell) (e : CellRec), s.cell cell = some c → s.cfg.cellRec cell = some e →
    (∀ sym ant r, c.st = .running → symbolStart s.time.alpha e.scs slot (sym + 1) + c.tlv.ulWindow * 1000 ≤ s.devTime → sym < 14 →
      ant < (s.cfg.ulFlows cell).length → r ∈ c.allocs → r.slot = slot → r.alloc.firstSym ≤ sym → sym ≤ r.alloc.lastSym →
      Assoc.find r.arrived (sym * 256 + ant) = none →
      ∃ t, exec (.ulWindowExpiry cell slot sym ant) s = .next t ∧ (t.cell cell).map (·.cnt.ulLate) = some (satAdd 32 c.cnt.ulLate 1)) ∧
    (∀ die block b r buf ok iters llrs data, ((Assoc.get s.radio.queues die []).take 8).find? (·.id == block) = some b → b.cell = cell →
      b.slot = slot → 0 < iters → iters ≤ b.limit → s.devTime < b.due → r.noStore = false →
      (c.allocs.find? fun r => r.slot == slot && r.alloc.id == b.alloc) = some r → Assoc.find c.harq (harqKey r.alloc b.number) = some buf →
      r.done + 1 < r.alloc.blocks →
      ∃ t, exec (.codeBlockDecoded die block ok iters ⟨llrs, data⟩) s = .next t ∧
        Assoc.get t.radio.queues die [] = (Assoc.get s.radio.queues die []).filter (·.id != block) ∧
        (buf.filled = false → t.tower = (writeHarq cell buf llrs s).tower) ∧
        (buf.filled = true → (s.harqLlrs cell buf).2 = false →
          t.tower = (writeHarq cell buf (((s.harqLlrs cell buf).1.zip (fitTo buf.len llrs)).map fun x => addLlr x.1 x.2) s).tower)) ∧
    (∀ report, let mine := fun (r : AllocRun) => r.slot == slot && r.alloc.kind == reportKind report
      c.allocs.any mine = true → (s.lateAllocs c e slot).any mine = false → c.stopSlot = none →
      ∃ t, exec (.uplinkEngineReport cell slot e.bDie report) s = .next t ∧
        (t.cell cell).map (·.allocs) = some (c.allocs.filter fun r => !mine r)) ∧
    (∀ r, r ∈ s.lateAllocs c e slot →
      ∃ t c', exec (.uplinkIndicationDeadline cell slot) s = .next t ∧ t.cell cell = some c' ∧
        ∀ x ∈ c'.allocs, ¬ (x.slot = slot ∧ x.alloc = r.alloc)) ∧
    (∀ sfn noise rssi, c.dirRead = true →
      ∃ c', exec (.frameEnd cell sfn noise rssi) s = .next (writeDev c.statusAddr (c'.status e.rx) false (s.setCell cell c')) ∧
        c'.cnt.sfn = sfn % 1024 ∧ c'.cnt.rssi = rssi ∧ c'.st = c.st ∧ c'.cnt.crcOk = c.cnt.crcOk)

/-- R236 to R242, R244, R245: a running cell's C-plane leaves 250 to 350 µs and its U-plane 100 to 150 µs before the symbol, PA control at least 250 µs before its
moment, each with the flow's next sequence number and the addresses of its port and peer; a received frame with a bad FCS, of another kind, or of no flow of a
running cell is counted, and one outside its window counts as early or late. -/
def Obligations.FronthaulMessages : Prop :=
  (∀ (s : State) (cell slot sym i : Nat) (c : Cell) (e : CellRec) (f : FlowRec) (p : FhPeer), s.cell cell = some c →
    s.cfg.cellRec cell = some e → s.cfg.flows[i]? = some f → c.st = .running → f.cell = cell → sym < 14 →
    s.fhPeer cell f.port = some p →
    (∀ weights : List Granule, f.cplane = true → s.before_ e.scs slot sym 250000 350000 = true → weights = [] ∨ e.split = 1 →
      (∀ g ∈ weights, (Code.value g).2 = false) →
      exec (.downlinkCplaneSend cell slot sym i weights) s = .next (sendFlow cell i f p.sub
        (fun q => .cplane f.port p.sub p.mac f.vid f.pcp f.eaxc q (compHdr (s.cfg.uplaneComp f)) (sendWeights f.comp weights)) s)) ∧
    (∀ prbs : List Prb, f.cplane = false → f.uplink = false → s.before_ e.scs slot sym 100000 150000 = true →
      prbs.length ≤ (s.port f.port).prbsPerMessage f.comp →
      ∃ t, exec (.downlinkUplaneSend cell slot sym i prbs) s = .next t ∧
        (t.cell cell).map (fun c => Assoc.get c.sentIds i 0) = some ((Assoc.get c.sentIds i 0 + 1) % 256) ∧
        (s.subUp f.port p.sub = true → t.out.head? = some (.uplane f.port p.sub p.mac f.vid f.pcp f.eaxc (Assoc.get c.sentIds i 0)
          (prbs.map (sendPrb e.onSquares f.comp)))))) ∧
  (∀ (s : State) (cell i time : Nat) (enable : Bool) (ants : BitVec 4) (c : Cell) (e : CellRec) (f : FlowRec) (p : FhPeer),
    s.cell cell = some c → s.cfg.cellRec cell = some e → c.st = .running → e.split = 2 →
    (s.cfg.flows.findIdx? fun f => f.cell == cell && f.cplane && !f.uplink) = some i → s.cfg.flows[i]? = some f →
    s.fhPeer cell f.port = some p →
    let at_ := if enable then time - c.tlv.paLead else time + c.tlv.paLag
    s.devTime + 250000 ≤ at_ →
    exec (.paControlSend cell enable ants time) s = .next (sendFlow cell i f p.sub
      (fun _ => .paControl f.port p.sub p.mac f.vid f.pcp f.eaxc (paPayload enable ants at_)) s)) ∧
  (∀ (s : State) (f : UplaneFrame), s.subUp f.port f.sub = true →
    (f.fcsOk = false → ∃ t, exec (.ecpriUplaneReceive f) s = .next t ∧ (t.port f.port).rx = satAdd 32 (s.port f.port).rx 1 ∧
      (t.port f.port).fcsErr = satAdd 32 (s.port f.port).fcsErr 1) ∧
    (f.fcsOk = true → f.ecpri = false ∨ f.frag = true ∨ (∀ w ∈ s.cfg.flows, w.port ≠ f.port ∨ w.eaxc ≠ f.eaxc) →
      ∃ t, exec (.ecpriUplaneReceive f) s = .next t ∧ (t.port f.port).rx = satAdd 32 (s.port f.port).rx 1 ∧
        (t.port f.port).discard = satAdd 32 (s.port f.port).discard 1 ∧ t.radio = s.radio) ∧
    (∀ i w c e ant first last, f.fcsOk = true → f.ecpri = true → f.frag = false → f.gridOk = true → f.symbol < 14 →
      (s.cfg.flows.findIdx? fun w => w.port == f.port && w.eaxc == f.eaxc && w.vid == f.vid && w.pcp == f.pcp && w.uplink == f.uplink &&
        w.uplink && !w.cplane && ((s.cell w.cell).map fun c => c.st == .running) == some true) = some i → s.cfg.flows[i]? = some w →
      s.cell w.cell = some c → s.cfg.cellRec w.cell = some e → (s.cfg.ulFlows w.cell).findIdx? (· == w) = some ant →
      c.frameSpan f = some (first, last) →
      let start := symbolStart s.time.alpha e.scs f.slot first
      let stop := symbolStart s.time.alpha e.scs f.slot (last + 1) + c.tlv.ulWindow * 1000
      ∃ t, exec (.ecpriUplaneReceive f) s = .next t ∧
        (s.devTime < start → (t.port f.port).early = satAdd 32 (s.port f.port).early 1) ∧
        (start ≤ s.devTime → stop < s.devTime → (t.port f.port).late = satAdd 32 (s.port f.port).late 1) ∧
        (start ≤ s.devTime → s.devTime ≤ stop → (t.port f.port).early = (s.port f.port).early ∧
          (t.port f.port).late = (s.port f.port).late ∧ (t.port f.port).discard = (s.port f.port).discard)))

/-- R235, R237, R243, R246, R251, R252, R262 to R264: fronthaul links, ESMC and PTP on master ports. A lost link and a regained
one are recorded; delay measurements are answered on a port with a flow, and delay requests on a master port, with the corrected
stamp; a master port sends Sync with device time and Announce with the clockClass of the time state; each sub-port with its link
sends the quality level; FH_CONFIG sets the ports' modes and peers while no changed port carries a running cell. -/
def Obligations.FronthaulPorts : Prop :=
  ∀ (s : State) (port sub : Nat),
    (s.subUp port sub = true →
      (∃ t, exec (.fhLinkDown port sub) s = .next t ∧ t.subUp port sub = false) ∧
      (∀ ql, exec (.esmcReceive port sub ql) s = .next (s.modPort port fun p => { p with rx := satAdd 32 p.rx 1, qlRx := ql })) ∧
      (∀ raw : Nat, s.cfg.flows.any (·.port == port) = true →
        exec (.oneWayDelayMeasurement port sub raw) s = .next (emit (.delayResponse port sub ((raw : Int) - Config.rxPathPs port))
          (s.modPort port fun p => { p with rx := satAdd 32 p.rx 1, tx := satAdd 32 p.tx 1 }))) ∧
      (∀ raw : Nat, s.masterPort port sub = true →
        exec (.ptpDelayReq port sub raw) s = .next (emit (.ptp port sub 2 ((raw : Int) - Config.rxPathPs port))
          (s.modPort port fun p => { p with rx := satAdd 32 p.rx 1, tx := satAdd 32 p.tx 1 }))) ∧
      (∀ sync, s.masterPort port sub = true →
        exec (.ptpMasterSend port sub sync) s = .next (emit
          (if sync then .ptp port sub 0 ((s.devTime * 1000 + Config.txPathPs port : Nat) : Int) else .ptp port sub 1 (s.announceClass : Int))
          (s.modPort port fun p => { p with tx := satAdd 32 p.tx 1 })))) ∧
    (s.isSub port sub = true → s.subUp port sub = false →
      ∃ t, exec (.fhLinkUp port sub) s = .next t ∧ t.subUp port sub = true) ∧
    (s.time.esmcDue ≤ s.up → ∃ t, exec .esmcSend s = .next t ∧ t.time.esmcDue = s.up + 1000000000 ∧
      ∀ p i, p < 8 → i < 4 → s.subUp p i = true → Out.esmc p i s.time.qlTx ∈ t.out) ∧
    (∀ count, MailboxFree s 0x0003 → count ≤ 1024 → fieldAt (cellsAt s.mbox.buf 0 (16 + 16 * count)) 8 2 = count →
      (∀ q, s.portBusy q = false) →
      ∃ t, exec (.fhConfig none (16 + 16 * count)) s = .next t ∧ t.mbox.st = .running ∧ t.mbox.answer.1 = mbOk ∧
        t.fh.peers = (List.range count).map (fun i =>
          parsePeer (((cellsAt s.mbox.buf 0 (16 + 16 * count)).drop (16 + 16 * i)).take 16)) ∧
        ∀ q, q < 8 → (t.port q).breakout = bit (fieldAt (cellsAt s.mbox.buf 0 (16 + 16 * count)) q 1) 0)

/-- R257: RELOCK and TIME_SET act only while every cell is stopped. RELOCK returns the time state to ACQUIRING, or to FREERUN
where no domain is qualified, and the next lock steps again, by the active domain's offset; TIME_SET steps device time in
FREERUN and stays there, and is ignored with REFUSED and no record in another state; while a cell runs both are ignored with
REFUSED and TIME_RELOCK_REFUSED. -/
def Obligations.RelockAndTimeSet : Prop :=
  ∀ (s : State),
    (∀ v, ManagerServed s → s.radioRunning = false →
      (∃ t, exec (.relock none) s = .next t ∧ t.time.st = if s.qualified 0 || s.qualified 1 then .acquiring else .freerun) ∧
      (s.time.st = .freerun → ∃ t, exec (.timeSet none v) s = .next t ∧ t.devTime = v.toNat ∧ t.time.st = .freerun) ∧
      (s.time.st ≠ .freerun → ∃ t, exec (.timeSet none v) s = .next t ∧ t.devTime = s.devTime ∧ t.time.refused = true ∧
        t.time.st = s.time.st ∧ t.elog = s.elog)) ∧
    (∀ v, ManagerServed s → s.radioRunning = true → ∀ i, i = Instr.relock none ∨ i = .timeSet none v →
      ∃ t, exec i s = .next t ∧ t = record 0x3205 0x00 0xFFFF [] (timeRefused s) ∧ t.time.refused = true ∧ t.time.st = s.time.st ∧
        t.devTime = s.devTime) ∧
    (s.time.st = .acquiring → s.qualified s.time.active = true → (s.dom s.time.active).settled s.up = true →
      ∃ t, exec .timeFirstLock s = .next t ∧ t.time.st = .locked ∧
        t.devTime = ((s.devTime : Int) + (s.dom s.time.active).offset).toNat % 2 ^ 64)

/-- R249: a 64-bit read of TIME_NOW returns device time as one value; a 32-bit read of its low half returns that half and
latches the high one; the next 32-bit read of the high half, in whatever state it finds the device, returns what was latched. -/
def Obligations.TimeNowReads : Prop :=
  ∀ (s : State), ManagerServed s →
    exec (.rcRegisterRead ⟨none, 4, 0x1000, 8⟩) s = .next (emit (.readValue (BitVec.ofNat 64 s.devTime)) s) ∧
    ∃ t, exec (.timeNowLowRead none) s = .next t ∧ t.out = .readValue (BitVec.ofNat 64 (s.devTime % 2 ^ 32)) :: s.out ∧
      t.devTime = s.devTime ∧
      ∀ u : State, ManagerServed u → u.time.latch = t.time.latch →
        exec (.rcRegisterRead ⟨none, 4, 0x1004, 4⟩) u = .next (emit (.readValue (BitVec.ofNat 64 (s.devTime / 2 ^ 32))) u)

/-- R250, R251, R253 to R256, R264: what moves device time's domains and its state. A slave sub-port's Sync gives the
corrected stamp less the origin; an Announce of the best sender makes it the parent; an invalid exchange starts the count of valid ones anew, a valid
one gives the servo what it measured, and RATE moves by at most 1 ppm (R255); a parent without an Announce for 375 ms is lost; HOLDOVER is recorded every
hour; SELECT takes a qualified domain, and TIME_FRAME_OFS a value in its range while every cell is stopped. -/
def Obligations.TimeStates : Prop :=
  ∀ (s : State),
    (∀ port sub domain d raw origin cls, s.subUp port sub = true → s.slaveDomain domain port sub = some d →
      (∃ t, exec (.ptpSync port sub domain raw origin) s = .next t ∧
        (t.dom d).lastSync = some ((raw : Int) - Config.rxPathPs port - origin) ∧ t.time.st = s.time.st) ∧
      (∃ t, exec (.ptpAnnounce port sub domain cls true) s = .next t ∧ (t.dom d).parent = some (cls, 4 * port + sub) ∧
        (t.dom d).lastAnn = s.up)) ∧
    (∀ domain d valid sent received, ([0, 1].find? fun d => (s.dom d).en && (s.dom d).num == domain) = some d →
      (valid = false ∨ (s.dom d).lastSync = none → ∃ t, exec (.ptpDelayResp domain valid sent received) s = .next t ∧ (t.dom d).valid = 0) ∧
      (∀ sync, valid = true → (s.dom d).lastSync = some sync →
        ∃ t, exec (.ptpDelayResp domain valid sent received) s = .next t ∧ (t.dom d).valid = (s.dom d).valid + 1 ∧
          (t.dom d).offset = Config.servoFilter (if (s.dom d).valid = 0 then none else some (s.dom d).offset) ((s.dom d).measured sync (received - sent)))) ∧
    (∀ domain valid sent received, (∀ d, d < 2 → (s.dom d).en = true → (s.dom d).num ≠ domain) → exec (.ptpDelayResp domain valid sent received) s = .next s) ∧
    (∀ want, s.time.rate - 4294 ≤ s.rateToward want ∧ s.rateToward want ≤ s.time.rate + 4294) ∧
    (∀ d, d < 2 → (s.dom d).parent ≠ none → (s.dom d).lastAnn + 375000000 < s.up →
      ∃ t, exec (.domainAnnounceTimeout d) s = .next t ∧ (t.dom d).parent = none) ∧
    (s.time.st = .holdover → s.time.holdoverAt + 3600000000000 ≤ s.up →
      ∃ t, exec .timeHoldover s = .next t ∧ t.time.holdoverAt = s.up ∧ t.time.st = .holdover) ∧
    (ManagerServed s →
      (∀ v, s.radioRunning = true → ∃ t, exec (.timeFrameOfsWrite none v) s = .next t ∧ t.time.alpha = s.time.alpha ∧ t.time.refused = true) ∧
      (∀ d, d < 2 → s.qualified d = true → ∃ t, exec (.select none d) s = .next t ∧ t.time.active = d) ∧
      (∀ d, s.qualified d = false → ∃ t, exec (.select none d) s = .next t ∧ t.time.active = s.time.active ∧ t.time.refused = true) ∧
      (∀ v : BitVec 64, s.radioRunning = false → bits v.toNat 23 0 ≤ 9999999 →
        exec (.timeFrameOfsWrite none v) s = .next { s with time := { s.time with alpha := bits v.toNat 23 0 } }))

/-- R249, R260 to R262: pulses, captures and SyncE. A one-shot whose AT is no later than 100 ns from now fires at once with
LATE, another is armed and fires at AT with DONE; a value out of range is refused; a periodic pin takes its registers at its
leading edge; a capture queue keeps 16 stamps and loses the next with CAP_OVF; a read of its register takes the oldest; a change
of the SyncE source loses the lock and holds the output for 100 µs. -/
def Obligations.PulsesCapturesAndSyncE : Prop :=
  ∀ (s : State) (n : Nat),
    (ManagerServed s → n < 4 →
      (∀ v : BitVec 64, bits v.toNat 1 0 ≠ 3 → v.toNat / 2 ^ 32 < (s.pulse n).period →
        let now := bits v.toNat 1 0 = 1 ∧ (s.pulse n).aT.toNat ≤ s.devTime + 100
        ∃ t, exec (.timeOutCfgWrite none n v) s = .next t ∧ ((t.pulse n).mode = if now then 0 else bits v.toNat 1 0) ∧
          ((t.pulse n).armed = true ↔ bits v.toNat 1 0 = 1 ∧ s.devTime + 100 < (s.pulse n).aT.toNat) ∧
          (now → t.time.outLate = s.time.outLate ||| BitVec.ofNat 4 (2 ^ n))) ∧
      (∀ v : BitVec 64, bits v.toNat 1 0 = 3 ∨ (s.pulse n).period ≤ v.toNat / 2 ^ 32 →
        ∃ t, exec (.timeOutCfgWrite none n v) s = .next t ∧ t.pulse n = s.pulse n ∧ t.time.refused = true) ∧
      (∀ v, ∃ t, exec (.timeOutAtWrite none n v) s = .next t ∧ (t.pulse n).aT = v ∧
        ((t.pulse n).armed = true ↔ (s.pulse n).armed = true ∧ s.devTime + 100 < v.toNat))) ∧
    ((s.pulse n).armed = true → (s.pulse n).aT.toNat ≤ s.devTime →
      ∃ t, exec (.oneShotFire n) s = .next t ∧ (t.pulse n).mode = 0 ∧ (t.pulse n).armed = false ∧
        t.time.outDone = s.time.outDone ||| BitVec.ofNat 4 (2 ^ n) ∧ t.time.outLate = s.time.outLate) ∧
    (∀ pol period width phase, (s.pulse n).run = some (pol, period, width, phase) →
      (s.pulse n).last < lastEdge s.devTime period phase →
      ∃ t, exec (.timeOutPeriodicEdge n) s = .next t ∧ (t.pulse n).last = lastEdge s.devTime period phase ∧
        (t.pulse n).run = (if (s.pulse n).mode = 2
          then some ((s.pulse n).polarity, (s.pulse n).period, (s.pulse n).width, (s.pulse n).phase) else none) ∧
        t.out = if (s.pulse n).mode = 2 then .pulse n (s.pulse n).width :: s.out else s.out) ∧
    (n < 2 →
      (∀ e, bit s.time.inCfg.toNat n = e → (Assoc.get s.time.caps n []).length < 16 →
        ∃ t, exec (.timeInEdge n e) s = .next t ∧ Assoc.get t.time.caps n [] = Assoc.get s.time.caps n [] ++ [BitVec.ofNat 32 s.stamp] ∧
          t.time.capOvf = s.time.capOvf) ∧
      (∀ e, bit s.time.inCfg.toNat n = e → 16 ≤ (Assoc.get s.time.caps n []).length →
        ∃ t, exec (.timeInEdge n e) s = .next t ∧ t.time.caps = s.time.caps ∧
          t.time.capOvf = s.time.capOvf ||| BitVec.ofNat 2 (2 ^ n)) ∧
      (∀ v q, ManagerServed s → Assoc.get s.time.caps n [] = v :: q →
        ∃ t, exec (.timeInCapRead none n) s = .next t ∧ t.out = .readValue (BitVec.ofNat 64 (2 ^ 32 + v.toNat)) :: s.out ∧
          Assoc.get t.time.caps n [] = q) ∧
      (ManagerServed s → Assoc.get s.time.caps n [] = [] → exec (.timeInCapRead none n) s = .next (emit (.readValue 0) s))) ∧
    (ManagerServed s → ∃ t, exec (.timeNowLowRead none) s = .next t ∧ t.out = .readValue (BitVec.ofNat 64 s.stamp) :: s.out ∧
      t.time.latch = BitVec.ofNat 32 (s.devTime / 2 ^ 32)) ∧
    (∀ v : BitVec 64, ManagerServed s →
      ∃ t, exec (.timeSynceWrite none v) s = .next t ∧ t.time.qlTx = BitVec.ofNat 4 (bits v.toNat 19 16) ∧ t.time.synceEn = bit v.toNat 7 ∧
        (bit v.toNat 7 ≠ s.time.synceEn → t.time.synceLock = false ∧
          t.time.holdUntil = if bit v.toNat 7 then some (s.up + 100000) else none)) ∧
    (s.time.synceEn = true → s.time.synceLock = true → ∃ t, exec .synceLockLoss s = .next t ∧ t.time.synceLock = false) ∧
    (s.time.synceEn = true → s.time.synceLock = false → ∃ t, exec .synceLockRegained s = .next t ∧ t.time.synceLock = true) ∧
    (∀ at_, s.time.holdUntil = some at_ → at_ ≤ s.up → ∃ t, exec .synceSourceHoldEnd s = .next t ∧ t.time.holdUntil = none)

/-- R269 to R274: the manager's operations on a declared burgee while none runs: ENABLE takes FREE to ACTIVE, QUIESCE ACTIVE to
DRAINING, RESUME QUIET to ACTIVE, DISABLE QUIET to DISABLED, RELEASE WIPED to FREE; FORCE and WIPE run and end in DISABLED and
WIPED; a state that the operation does not take answers WRONG_STATE and stays. R272 to R274: a draining burgee with nothing in
flight is QUIET; a FORCE whose steps have ended leaves the burgee DISABLED; a WIPE that is done leaves it WIPED, with every byte
of its regions' units zero and its page's counters cleared. -/
def Obligations.BurgeeOperations : Prop :=
  (∀ (s : State) (b : Nat), ManagerServed s → b ≠ 0 → (s.cfg.burgee b).isSome = true → (s.burgee b).opPending = false →
    (s.cfg.partOf b ≠ some 0 ∨ s.radioRunning = false) →
    ((s.burgee b).state = .free → ∃ t, exec (.enable none b) s = .next t ∧ (t.burgee b).state = .active ∧ t.sched.mgrStatus = 0 ∧
      (t.burgee b).energyUj = 0 ∧ (t.burgee b).cmdDone = 0) ∧
    ((s.burgee b).state = .active → ∃ t, exec (.quiesce none b) s = .next t ∧ (t.burgee b).state = .draining) ∧
    ((s.burgee b).state = .quiet → ∃ t, exec (.resume none b) s = .next t ∧ (t.burgee b).state = .active) ∧
    ((s.burgee b).state = .quiet → ∃ t, exec (.disable none b) s = .next t ∧ (t.burgee b).state = .disabled) ∧
    ((s.burgee b).state = .active ∨ (s.burgee b).state = .draining →
      ∃ t, exec (.force none b) s = .next t ∧ (t.burgee b).forcing = true ∧ (t.burgee b).opPending = true ∧
        (t.burgee b).state = (s.burgee b).state) ∧
    ((s.burgee b).state = .disabled → ∃ t, exec (.wipe none b) s = .next t ∧ (t.burgee b).wiping = true ∧ (t.burgee b).opPending = true) ∧
    ((s.burgee b).state = .wiped → ∃ t, exec (.release none b) s = .next t ∧ (t.burgee b).state = .free) ∧
    (∀ i l, (i, l) ∈ [(Instr.enable none b, [BState.free]), (.quiesce none b, [.active]), (.resume none b, [.quiet]), (.disable none b, [.quiet]),
        (.force none b, [.active, .draining]), (.wipe none b, [.disabled]), (.release none b, [.wiped])] → (s.burgee b).state ∉ l →
      exec i s = .next { s with sched := { s.sched with mgrBurgee := b % 256, mgrStatus := bsWrongState } })) ∧
  (∀ (s : State) (b : Nat),
    (b ≠ 0 → (s.burgee b).state = .draining → (s.burgee b).forcing = false →
      (∀ c ∈ s.sched.cmds, c.2.burgee = b → c.2.stage ≠ .launched ∧ c.2.stage ≠ .copying ∧ c.2.stage ≠ .ended) →
      s.squareTags b = false → (∀ o ∈ s.hub.outs, o.burgee ≠ b) → s.messagePending b = false →
      ∃ t, exec (.burgeeQuiet b) s = .next t ∧ (t.burgee b).state = .quiet) ∧
    ((s.burgee b).forcing = true → s.squareTags b = false → (∀ o ∈ s.hub.outs, o.burgee = b → o.sent = true) →
      ∃ t, exec (.forceDone b) s = .next t ∧ (t.burgee b).state = .disabled ∧ (t.burgee b).forcing = false ∧
        (t.burgee b).opPending = false) ∧
    ((s.burgee b).wiping = true →
      ∃ t, exec (.burgeeWipeDone b) s = .next t ∧ (t.burgee b).state = .wiped ∧ (t.burgee b).wiping = false ∧ (t.burgee b).cmdDone = 0 ∧
        (t.burgee b).en = false ∧
        ∀ r ∈ s.cfg.regions, r.burgee = b → b ≠ 255 → ∀ tw ∈ bitList 6 r.mask, ∀ a, r.first * gib ≤ a → a < (r.first + r.units) * gib →
          t.tower.byte (tw * towerSize + a) = 0))

/-- R281 to R283, R360: a turn that is due moves the table on by one entry and 2 µs; a launch turn outside any window launches the
oldest fitting command and opens its window, stays idle where there is none and counts it, is delayed by a command that still
runs, and pays off its context's debt; before it fill rises on the board's squares. R284 to R288, R78, R79: slices, launches outside them, fall points, promotion, latency
targets and bounds. A debt of 1,000 µs or more skips a slice and a smaller one shortens it; an overrun becomes a debt; a command
past its bound ends with OVERRUN on every context that still runs. -/
def Obligations.TurnsAndSlices : Prop :=
  (∀ (s : State) (board : Nat) (tab : TurnTable) (e : Turn), s.cfg.turntable board = some tab → tab.board = board →
    tab.turns[(s.turnRun board).pos]? = some e →
    (s.turnRun board).due ≤ s.up → s.sched.stopped = false → s.pwr.issueStop = false →
    let r := s.turnRun board
    let n := tab.turns.length
    let s0 := governStart board tab r s
    let debt := Assoc.get r.debts e.slot 0
    let stop := r.due + e.held * turnNs - debt * 1000
    let s1 := s0.setTurn board ((s0.turnRun board).next n)
    let paid := { (s0.turnRun board).next n with debts := Assoc.set r.debts e.slot 0 }
    let s2 := s1.setTurn board paid
    (e.action ≠ 1 ∨ (r.owner.isSome = true ∧ s.up < r.windowEnd) → exec (.turnStart board) s = .next (pumpSlices s1)) ∧
    (∀ e', tab.turns[(r.pos + 1) % max 1 n]? = some e' → e'.action = 1 → (r.owner = none ∨ r.windowEnd ≤ r.due) → s.tempoSquares board ≠ 0 →
      (s0.turnRun board).fill = some { rises := true, since := r.due }) ∧
    (e.action = 1 → (r.owner = none ∨ r.windowEnd ≤ s.up) →
      (e.held * turnNs ≤ debt * 1000 → ∃ t, exec (.turnStart board) s = .next t ∧ (t.turnRun board).owner = none ∧
        Assoc.get (t.turnRun board).debts e.slot 0 = 0 ∧ (t.turnRun board).due = r.due + turnNs) ∧
      (debt * 1000 < e.held * turnNs → s.turnBusy r = true → ∃ t, exec (.turnStart board) s = .next t ∧
        (t.turnRun board).delayed = some (r.pos, stop) ∧ (t.turnRun board).late = r.late + 1) ∧
      (debt * 1000 < e.held * turnNs → s.turnBusy r = false → (∀ c ∈ s.sched.cmds, s.eligible c.2 = false) →
        ∃ t, exec (.turnStart board) s = .next t ∧ (t.turnRun board).empty = r.empty + 1 ∧ (t.turnRun board).owner = none ∧
          (t.turnRun board).pos = (r.pos + 1) % max 1 n) ∧
      (∀ d, debt * 1000 < e.held * turnNs → s.turnBusy r = false → s2.turnCmd tab e = some d → s2.clear d = true →
        exec (.turnStart board) s = .next (launchIt d (pauseSlices (s2.squaresOf board) (governTurn board none true (s2.setTurn board
          { paid with owner := some e.slot, windowEnd := stop, cmd := some d.id, delayed := none })))))) ) ∧
  (∀ (s : State),
    (∀ d, s.sched.stopped = false → s.pwr.issueStop = false → s.pickPair s.pairs [] = some d →
      let k := debtKey d.burgee d.board
      let debt := Assoc.get s.sched.debts k 0
      (1000 ≤ debt → ∃ t, exec .sliceStart s = .next t ∧ Assoc.get t.sched.debts k 0 = debt - 1000 ∧ t.sched.slices = s.sched.slices) ∧
      (debt < 1000 →
        let x : Slice := { board := d.board, burgee := d.burgee, opened := s.up, length := (1000 - debt) * 1000, paused := 0, pausedAt := none, taken := s.takenFrom d }
        ∃ t, exec .sliceStart s = .next t ∧ t.sched.slices = s.sched.slices ++ [x] ∧ Assoc.get t.sched.debts k 0 = 0)) ∧
    (∀ board x, (s.sched.slices.find? fun x => x.board == board && x.pausedAt.isNone && !s.sliceRuns x &&
        (s.sliceOver x || (s.nextIn x.board x.burgee).isNone)) = some x →
      let used := (s.up - x.opened - x.paused) / 1000
      ∃ t, exec (.sliceEnd board) s = .next t ∧ t.sched.slices = s.sched.slices.filter (· != x) ∧
        Assoc.get t.sched.debts (debtKey x.burgee x.board) 0 =
          Assoc.get s.sched.debts (debtKey x.burgee x.board) 0 + (used - x.length / 1000)) ∧
    (∀ n d, s.cmd n = some d →
      (s.eligible d = true → s.atBoundary d = true → s.cfg.turntable d.board = none → s.clear d = true →
        (d.forced = true ∨ ∀ c ∈ s.sched.cmds, ¬ (s.eligible c.2 = true ∧ s.atBoundary c.2 = true ∧ c.2.forced = false ∧ c.2.board = d.board ∧
          c.2.burgee = d.burgee ∧ c.2.cls = d.cls ∧ c.2.id < d.id)) →
        exec (.priorityLaunch n) s = .next (launchIt d (pauseSlices (s.squaresOf d.board)
          (s.modCmd n fun c => { c with priority := true })))) ∧
      (∀ at_ f, d.deadline = some at_ → s.fallEntry d = some (f, 0) → at_ ≤ s.devTime + (if ((s.cfg.board d.board).map (·.part)) = some 0 then 0
          else f.minUs * 1000) → d.isFallback = false → d.status = none → d.stage ≠ .ended → d.stage ≠ .launched →
        ∃ t, exec (.fallPoint n) s = .next t ∧ (t.cmd n).map (·.status) = some (some stFallback) ∧ (t.cmd n).map (·.stage) = some .ended ∧
          (t.cmd n).map (·.rolls.falls) = some (d.rolls.falls + 1)) ∧
      (∀ at_ f addr, d.deadline = some at_ → s.fallEntry d = some (f, addr) → addr ≠ 0 → at_ ≤ s.devTime + f.minUs * 1000 →
        d.isFallback = false → d.status = none → d.stage ≠ .ended → d.stage ≠ .launched →
        ∃ t, exec (.fallPoint n) s = .next t ∧ (t.cmd n).map (·.isFallback) = some true ∧
          (t.cmd n).map (·.rolls.falls) = some (d.rolls.falls + 1)) ∧
      (s.latencyUs d ≠ 0 → d.promoted = false → d.stage = .energy ∨ d.stage = .eligible → d.waitedSince + s.latencyUs d * 500 ≤ s.up →
        exec (.commandPromotion n) s = .next (s.modCmd n fun c => { c with promoted := true })) ∧
      (∀ cause : MissCause, s.latencyUs d ≠ 0 → d.missed = false → d.stage = .energy ∨ d.stage = .eligible →
        d.waitedSince + s.latencyUs d * 1000 ≤ s.up → cause.cause = 1 ∨ cause.cause = 2 ∨ cause.cause = 4 ∨ cause.cause = 5 →
        ∃ t, exec (.latencyTargetMiss n cause) s = .next t ∧ (t.cmd n).map (·.missed) = some true) ∧
      (d.stage = .launched → d.status = none → d.launchAt + d.boundUs * 1000 < s.up → (∃ m ∈ d.members, m.started = true ∧ m.ended = false) →
        ∃ t, exec (.commandOverrun n) s = .next t ∧ (t.cmd n).map (·.status) = some (some stOverrun) ∧
          (t.cmd n).map (·.reason) = some fOverrun ∧ ∀ c', t.cmd n = some c' → ∀ m ∈ c'.members, m.ended = true)) ∧
    (∀ l : List Shortfall, s.sched.nextFloor ≤ s.devTime → (∀ x ∈ l, s.floorShort x = true) →
      ∃ t, exec (.floorInterval l) s = .next t ∧ t.sched.nextFloor = (s.devTime / 100000 + 1) * 100000 ∧ t.sched.cmds = s.sched.cmds) ∧
    (s.sched.nextMs ≤ s.devTime →
      ∃ t, exec .cmdRateMillisecond s = .next t ∧ t.sched.nextMs = (s.devTime / 1000000 + 1) * 1000000))

/-- R307, R311, R320: a burgee's page of its own. Enabling good rings zeroes their indices and the doorbell, bad ones set
RING_ERR; a doorbell ahead by no more than the ring and not behind the last is taken, another is counted; a completion index no
further than BGE_CPL_WRITE is taken, another is counted. -/
def Obligations.RingRegisters : Prop :=
  ∀ (s : State) (p : Pasid) (page : Nat), s.hostSeen = true → page < 256 →
    (p = none ∧ page = 0 ∨ ∃ q, p = some q ∧ page ≠ 0 ∧ s.burgeeOf q = some page) →
    let g := s.burgee page
    (∀ v : BitVec 64, g.en = false → bit v.toNat 31 = true →
      let g' := { g with cplLog2 := BitVec.ofNat 5 (bits v.toNat 20 16), cmdLog2 := BitVec.ofNat 5 (bits v.toNat 4 0) }
      (s.ringsOk page g' (bits v.toNat 4 0) (bits v.toNat 20 16) = true →
        exec (.bgeRingCfgWrite p page v) s = .next (s.setBurgee page
          { g' with en := true, cmdRead := 0, cplWrite := 0, cplRead := 0, doorbell := 0 })) ∧
      (s.ringsOk page g' (bits v.toNat 4 0) (bits v.toNat 20 16) = false →
        exec (.bgeRingCfgWrite p page v) s = .next (s.setBurgee page { g' with ringErr := true }))) ∧
    (∀ v : BitVec 64, g.en = true → bit v.toNat 31 = false →
      exec (.bgeRingCfgWrite p page v) s = .next (if g.state = .quiet then s.setBurgee page { g with en := false } else s)) ∧
    (∀ v : BitVec 32, g.en = true → (v - g.cmdRead).toNat ≤ 2 ^ g.cmdLog2.toNat → (g.doorbell - g.cmdRead).toNat ≤ (v - g.cmdRead).toNat →
      exec (.commandDoorbell p page v) s = .next (s.setBurgee page { g with doorbell := v })) ∧
    (∀ v : BitVec 32, g.en = false ∨ 2 ^ g.cmdLog2.toNat < (v - g.cmdRead).toNat ∨ (v - g.cmdRead).toNat < (g.doorbell - g.cmdRead).toNat →
      exec (.commandDoorbell p page v) s = .next (s.setBurgee page { g with dbErr := satAdd 32 g.dbErr 1 })) ∧
    (∀ v : BitVec 32, (v - g.cplRead).toNat ≤ (g.cplWrite - g.cplRead).toNat →
      exec (.bgeCplReadWrite p page v) s = .next (s.setBurgee page { g with cplRead := v })) ∧
    (∀ v : BitVec 32, (g.cplWrite - g.cplRead).toNat < (v - g.cplRead).toNat →
      exec (.bgeCplReadWrite p page v) s = .next (s.setBurgee page { g with dbErr := satAdd 32 g.dbErr 1 }))

/-- R17, R79, R308 to R316, R351 to R356: a command's way. A read command takes the next number and CMD_READ moves on, with
MALFORMED where its granules are poisoned; a KERNEL command meets its checks in order (flag-fall, rights, lost members); a true
semaphore passes it to energy; a claim beyond every limit ends it with ENERGY and one that fits makes it eligible; copies start
and move part by part, a host failure ends them with HOST_ERROR; SYNC ends; and a command that has ended writes its completion
record. -/
def Obligations.CommandPath : Prop :=
  (∀ (s : State) (b : Nat),
    let a := (s.burgee b).ringBase.toNat * 64 + 64 * ((s.burgee b).cmdRead.toNat % 2 ^ (s.burgee b).cmdLog2.toNat)
    s.mayRead b = true → s.hubServes a 64 false = true → ∃ t, exec (.commandRead b) s = .next t ∧ (t.burgee b).cmdRead = (s.burgee b).cmdRead + 1 ∧ t.sched.nextCmd = s.sched.nextCmd + 1 ∧
      (t.cmd s.sched.nextCmd).map (·.burgee) = some b ∧ (t.cmd s.sched.nextCmd).map (·.index) = some (s.burgee b).cmdRead.toNat ∧
      ((readDev a 64 s).1.2 = true → (t.cmd s.sched.nextCmd).map (·.status) = some (some stMalformed))) ∧
  (∀ (s : State) (n : Nat) (d : Cmd), s.cmd n = some d →
    (d.stage = .read → d.opcode = 1 →
      (s.badFlagFall d = true → exec (.kernel n) s = .next (endCommand n stMalformed 0 s)) ∧
      (s.badFlagFall d = false → (s.noRights d || s.noBoardRights d) = true → exec (.kernel n) s = .next (endCommand n stNoRights 0 s)) ∧
      (s.badFlagFall d = false → (s.noRights d || s.noBoardRights d) = false → s.sched.lost.any (·.1 == d.board) = true →
        exec (.kernel n) s = .next (endCommand n stMemberLost 0 s)) ∧
      (s.badFlagFall d = false → (s.noRights d || s.noBoardRights d) = false → s.sched.lost.any (·.1 == d.board) = false →
        ∃ t, exec (.kernel n) s = .next t ∧ (t.cmd n).map (·.stage) = some (if d.flag 0 then .waiting else .energy) ∧
          (t.cmd n).map (·.waitedSince) = some s.up)) ∧
    (d.stage = .waiting → (s.tower.read s.cfg.key d.waitAddr 8).2 = false →
      semHolds (bits d.flags 2 1) (BitVec.ofNat 64 (leNat (s.tower.read s.cfg.key d.waitAddr 8).1)) d.waitValue = true →
      s.passesFor hubRequester d.burgee d.waitAddr 8 false = true →
      ∃ t, exec (.commandWaitSatisfied n) s = .next t ∧ t.cmd n = some { d with stage := .energy, waitedSince := s.up } ∧ t.tower = s.tower) ∧
    (d.stage = .energy → s.sched.stopped = false → s.pwr.issueStop = false →
      let part := (s.cfg.partOf d.burgee).getD 0
      let l := s.spreadCharge (s.localCharge d) (d.maxDurUs * 1000)
      (s.neverHeld d = false → (∃ e ∈ l, s.claimLimit part < e.2) → exec (.commandAdmit n) s = .next (endCommand n stEnergy 0 s)) ∧
      (s.neverHeld d = true ∨ ((∀ e ∈ l, e.2 ≤ s.claimLimit part) ∧ (s.localCharge d = 0 ∨ (s.energyHead n d = true ∧ s.claimFits part l = true))) →
        ∃ t c, exec (.commandAdmit n) s = .next t ∧ t.cmd n = some c ∧ (c.stage = .eligible ∨ c.stage = .launched))) ∧
    (d.stage = .eligible → s.inState d.burgee [.active] = true → (s.burgee d.burgee).cutHold = false →
      (d.opcode = 4 → exec (.sync n) s = .next (s.setCmd n { d with stage := .ended, launchAt := s.up, startStamp := s.stamp })) ∧
      (s.sched.stopped = false → s.pwr.issueStop = false →
        (d.opcode = 2 → ∃ t, exec (.copyIn n) s = .next t ∧ (t.cmd n).map (·.stage) = some .copying) ∧
        (d.opcode = 3 → ∃ t, exec (.copyOut n) s = .next t ∧ (t.cmd n).map (·.stage) = some .copying))) ∧
    (d.stage = .copying → d.copyBusy ≠ 0 → s.hostSeen = true →
      (∀ gs, (∀ o ∈ s.hub.outs, ¬ (o.kind = 4 ∧ o.cmd = n ∧ o.opcode = 1)) → ∃ t, exec (.copyHostCompletion n gs true) s = .next t ∧
        (t.cmd n).map (·.status) = some (some (d.status.getD stHostError)) ∧ (t.cmd n).map (·.copyBusy) = some 0) ∧
      (∀ gs : List Granule, d.copyOut = false → gs.length * 32 = d.copyBusy → s.cfg.leaseOf d.burgee (d.devAddr + d.copyPos) = none →
        s.hubServes (d.devAddr + d.copyPos) d.copyBusy true = true →
        ∃ t, exec (.copyHostCompletion n gs false) s = .next t ∧ (t.cmd n).map (·.copyPos) = some (d.copyPos + d.copyBusy)) ∧
      (d.copyOut = true → (∀ o ∈ s.hub.outs, ¬ (o.kind = 4 ∧ o.cmd = n ∧ o.opcode = 1)) →
        ∃ t, exec (.copyHostCompletion n [] false) s = .next t ∧ (t.cmd n).map (·.copyPos) = some (d.copyPos + d.copyBusy))) ∧
    (∀ uj, s.overFor n d = true → s.completionPasses d = true → d.sub = none → d.neural = none → (uj = 0 ∨ (d.opcode ≠ 4 ∧ d.launchAt ≠ 0)) →
      ∃ t, exec (.commandCompletion n uj) s = .next t ∧ (t.burgee d.burgee).cplWrite = (s.burgee d.burgee).cplWrite + 1 ∧
        (t.burgee d.burgee).cmdDone = satAdd 64 (s.burgee d.burgee).cmdDone 1))

/-- R8, R139, R140, R303 to R306, R317 to R323: the host's accesses. A read of tower memory returns the bytes and their poison
and a write stores them, unless they wait for their channel behind the accesses before them; a snoop is answered; the manager's mailbox buffer takes bytes and returns them; a write of a W1C
register clears the bits that are one; a read of an RC counter returns it and clears it; a PASID that does not own the BAR is
answered Unsupported Request and counted; unmasking a pending MSI-X entry sends its message. -/
def Obligations.HostAccesses : Prop :=
  ∀ (s : State),
    (∀ addr len, s.memServed = true → addr + len ≤ towerWindow → s.tow.hostWait = [] → s.hostPasses (.read addr len) = true →
      ∃ t, exec (.hostMemRead addr len) s = .next t ∧ t.out.head? = some (.memData (readDev addr len s).1.1 (readDev addr len s).1.2)) ∧
    (∀ addr bytes poison, s.memServed = true → addr + bytes.length ≤ towerWindow → s.tow.hostWait = [] → s.hostPasses (.write addr bytes poison) = true →
      ∃ t, exec (.hostMemWrite addr bytes poison) s = .next t ∧ t.tower = s.tower.write s.cfg.key addr bytes poison) ∧
    (∀ i x, (∃ addr len, addr + len ≤ towerWindow ∧ i = Instr.hostMemRead addr len ∧ x = .read addr len) ∨
        (∃ addr bytes poison, addr + bytes.length ≤ towerWindow ∧ i = .hostMemWrite addr bytes poison ∧ x = .write addr bytes poison) →
      s.memServed = true → s.tow.hostWait ≠ [] ∨ s.hostPasses x = false →
      exec i s = .next { s with tow := { s.tow with hostWait := s.tow.hostWait ++ [x] } }) ∧
    (∀ addr, s.hostSeen = true → exec (.hostSnoop addr) s = .next (emit .snoop s)) ∧
    (∀ off v, s.hostSeen = true → 0x10000 ≤ off → off + 8 ≤ 0x20000 → off % 8 = 0 →
      (∃ t, exec (.registerWrite ⟨none, 4, off, 8⟩ v) s = .next t ∧
        t.mbox.buf = putCells s.mbox.buf (off - 0x10000) (leBytes 8 (v.toNat % 2 ^ 64)) ∧ t.mbox.st = s.mbox.st) ∧
      exec (.rcRegisterRead ⟨none, 4, off, 8⟩) s = .next (emit (.memData (cellsAt s.mbox.buf (off - 0x10000) 8) false) s)) ∧
    (∀ v : BitVec 512, ManagerServed s →
      ∃ t, exec (.registerWrite ⟨none, 0, 0x038, 8⟩ v) s = .next t ∧
        t.irqStat = s.irqStat &&& ~~~ (BitVec.ofNat 8 (v.toNat % 2 ^ 64 % 2 ^ 64))) ∧
    (∀ b, ManagerServed s → b < 256 →
      exec (.rcRegisterRead ⟨none, 2, b * 0x1000 + 0x040, 4⟩) s = .next (emit (.readValue (BitVec.ofNat 64 ((s.burgee b).dbErr % 2 ^ 32)))
        (s.modBurgee b fun g => { g with dbErr := 0 }))) ∧
    (∀ (a : RegAccess) (q : BitVec 20) (v : BitVec 512), s.hostSeen = true → a.pasid = some q → a.bar = 0 ∨ a.bar = 4 →
      0 < a.size → a.offset + a.size ≤ barSize a.bar →
      exec (.registerWrite a v) s = .next (bindError q s) ∧ exec (.rcRegisterRead a) s = .next (bindError q s)) ∧
    (∀ entry, ManagerServed s → entry < 2048 →
      let e := Assoc.get s.msix entry {}
      ∃ t, exec (.msixUnmask none entry) s = .next t ∧ (Assoc.get t.msix entry {}).masked = false ∧ (Assoc.get t.msix entry {}).pend = false ∧
        (e.pend = true → t.out = .msix entry e.addr e.data :: s.out))

/-- R321, R378, R380, R389, R400: every mailbox request but SEC_TOKEN. A request under a PASID is answered Unsupported Request
and counted; one written while another runs is ignored; one that the present state refuses answers that status; a body of
another length answers BAD_LENGTH; a request of no known code answers UNKNOWN. R150, R201, R224, R263, R321, R378, R389, R398,
R428: the requests that only report. The answer waits with status OK and the length that the spec gives, and nothing else
changes (but for the progress of a write of the SPI NOR, which FW_STATUS reports); MAILBOX_REQUEST_DONE puts it into the buffer and STATE reads DONE. -/
def Obligations.MailboxRequests : Prop :=
  (∀ (s : State), s.hostSeen = true →
    (∀ (req : Pasid → Nat → Instr) (code : Nat) (bad : Nat),
      (req, code, bad) ∈ ([(.memStatus, 0x0001, 1), (.linkStatus, 0x0002, 1), (.fhConfig, 0x0003, 15), (.fhStatus, 0x0004, 1), (.radioStatus, 0x0005, 1),
        (.fwStage, 0x0100, 17), (.fwWrite, 0x0101, 1), (.fwStatus, 0x0102, 1), (.recoveryBegin, 0x0110, 5), (.recoveryChunk, 0x0111, 16),
        (.recoveryFinish, 0x0112, 1), (.logInfo, 0x0120, 1), (.logRead, 0x0121, 9), (.logClear, 0x0122, 1), (.sensors, 0x0130, 1),
        (.secNonce, 0x0200, 1), (.secOwnerKeys, 0x0202, 1), (.musterStatus, 0x0300, 1), (.healthStatus, 0x0301, 1), (.musterLeave, 0x0302, 1),
        (.musterRejoin, 0x0303, 1), (.cutBegin, 0x0304, 145), (.cutRelease, 0x0305, 5), (.cutStatus, 0x0306, 5)] :
        List ((Pasid → Nat → Instr) × Nat × Nat)) →
      (∀ q len, exec (req (some q) len) s = .next (bindError q s)) ∧
      (∀ len, s.mbox.st = .running → exec (req none len) s = .next s) ∧
      (∀ len st, s.mbox.st ≠ .running → s.mailboxRefuses code = some st → exec (req none len) s = .next (answer st [] s)) ∧
      (s.mbox.st ≠ .running → s.mailboxRefuses code = none → exec (req none bad) s = .next (answer mbBadLength [] s))) ∧
    (∀ (code : BitVec 16) len, knownRequests.contains code.toNat = false →
      (s.mbox.st ≠ .running → exec (.unknownRequest none code len) s = .next (answer mbUnknown [] s)) ∧
      (∀ q, exec (.unknownRequest (some q) code len) s = .next (bindError q s)))) ∧
  (∀ (s : State),
    (∀ i code n, (i, code, n) ∈ [(Instr.memStatus none 0, 0x0001, 1344), (.linkStatus none 0, 0x0002, 4608), (.fhStatus none 0, 0x0004, 512),
        (.radioStatus none 0, 0x0005, (s.cfg.cells.map fun e => 64 + 4 * e.rx).sum), (.logInfo none 0, 0x0120, 16),
        (.sensors none 0, 0x0130, 366), (.secOwnerKeys none 0, 0x0202, 560), (.musterStatus none 0, 0x0300, 160),
        (.healthStatus none 0, 0x0301, 14430 + 2 * s.muster.penalties.length), (.cutStatus none 4, 0x0306, 4)] →
      MailboxFree s code → ∃ resp, resp.length = n ∧ exec i s = .next (answer mbOk resp s)) ∧
    (MailboxFree s 0x0102 → ∃ t resp, exec (.fwStatus none 0) s = .next (answer mbOk resp t) ∧ resp.length = 16 ∧ t.hly.fw = s.hly.fw ∧
      s.hly.fwBytes ≤ t.hly.fwBytes ∧ (s.hly.fw ≠ .writing → t = s)) ∧
    (s.mbox.st = .running → ∃ t, exec .mailboxRequestDone s = .next t ∧ t.mbox.st = .done ∧ t.mbox.status = s.mbox.answer.1 ∧
      t.mbox.respLen = s.mbox.answer.2.length ∧ t.mbox.buf = putCells s.mbox.buf 0 s.mbox.answer.2))

/-- R321, R368 to R372, R384, R386, R391: the watchdog, Halyard's SRAM and the event recorder. A feed restarts the timer with
the TIMEOUT_MS last written; in ACTIVE a write that clears EN is ignored; an expiry, a late feed and an uncorrectable SRAM
granule are fatal; ELOG_READ moves within what is written; counted occurrences are reported and forgotten; a crossed hour is
anchored. -/
def Obligations.WatchdogAndRecorder : Prop :=
  ∀ (s : State),
    (s.hostSeen = true → ∃ t, exec (.hlyWdogFeed none) s = .next t ∧ t.hly.wdogAt = s.up ∧ t.hly.wdogMs = s.hly.wdogNext ∧
      (s.hly.feedPending s.up = true → t.hly.feedPend = s.hly.feedPend) ∧
      (s.hly.feedPending s.up = false → ∃ wait, wait ≤ 1000000 ∧ t.hly.feedPend = some (s.up, wait))) ∧
    (∀ v : BitVec 64, s.hostSeen = true → s.pwr.state = .active → s.hly.wdogEn = true → bit v.toNat 32 = false →
      exec (.hlyWdogCtrlWrite none v) s = .next s) ∧
    (∀ v : BitVec 64, s.hostSeen = true → s.pwr.state ≠ .active ∨ s.hly.wdogEn = false ∨ bit v.toNat 32 = true →
      ∃ t, exec (.hlyWdogCtrlWrite none v) s = .next t ∧ t.hly.wdogEn = bit v.toNat 32 ∧
        (100 ≤ bits v.toNat 31 0 → bits v.toNat 31 0 ≤ 600000 → t.hly.wdogNext = bits v.toNat 31 0)) ∧
    (s.awake = true → s.hly.wdogEn = true → s.hly.wdogAt + s.hly.wdogMs * 1000000 ≤ s.up →
      s.hly.feedPending s.up = false →
      ∃ t, exec .wdogHost s = .next t ∧ t.elog.firstFatal = some (s.elog.firstFatal.getD 0x1001) ∧ t.sched.stopped = true ∧
        t.pwr.lasersOff = true ∧ t.hly.wdogEn = false) ∧
    (∀ pc, s.awake = true → s.hly.wdogEn = true → s.hly.feedLate s.up = true →
      ∃ t, exec (.wdogCore pc) s = .next t ∧ t.elog.firstFatal = some (s.elog.firstFatal.getD 0x1002) ∧ t.sched.stopped = true) ∧
    (∀ off u, s.awake = true → off < sramSize → Code.decode (Code.disturb (s.sram.granule off) u) = .uncorrectable →
      ∃ t, exec (.hlySramUncorr off u) s = .next t ∧ t.elog.firstFatal = some (s.elog.firstFatal.getD 0x1005) ∧ t.sched.stopped = true) ∧
    (s.hly.corrDue ≤ s.up → s.tow.sramCorr ≠ 0 → ∃ t, exec .hlySramCorr s = .next t ∧ t.tow.sramCorr = 0 ∧ s.up < t.hly.corrDue) ∧
    (∀ v : BitVec 32, ManagerServed s → (v - BitVec.ofNat 32 s.elog.read).toNat ≤ s.elog.write - s.elog.read →
      ∃ t, exec (.elogReadWrite none v) s = .next t ∧ t.elog.read % 2 ^ 32 = v.toNat ∧ t.elog.write = s.elog.write) ∧
    (∀ v : BitVec 32, ManagerServed s → s.elog.write - s.elog.read < (v - BitVec.ofNat 32 s.elog.read).toNat →
      exec (.elogReadWrite none v) s = .next s) ∧
    (∀ code, (s.bucketOf code).count ≠ 0 → (s.bucketOf code).gained s.up = true →
      ∃ t, exec (.suppressed code) s = .next t ∧ (t.bucketOf code).count = 0) ∧
    (s.devTime / hourNs ≠ s.elog.nextHour → ∃ t, exec .anchor s = .next t ∧ t.elog.nextHour = s.devTime / hourNs ∧
      t.elog.seq = s.elog.seq + 1)

/-- R376 to R380, R389, R395, R396: firmware images and the log. FW_STAGE answers the verdict and stages a valid image; FW_WRITE
erases the SPI NOR; a write that reads back with the staged digest is WRITTEN, another FAILED; recovery takes an image chunk by
chunk, each at the offset received so far; LOG_READ returns the MRAM bytes asked for, and LOG_CLEAR zeroes the log area. -/
def Obligations.FirmwareAndLog : Prop :=
  ∀ (s : State),
    (∀ o n, MailboxFree s 0x0100 → fieldAt (cellsAt s.mbox.buf 0 16) 0 8 = o → fieldAt (cellsAt s.mbox.buf 0 16) 8 4 = n → s.hly.fw ≠ .writing →
      o % 64 = 0 → s.cfg.owns 0 o n = true → (readDev o n s).1.2 = false →
      ∃ t, exec (.fwStage none 16) s = .next t ∧ t.mbox.answer = (mbOk, stageResponse (s.fwVerdict (readDev o n s).1.1) (readDev o n s).1.1) ∧
        t.hly.fw = if s.fwVerdict (readDev o n s).1.1 = 0 then .staged else .none) ∧
    (MailboxFree s 0x0101 → s.hly.fw = .staged → ∃ t, exec (.fwWrite none 0) s = .next t ∧ t.hly.fw = .writing ∧ t.hly.nor = [] ∧
      t.mbox.answer = (mbOk, [])) ∧
    (∀ l : List Byte, s.hly.fw = .writing → s.coreDead = false → l.length = s.hly.fwLen → ∃ t, exec (.fwWriteComplete l) s = .next t ∧
      t.hly.nor = putCells [] 0 l ∧ t.hly.fw = if Config.sha512 l = s.hly.fwDigest then .written else .failed) ∧
    (MailboxFree s 0x0110 → ∃ t, exec (.recoveryBegin none 4) s = .next t ∧ t.hly.recBegun = true ∧ t.hly.recGot = 0 ∧
      t.hly.recLen = fieldAt (cellsAt s.mbox.buf 0 4) 0 4 ∧ t.hly.nor = []) ∧
    (∀ n, MailboxFree s 0x0111 → 17 ≤ n → n ≤ 65536 → s.hly.recBegun = true →
      let d := (cellsAt s.mbox.buf 0 n).drop 16
      (fieldAt (cellsAt s.mbox.buf 0 n) 0 4 = s.hly.recGot → s.hly.recGot + d.length ≤ s.hly.recLen →
        ∃ t, exec (.recoveryChunk none n) s = .next t ∧ t.hly.nor = putCells s.hly.nor s.hly.recGot d ∧
          t.hly.recGot = s.hly.recGot + d.length ∧ t.mbox.answer = (mbOk, [])) ∧
      (fieldAt (cellsAt s.mbox.buf 0 n) 0 4 ≠ s.hly.recGot → exec (.recoveryChunk none n) s = .next (answer mbBadLength [] s))) ∧
    (MailboxFree s 0x0112 → s.hly.recBegun = true →
      let l := cellsAt s.hly.nor 0 s.hly.recGot
      exec (.recoveryFinish none 0) s = .next (if s.fwVerdict l = 0 then reset { s with pwr := s.pwr.hold 5 }
        else answer mbOk (stageResponse (s.fwVerdict l) l) s)) ∧
    (∀ o n, MailboxFree s 0x0121 → fieldAt (cellsAt s.mbox.buf 0 8) 0 4 = o → fieldAt (cellsAt s.mbox.buf 0 8) 4 4 = n → 0 < n → n ≤ 65536 →
      o + n ≤ 131072 → exec (.logRead none 8) s = .next (answer mbOk (cellsAt s.hly.mram o n) s)) ∧
    (MailboxFree s 0x0122 → ∃ t, exec (.logClear none 0) s = .next t ∧ t.mbox.answer = (mbOk, []) ∧
      ∀ a, logBase ≤ a → a < logBase + logSize → cellAt t.hly.mram a = 0)

/-- R361, R387, R388, R390, R392, R445, R448 to R453: pins, clocks and the flush. VDD_AUX starts a cold boot; a RESET_N pulse
below 1 µs is ignored and one of 10 µs or more resets the device; a rise of RESET_N or PWR_FAIL_N boots it where every pin
allows; a fall of PWR_FAIL_N from boot step 5 on stops issue and flushes; THERMAL_TRIP latches; a lost REFCLK in service is
fatal; a flush that ends a fatal event halts the device. -/
def Obligations.PinsAndFlush : Prop :=
  ∀ (s : State),
    (∃ t, exec (.powerOn true) s = .next t ∧ t.pwr.thermtripN = true ∧ t.pwr.pwrFailN = true ∧
      (s.pwr.resetN = true → t.pwr.state = .boot ∧ t.pwr.step = 1 ∧ t.pwr.cause = 0 ∧ t.pwr.inReset = false)) ∧
    (∀ ns, s.pwr.resetN = true → s.pwr.state ≠ .off →
      (ns < 1000 → exec (.resetNFall ns) s = .next s) ∧
      (10000 ≤ ns → s.elog.flush = none → ∃ t, exec (.resetNFall ns) s = .next t ∧ t.pwr.resetN = false ∧ t.pwr.inReset = true ∧
        t.cfg = {} ∧ t.sched.cmds = [] ∧ t.tower = s.tower ∧ t.hly.mram = s.hly.mram ∧ t.sec.lc = s.sec.lc)) ∧
    (∀ ok, s.pwr.resetN = false → ∃ t, exec (.resetNRise ok) s = .next t ∧
      (ok = true → s.elog.flush = none → ∀ c, s.pwr.held = some c → s.pwr.pwrFailN = true → s.pwr.thermtripN = true →
        t.pwr.state = .boot ∧ t.pwr.cause = c ∧ t.pwr.step = 1 ∧ t.pwr.inReset = false) ∧
      (ok = false → t.pwr.inReset = s.pwr.inReset ∧ t.pwr.resetN = true)) ∧
    (∀ ok, s.pwr.pwrFailN = false → ∃ t, exec (.pwrFailNRise ok) s = .next t ∧
      (ok = true → s.elog.flush = none → ∀ c, s.pwr.held = some c → s.pwr.resetN = true → s.pwr.thermtripN = true →
        t.pwr.state = .boot ∧ t.pwr.cause = c ∧ t.pwr.step = 1)) ∧
    (s.pwr.pwrFailN = true → s.pwr.state ≠ .off →
      (s.pwr.inReset = false → 5 ≤ s.pwr.step → ∃ t, exec .pwrFailNFall s = .next t ∧ t.pwr.issueStop = true ∧ t.elog.flush.isSome = true ∧
        t.pwr.pwrFailN = false) ∧
      (s.pwr.inReset = false → s.pwr.step < 5 → ∃ t, exec .pwrFailNFall s = .next t ∧ t.pwr.inReset = true)) ∧
    (∀ sensor, s.pwr.state ≠ .off → s.pwr.thermtripN = true → (sensorDie sensor).isSome = true →
      (s.awake = true → ∃ t, exec (.thermtrip sensor) s = .next t ∧ t.pwr.thermtripN = false ∧
        (s.elog.flush = none → s.pwr.step < 5 → t.pwr.inReset = true)) ∧
      (s.awake = false → exec (.thermtrip sensor) s = .next { s with pwr := { s.pwr with thermtripN := false } })) ∧
    (∀ freq, s.awake = true → s.pwr.clockLost = false →
      ∃ t, exec (.clockLoss freq) s = .next t ∧ t.pwr.clockLost = true ∧
        (¬ (s.pwr.state = .boot ∧ s.pwr.step ≤ 3) → t.elog.firstFatal = some (s.elog.firstFatal.getD 0x2000) ∧ t.pwr.internalOsc = true)) ∧
    (∀ freq, s.pwr.state = .boot → s.pwr.step = 3 → s.pwr.refWait + 10000000000 ≤ s.up →
      ∃ t, exec (.refclkWaitTimeout freq) s = .next t ∧ t.elog.firstFatal = some (s.elog.firstFatal.getD 0x2000) ∧ t.pwr.state = .halted) ∧
    (∀ m, s.booted = true → m < 4 → s.pwr.disabledModules.contains m = false →
      ∃ t, exec (.ucieModuleDown m) s = .next t ∧ t.pwr.modules = s.pwr.modules - 1 ∧ t.pwr.disabledModules = s.pwr.disabledModules ++ [m]) ∧
    (∀ cause pos, s.elog.flush = some (cause, pos) → s.pwr.held = none → s.pwr.thermtripN = true →
      ∃ t, exec .flushComplete s = .next t ∧ t.elog.flush = none ∧ t.elog.flushed = s.elog.write ∧ (cause = 0 → t.pwr.state = .halted))

/-- R376, R377, R402, R405, R452, R453: boot, step by step. Steps 1 to 6 move on to the next; step 2 asks for a valid image, and
the boot ROM waits for recovery without one; the dies and then the towers are wiped; step 7 ends in IDLE with an energy window
open, unless no UCIe module trained; every channel passes seven training steps, and one that fails a step three times is fatal (R148). -/
def Obligations.BootSteps : Prop :=
  ∀ (s : State) (us : Nat), s.pwr.state = .boot → s.pwr.inReset = false →
    (s.pwr.step = 1 → ∃ t, exec (.bootStepComplete (.done us)) s = .next t ∧ t.pwr.step = 2 ∧
      t.sec.mramCopy = (s.sec.lc.code, s.sec.release)) ∧
    (s.pwr.step = 2 → s.norValid = true → ∃ t, exec (.bootStepComplete (.done us)) s = .next t ∧ t.pwr.step = 3 ∧ t.pwr.refWait = s.up) ∧
    (s.pwr.step = 2 → s.norValid = false → ∃ t, exec (.bootStepComplete .imageInvalid) s = .next t ∧ t.pwr.state = .halted ∧
      t.pwr.recovery = true) ∧
    (s.pwr.step = 3 → ∃ t, exec (.bootStepComplete (.done us)) s = .next t ∧ t.pwr.step = 4 ∧ t.pwr.clockLost = false) ∧
    (s.pwr.step = 4 → s.trainedAll = true → ∃ t, exec (.bootStepComplete (.done us)) s = .next t ∧ t.pwr.step = 5 ∧ t.scratch = {} ∧ t.sram = {}) ∧
    (s.pwr.step = 4 → ∀ ch, ch < 42 → (s.chan ch).trained < 7 →
      (∃ t, exec (.bootStepComplete (.train [(ch, true)])) s = .next t ∧ (t.chan ch).trained = (s.chan ch).trained + 1 ∧ (t.chan ch).tries = 0) ∧
      ((s.chan ch).tries < 2 → ∃ t, exec (.bootStepComplete (.train [(ch, false)])) s = .next t ∧ (t.chan ch).trained = (s.chan ch).trained ∧
        (t.chan ch).tries = (s.chan ch).tries + 1) ∧
      (2 ≤ (s.chan ch).tries → ∃ t, exec (.bootStepComplete (.train [(ch, false)])) s = .next t ∧
        t.elog.firstFatal = some (s.elog.firstFatal.getD 0x2406) ∧ t.pwr.state = .halted ∧ t.elog.flush.isSome = true)) ∧
    (s.pwr.step = 5 → ∃ t, exec (.bootStepComplete (.done us)) s = .next t ∧ t.pwr.step = 6 ∧ t.tower = {} ∧ t.sec.wipeUs = us) ∧
    (s.pwr.step = 6 → ∃ t, exec (.bootStepComplete (.done us)) s = .next t ∧ t.pwr.step = 7) ∧
    (s.pwr.step = 6 → ∀ l : List Nat, (∀ e ∈ l, e < 11) → s.pwr.spareEn = false → bit (s.mram mramO8 1) 3 = false → ∃ t, exec (.bootStepComplete (.engineFailed l)) s = .next t ∧ t.pwr.step = 7 ∧
      ∀ e ∈ l, e < 8 → ∀ k ∈ engineLinks e, (t.link k).st = .failed) ∧
    (s.pwr.step = 7 → ∃ t, exec (.bootStepComplete (.done us)) s = .next t ∧ t.pwr.state = .idle ∧ t.pwr.step = 8 ∧ t.pwr.modules = 4 ∧
      t.energy.started = true ∧ t.sec.transition = none) ∧
    (s.pwr.step = 7 → ∀ n l, n + l.length = 4 → l.Nodup → (∀ m ∈ l, m < 4) →
      ∃ t, exec (.bootStepComplete (.modules n l)) s = .next t ∧ t.pwr.modules = n ∧ (t.pwr.state = .idle ↔ n ≠ 0))

/-- R396 to R402: SEC_NONCE answers a fresh nonce and keeps it; a token whose checks all pass enrolls a key in the next row,
revokes the last row of its slot, commits the running epoch, or moves the life cycle with its release number; a token that a
check refuses consumes the nonce and changes no key, epoch or life cycle. -/
def Obligations.OwnerTokens : Prop :=
  ∀ (s : State),
    (MailboxFree s 0x0200 → ∃ t, exec (.secNonce none 0) s = .next t ∧ t.sec.nonce = some (Config.randomDraw s.sec.draws, s.up) ∧
      t.mbox.answer = (mbOk, leBytes 32 (Config.randomDraw s.sec.draws).toNat) ∧ t.sec.draws = s.sec.draws + 1) ∧
    (MailboxFree s 0x0201 →
      let tok := readToken (cellsAt s.mbox.buf 0 368)
      let refused := fun (t : State) => t.mbox.answer = (mbOk, leBytes 1 (s.tokenVerdict tok) ++ leBytes 3 0) ∧ t.sec.rows = s.sec.rows ∧
        t.sec.epoch = s.sec.epoch ∧ t.sec.lc = s.sec.lc ∧ t.sec.release = s.sec.release
      (fieldAt (cellsAt s.mbox.buf 0 1) 0 1 = opEnroll → ∃ t, exec (.enroll none 368) s = .next t ∧ t.sec.nonce = none ∧
        (s.tokenVerdict tok ≠ 0 → refused t) ∧
        (s.tokenVerdict tok = 0 → t.sec.lc = s.sec.lc ∧
          t.sec.rows = s.sec.rows ++ [{ slot := tok.target, key := tok.key, release := s.sec.release, revoked := false }])) ∧
      (fieldAt (cellsAt s.mbox.buf 0 1) 0 1 = opRevoke → ∃ t, exec (.revoke none 368) s = .next t ∧ t.sec.nonce = none ∧
        (s.tokenVerdict tok ≠ 0 → refused t) ∧
        (s.tokenVerdict tok = 0 → t.sec.rows.length = s.sec.rows.length ∧
          (∀ k, k ≠ s.sec.lastRow tok.target → t.sec.rows[k]? = s.sec.rows[k]?) ∧
          (∀ r, s.sec.rows[s.sec.lastRow tok.target]? = some r → r.slot = tok.target →
            t.sec.rows[s.sec.lastRow tok.target]? = some { r with revoked := true }))) ∧
      (fieldAt (cellsAt s.mbox.buf 0 1) 0 1 = opEpoch → ∃ t, exec (.epochCommit none 368) s = .next t ∧ t.sec.nonce = none ∧
        (s.tokenVerdict tok ≠ 0 → refused t) ∧ (s.tokenVerdict tok = 0 → t.sec.epoch = s.runningEpoch ∧ t.sec.rows = s.sec.rows)) ∧
      (∀ i op new k, (i, op, new, k) ∈ [(Instr.deploy none 368, opDeploy, LifeCycle.deployed, 0), (.lifecycleRelease none 368, opRelease, .provisioned, 1),
          (.lcReturn none 368, opReturn, .returned, 1), (.scrap none 368, opScrap, .scrapped, 0)] →
        fieldAt (cellsAt s.mbox.buf 0 1) 0 1 = op → ∃ t, exec i s = .next t ∧ t.sec.nonce = none ∧
          (s.tokenVerdict tok ≠ 0 → refused t) ∧
          (s.tokenVerdict tok = 0 → t.sec.lc = new ∧ t.sec.release = s.sec.release + k ∧ t.sec.mramCopy = (new.code, s.sec.release + k) ∧
            t.sec.rows = s.sec.rows ∧ t.sec.epoch = s.sec.epoch)))

/-- R393, R394, R400, R403, R404: SPDM. Outside IDLE and ACTIVE every request is answered ERROR Busy, and in BLANK none is
answered; GET_CERTIFICATE returns the part of the chain of slot 0 that is asked for; CHALLENGE and a signed GET_MEASUREMENTS
carry the identity key's signature over the seven measured blocks. The layouts are the model's own opaque ones. -/
def Obligations.Attestation : Prop :=
  ∀ (s : State), s.hostSeen = true →
    (∀ i req slot o n sig, i = Instr.getVersion req ∨ i = .getCapabilities req ∨ i = .negotiateAlgorithms req ∨ i = .getDigests req ∨
        i = .getCertificate slot o n ∨ i = .challenge req ∨ i = .getMeasurements req sig →
      (s.pwr.state ≠ .idle → s.pwr.state ≠ .active → exec i s = .next (emit (.spdmError spdmBusy) s)) ∧
      (s.pwr.state = .idle ∨ s.pwr.state = .active → s.sec.lc = .blank → exec i s = .next s)) ∧
    (s.pwr.state = .idle ∨ s.pwr.state = .active → s.sec.lc ≠ .blank →
      (∀ req, exec (.getVersion req) s = .next (emit (.spdm 0 (Config.spdmBody 0 req [])) s)) ∧
      (s.sec.lc ≠ .scrapped →
        (∀ req, exec (.getCapabilities req) s = .next (emit (.spdm 1 (Config.spdmBody 1 req [])) s)) ∧
        (∀ req, exec (.negotiateAlgorithms req) s = .next (emit (.spdm 2 (Config.spdmBody 2 req [])) s)) ∧
        (∀ req, exec (.getDigests req) s = .next (emit (.spdm 3 (Config.spdmBody 3 req
          [(0, leBytes 64 (Config.sha512 Config.certChain).toNat)])) s)) ∧
        (∀ slot o n, exec (.getCertificate slot o n) s = .next (emit (if slot ≠ 0 ∨ Config.certChain.length ≤ o then .spdmError spdmInvalid
          else .spdm 4 ((Config.certChain.drop o).take n)) s)) ∧
        (∀ req, ∃ t body, exec (.challenge req) s = .next t ∧ body = Config.spdmBody 5 req s.measured ∧
          t.out = .spdm 5 (body ++ Config.identitySign (Config.sha512 body)) :: s.out) ∧
        (∀ req sig, exec (.getMeasurements req sig) s = .next (emit (.measurements s.measured
          (if sig then Config.identitySign (Config.sha512 (Config.spdmBody 6 req s.measured)) else [])) s)) ∧
        s.measured.map (·.1) = [1, 2, 3, 4, 5, 6, 7]))

/-- R39 to R44, R47, R49, R52, R53, R406, R447: the hoist operation. LOAD starts the copy, and answers BUSY during another
operation; the checks refuse an image with the record and code of the first failure and the configuration in force stays; a full
image that passes takes effect and makes the device ACTIVE; a partial one waits until the held boards have no command executing
and then takes effect, its turn-table boards each at a cycle boundary; a hold that lasts 1 s is abandoned; CLEAR wipes
everything and leaves IDLE with no configuration. -/
def Obligations.HoistOperation : Prop :=
  ∀ (s : State),
    (ManagerServed s → s.hoistBusy = false → s.sec.lc = .provisioned ∨ s.sec.lc = .deployed →
      ∃ t, exec (.load none) s = .next t ∧ t.hoist.stat = .copying ∧ t.cfg = s.cfg) ∧
    (ManagerServed s → s.hoistBusy = true → ∀ i, i = Instr.load none ∨ i = .clear none →
      ∃ t, exec i s = .next t ∧ t.hoist.busySeen = true ∧ t.hoist.stat = s.hoist.stat ∧ t.cfg = s.cfg) ∧
    (∀ bytes poison, s.hoist.stat = .copying → bytes.length = s.hoist.len.toNat →
      ∃ t, exec (.hoistCopyDone bytes poison) s = .next t ∧ t.hoist.stat = .verifying ∧ t.hoist.image = bytes ∧
        t.hoist.allow = s.energy.allowReg) ∧
    (s.hoist.stat = .verifying → ∃ t, exec .hoistVerified s = .next t ∧
      (∀ k c, s.verify = .refused k c → t.hoist.stat = .refused ∧ t.hoist.code = c ∧ t.hoist.index = k ∧ t.cfg = s.cfg ∧ t.gen = s.gen) ∧
      (∀ n g l, s.verify = .passed true n g l → t.hoist.stat = .done ∧ t.cfg = n ∧ t.gen = BitVec.ofNat 64 g ∧ t.pwr.state = .active) ∧
      (∀ n g l, s.verify = .passed false n g l → (∃ b ∈ s.affected n l, s.cfg.turntable b = none ∧ s.executing [b] = true) →
        t.hoist.stat = .staging ∧ t.hoist.staged = n ∧ t.cfg = s.cfg)) ∧
    (s.hoist.stat = .staging → s.hoist.clearing = false → s.hoist.switching = false → s.executing s.hoist.held = false →
      ∃ t, exec .hoistHoldDrained s = .next t ∧
        (s.hoist.toSwitch = [] → t.cfg = s.hoist.staged ∧ t.gen = s.hoist.newGen ∧ t.hoist.stat = .done) ∧
        (s.hoist.toSwitch ≠ [] → t.hoist.switching = true ∧ t.cfg = s.cfg)) ∧
    (∀ board, s.hoist.switching = true → s.hoist.toSwitch = [board] → (s.turnRun board).pos = 0 → (s.turnRun board).due ≤ s.up →
      ∃ t, exec (.hoistBoardSwitch board) s = .next t ∧ t.cfg = s.hoist.staged ∧ t.gen = s.hoist.newGen ∧ t.hoist.stat = .done) ∧
    (∀ board, s.hoist.switching = true → board ∈ s.hoist.toSwitch → (∃ b ∈ s.hoist.toSwitch, b ≠ board) → (s.turnRun board).pos = 0 →
      (s.turnRun board).due ≤ s.up → ∃ t, exec (.hoistBoardSwitch board) s = .next t ∧ t.gen = s.gen ∧
        t.hoist.toSwitch = s.hoist.toSwitch.filter (· != board) ∧ t.hoist.switched = s.hoist.switched ++ [board]) ∧
    (s.hoist.stat = .staging → s.hoist.clearing = false → s.hoist.switching = false → s.hoist.holdSince + 1000000000 ≤ s.up →
      ∃ t, exec .hoistHoldTimeout s = .next t ∧ t.hoist.stat = .refused ∧ t.hoist.code = rfAbandoned ∧ t.hoist.held = [] ∧ t.cfg = s.cfg ∧
        t.gen = s.gen) ∧
    (s.hoist.wiping ≠ [] → ∃ t, exec .hoistRegionWipeDone s = .next t ∧ t.hoist.wiping = []) ∧
    (ManagerServed s → s.hoistBusy = false → s.pwr.state = .active → (∀ b ∈ s.cfg.burgees, (s.burgee b.burgee).state = .free) →
      s.radioRunning = false → ∃ t, exec (.clear none) s = .next t ∧ t.hoist.clearing = true ∧ t.hoist.stat = .staging) ∧
    (s.hoist.clearing = true → ∃ t, exec .clearWipeDone s = .next t ∧ t.cfg = {} ∧ t.gen = 0 ∧ t.tower = {} ∧ t.scratch = {} ∧
      t.pwr.state = .idle ∧ t.hoist.stat = .done ∧ t.hoist.clearing = false)

/-- R346: a write to PWR_CAP (100 to 1,500 W) or PWR_ALLOWANCE (up to 18,000 mJ) changes the register and not what is in force,
which takes the registers at the next window boundary; a value outside the range leaves the register and sets REFUSED. -/
def Obligations.PowerRegistersTakeEffectAtWindows : Prop :=
  ∀ (s : State),
    (∀ v : BitVec 64, ManagerServed s →
      (100 ≤ bits v.toNat 15 0 → bits v.toNat 15 0 ≤ 1500 →
        exec (.pwrCapWrite none v) s = .next { s with energy := { s.energy with capReg := bits v.toNat 15 0 } }) ∧
      (bits v.toNat 15 0 < 100 ∨ 1500 < bits v.toNat 15 0 →
        exec (.pwrCapWrite none v) s = .next { s with energy := { s.energy with refused := true } }) ∧
      (bits v.toNat 31 0 ≤ 18000 → exec (.pwrAllowanceWrite none v) s = .next { s with energy := { s.energy with allowReg := bits v.toNat 31 0 } }) ∧
      (18000 < bits v.toNat 31 0 → exec (.pwrAllowanceWrite none v) s = .next { s with energy := { s.energy with refused := true } })) ∧
    (∀ rails : List Nat, s.energy.started = true → s.energy.due ≤ s.up → rails.length = 9 →
      ∃ t, exec (.energyWindowStart rails) s = .next t ∧ t.energy.cap = s.energy.capReg ∧ t.energy.allow = s.energy.allowReg ∧
        t.energy.capReg = s.energy.capReg ∧ t.energy.allowReg = s.energy.allowReg)

/-- R344, R345, R347, R348, R353, R354, R358, R361 to R364, R370: windows of 10 ms take the registers as they then stand, and the
budget never lies below the radio reserve; a reconcile charges baseband energy to the radio reserve and then to the common pool, and the device's own energy to the common pool; a scan paces a die's
tenants from 105 °C until 100 °C and halves a tower from 100 °C until 95 °C; the core voltage moves in steps of 5 mV within 700
to 820 mV. -/
def Obligations.EnergyAndSensors : Prop :=
  ∀ (s : State),
    (∀ rails : List Nat, s.energy.started = true → s.energy.due ≤ s.up → rails.length = 9 →
      ∃ t, exec (.energyWindowStart rails) s = .next t ∧ t.energy.window = s.energy.window + 1 ∧ t.energy.due = s.up + 10000000 ∧
        t.energy.usedMeas = rails.sum ∧
        t.energy.history = (rails.sum :: s.energy.history).take 100 ∧ t.energy.admittedUj = 0 ∧
        s.cfg.power.radioMj ≤ t.energy.budget ∧ (t.energy.budget ≤ s.energy.allowReg ∨ t.energy.budget = s.cfg.power.radioMj)) ∧
    (∀ device baseband, s.energy.started = true → s.energy.recDue ≤ s.up →
      ∃ t, exec (.energyReconcile [] device baseband) s = .next t ∧ t.energy.recDue = s.up + 100000 ∧
        Assoc.get t.energy.poolRes 0 0 = Assoc.get s.energy.poolRes 0 0 - baseband ∧
        t.energy.common = s.energy.common - ((baseband - Assoc.get s.energy.poolRes 0 0) + device) ∧
        t.energy.deficit = s.energy.deficit + ((baseband - Assoc.get s.energy.poolRes 0 0) + device - s.energy.common)) ∧
    (s.pwr.state = .active → ∃ t, exec .peakPace s = .next t ∧ t.energy = s.energy ∧ t.sched = s.sched) ∧
    (∀ (temps towers : List Int) (volts : List Nat), s.awake = true → s.hly.scanDue ≤ s.up → temps.length = 96 → towers.length = 6 → volts.length = 48 →
      ∃ t, exec (.sensorScan temps towers volts) s = .next t ∧ t.hly.temps = temps ∧ t.hly.volts = volts ∧
        (∀ die ∈ pacedDies, die ∈ t.energy.pace75 ↔ 1050 ≤ (hottest temps die).1 ∨ (die ∈ s.energy.pace75 ∧ 1000 < (hottest temps die).1)) ∧
        (∀ die ∈ pacedDies, die ∈ t.energy.pace50 ↔ 1100 ≤ (hottest temps die).1 ∨ (die ∈ s.energy.pace50 ∧ 1050 < (hottest temps die).1)) ∧
        (∀ k, k < 6 → (k ∈ t.energy.halved ↔ 100 ≤ towers.getD k 0 ∨ (k ∈ s.energy.halved ∧ 95 < towers.getD k 0))) ∧
        ∀ ch, ch < 42 → (t.chan ch).temp = towers.getD (ch / 7) 0) ∧
    (∀ l : List Nat, s.awake = true → s.hly.canaryDue ≤ s.up → l.length = 39 →
      ∃ t, exec (.canaryScan l) s = .next t ∧ t.hly.canaries = l ∧ t.hly.canaryDue = s.up + 1000000 ∧ t.energy = s.energy) ∧
    (∀ rail mv, s.awake = true → rail < 9 → ∃ t, exec (.railFault rail mv) s = .next t ∧ t.energy.railMv = s.energy.railMv.set rail mv) ∧
    (∀ target, s.awake = true → s.pwr.state ≠ .boot ∨ 3 ≤ s.pwr.step → 700 ≤ target → target ≤ 820 → target % 5 = 0 →
      (∀ at_, s.energy.avsAt = some at_ → at_ + 1000000 ≤ s.up) →
      exec (.avsUpdate target) s = .next { s with energy := { s.energy with coreMv := target, avsAt := some s.up } })

/-- R410 to R418: heartbeats, suspicion, expulsion and admission. A heartbeat ends a peer's silence; a quorum of suspicions
expels; an EXPEL or a DEPART takes the device out of the membership, and one of this device leaves it EXPELLED with its lasers
off; an ADMIT and a JOIN that is not refused take it in, and a refused JOIN fences the link; isolation for 2 ms ends membership;
a fence is lifted after 60 s. -/
def Obligations.MusterMembership : Prop :=
  ∀ (s : State),
    (s.pwr.state = .active → s.muster.hbDue ≤ s.up → ∃ t, exec .heartbeatPeriod s = .next t ∧ t.muster.hbDue = s.up + 20000) ∧
    (∀ src boot health benched leaving, (takeMgmt 0x50 [boot, health, flagItem benched, flagItem leaving] s).hasUp src = true →
      ∃ t, exec (.heartbeat src boot health benched leaving) s = .next t ∧ (t.peer src).heard = true ∧ (t.peer src).silent = 0 ∧
        (t.peer src).suspectAt = none ∧ (t.peer src).bootCount = boot ∧ (t.peer src).health = health) ∧
    (∀ src target, exec (.suspect src target true) s = .next (unsuspect target src (takeMgmt 0x51 [target, flagItem true] s))) ∧
    (∀ src target, ∃ t, exec (.suspect src target false) s = .next t ∧
      let u := suspectOf target src (takeMgmt 0x51 [target, flagItem false] s)
      (s.isMember = true → target ≠ s.deviceId → target ∈ s.muster.members →
        quorum (u.quorumSet target).length ≤ (u.suspectedBy target).length → target ∉ t.muster.members)) ∧
    (∀ target cause decider, target < 1024 → cause ≤ 4 → s.isMember = true →
      (target ≠ s.deviceId → target ∈ s.muster.members → ∃ t, exec (.expel target cause decider) s = .next t ∧ target ∉ t.muster.members ∧
        (t.peer target).expelled = some cause ∧ t.muster.st = s.muster.st) ∧
      (target = s.deviceId → ∃ t, exec (.expel target cause decider) s = .next t ∧ t.muster.st = .expelled ∧ t.pwr.lasersOff = true) ∧
      (target ≠ s.deviceId → target ∉ s.muster.members → exec (.expel target cause decider) s =
        .next (takeMgmt 0x52 [target, cause, decider] s))) ∧
    (∀ src code, s.isMember = true → src ∈ s.muster.members → src ≠ s.deviceId →
      ∃ t, exec (.depart src code) s = .next t ∧ src ∉ t.muster.members ∧ (t.peer src).expelled = some 1) ∧
    (∀ link src boot serial rejoin, ((takeMgmt 0x54 [boot, serial.toNat, flagItem rejoin] s).link link).st = .up →
      s.isMember = true →
      (s.refusesJoin src boot rejoin = true → ∃ t, exec (.join link src boot serial rejoin) s = .next t ∧ (t.link link).st = .off ∧
        (t.link link).fencedAt = some s.up ∧ t.muster.members = s.muster.members) ∧
      (s.refusesJoin src boot rejoin = false → ∃ t, exec (.join link src boot serial rejoin) s = .next t ∧ src ∈ t.muster.members)) ∧
    (∀ device, device < 1024 → device ≠ s.deviceId → s.isMember = true → device ∉ s.muster.members →
      ∃ t, exec (.musterAdmit device) s = .next t ∧ device ∈ t.muster.members ∧ (t.peer device).expelled = none) ∧
    (s.deviceId < 1024 → s.isMember = false → s.pwr.state = .active →
      ∃ t, exec (.musterAdmit s.deviceId) s = .next t ∧ t.muster.st = .member ∧ s.deviceId ∈ t.muster.members) ∧
    (∀ device, ∃ t, exec (.seqReset device) s = .next t ∧ (∀ e ∈ t.hub.seqNext, e.1 / 256 ≠ device) ∧
      ∀ h ∈ t.hub.homeWait, h.req.src ≠ device) ∧
    (∀ t0, s.muster.lowSince = some t0 → t0 + 2000000 ≤ s.up → s.isMember = true →
      ∃ t, exec .isolationTimeout s = .next t ∧ t.muster.st = .isolated ∧ t.pwr.lasersOff = true) ∧
    (∀ link t0, (s.link link).fencedAt = some t0 → t0 + 60000000000 ≤ s.up →
      s.muster.members.contains (((s.linkRec link).map (·.peer)).getD 1024) = false →
      ∃ t, exec (.fenceLift link) s = .next t ∧ (t.link link).fencedAt = none)

/-- R417, R419 to R424, R428: leaving, the bench, the health score and telltales. A LEAVE is granted while the ledger holds
fewer than two entries and none held ranks before it; a quorum of grants ends the device's membership; entries age out of the
ledger; without a quorum for 10 ms the device is benched, until its health has stayed at 300 or above for 10 min; the score is
1,000 less its penalties; a band that has lasted 60 s takes effect; a telltale marks its cell on a pass and runs again on a
first failure. -/
def Obligations.LeavingAndHealth : Prop :=
  ∀ (s : State),
    (∀ src health, s.isMember = true → src ∈ s.muster.members → s.muster.ledger.length < 2 →
      (∀ o ∈ s.muster.leaves, o.1 ≠ src → health < o.2 ∨ (o.2 = health ∧ src < o.1)) →
      ∃ t, exec (.leave src health) s = .next t ∧ Out.muster 0x57 (some src) [src] ∈ t.out ∧ (src, health) ∈ t.muster.leaves) ∧
    (∀ src, let set := (takeMgmt 0x57 [s.deviceId] s).quorumSet s.deviceId
      s.muster.leaveAt ≠ none → src ∈ set →
      let grants := (src :: s.muster.grants).eraseDups
      ∃ t, exec (.grant src s.deviceId) s = .next t ∧
        (grants.length < quorum set.length → t.muster.grants = grants ∧ t.muster.st = s.muster.st) ∧
        (quorum set.length ≤ grants.length → t.muster.st = .expelled ∧ t.pwr.lasersOff = true)) ∧
    (∀ device time, rackOf device = rackOf s.deviceId → ∃ t, exec (.ledger device time) s = .next t ∧
      (device, time) ∈ t.muster.ledger ∧ t.muster.st = s.muster.st) ∧
    (∀ device time, rackOf device ≠ rackOf s.deviceId → exec (.ledger device time) s =
      .next (takeMgmt 0x58 [device, time] s)) ∧
    ((∃ e ∈ s.muster.ledger, e.2 + 3600000000000 ≤ s.devTime) → ∃ t, exec .ledgerAgeOut s = .next t ∧
      ∀ e ∈ t.muster.ledger, s.devTime < e.2 + 3600000000000) ∧
    (∀ t0, s.muster.leaveAt = some t0 → t0 + 10000000 ≤ s.up → ∃ t, exec .leaveTimeout s = .next t ∧ t.muster.st = .benched ∧
      t.muster.leaveAt = none) ∧
    (s.muster.st = .benched → 300 ≤ s.muster.health → s.muster.since300 + 600000000000 ≤ s.up →
      ∃ t, exec .benchRecovery s = .next t ∧ t.muster.st = .member) ∧
    (MailboxFree s 0x0302 → s.isMember = true → s.muster.leaving = false →
      ∃ t, exec (.musterLeave none 0) s = .next t ∧ t.muster.leaving = true ∧ t.muster.leaveAt = some s.up ∧ t.mbox.answer = (mbOk, [])) ∧
    (MailboxFree s 0x0303 → s.muster.st = .expelled ∨ s.muster.st = .isolated →
      ∃ t, exec (.musterRejoin none 0) s = .next t ∧ t.muster.rejoin = true ∧ t.pwr.lasersOff = false ∧ t.mbox.answer = (mbOk, [])) ∧
    (s.booted = true → s.halted = false → s.muster.healthDue ≤ s.up →
      ∃ t, exec (.healthScore ()) s = .next t ∧ t.muster.penalties = s.penalties ∧ t.muster.healthDue = s.up + 1000000000 ∧
        t.muster.health = if s.muster.dieFault = [] then 1000 - s.penalties.sum else min 250 (1000 - s.penalties.sum)) ∧
    (s.nextBand ≠ s.muster.band → ∃ t, exec .healthBand s = .next t ∧ t.muster.band = s.nextBand ∧
      (s.nextBand = 2 → s.isMember = true → t.muster.leaving = true)) ∧
    (∀ psq patterns key, s.cellOf patterns psq = some key → s.booted = true → s.halted = false → patterns.length = 20 →
      (∀ x ∈ patterns, x < 4) → s.muster.telltale = none → s.mayTest psq = true →
      (∀ p k, p < 180 → s.mayTest p = true → s.cellOf patterns p = some k → (s.tellCell key).longer (s.tellCell k) = true) →
      ∃ t, exec (.telltaleStart psq patterns) s = .next t ∧
        t.muster.telltale = some { psq := psq, cell := key, rerun := false, start := s.up } ∧ (t.square psq).gated = false) ∧
    (∀ tell sect, s.muster.telltale = some tell → tell.start + 250000 ≤ s.up →
      (∃ t, exec (.telltaleDone true sect) s = .next t ∧ t.muster.telltale = none ∧ (t.tellCell tell.cell).pass = some s.up) ∧
      (tell.rerun = true → ∃ t, exec (.telltaleDone false sect) s = .next t ∧ t.muster.telltale = none) ∧
      (tell.rerun = false → s.lastDay (s.tellCell tell.cell).fails = [] →
        ∃ t, exec (.telltaleDone false sect) s = .next t ∧ t.muster.telltale = some { tell with rerun := true, start := s.up }))

/-- R426 to R429: a checkpoint cut. CUT_BEGIN holds the burgee's dispatch; the device says when it is quiet; with every
participant ready the coordinator holds the cut and tells the others; a failure and a time-out end it and dispatch resumes, and
so does CUT_RELEASE of a held cut. -/
def Obligations.CheckpointCuts : Prop :=
  ∀ (s : State),
    (MailboxFree s 0x0304 →
      let body := cellsAt s.mbox.buf 0 144
      let id := fieldAt body 0 4
      let b := fieldAt body 4 1
      let ms := fieldAt body 8 4
      let devices := bitList 1024 (fieldAt body 16 128)
      id ≠ 0 → b ≠ 0 → 0 < ms → ms ≤ 60000 → s.deviceId ∈ devices →
      (∀ e ∈ s.muster.cuts, e.1 = id ∨ e.2.burgee = b → e.2.forming = false ∧ e.2.status ≠ cutHeld) → s.inState b [.active] = true →
      (s.cfg.partOf b ≠ some 0 ∨ s.radioRunning = false) →
      ∃ t, exec (.cutBegin none 144) s = .next t ∧ t.mbox.answer = (mbOk, []) ∧ (t.burgee b).cutHold = true ∧
        Assoc.find t.muster.cuts id = some { burgee := b, timeout := ms, devices := devices, ready := s.readyFor id, begun := s.up, status := cutDraining }) ∧
    (∀ (cut : BitVec 32) c, Assoc.find s.muster.cuts cut.toNat = some c →
      (c.status = cutDraining → (takeMgmt 0x59 [cut.toNat] s).quietNow c.burgee = true → c.coordinator ≠ s.deviceId →
        ∃ t, exec (.cutReady s.deviceId cut) s = .next t ∧
          Assoc.find t.muster.cuts cut.toNat = some { c with status := cutReadySent } ∧
          Out.muster 0x59 (some c.coordinator) [cut.toNat] ∈ t.out) ∧
      (∀ src, src ≠ s.deviceId → c.coordinator = s.deviceId → c.status = cutReadySent → src ∈ c.devices → (∀ d ∈ c.devices, d = src ∨ d ∈ c.ready) →
        ∃ t, exec (.cutReady src cut) s = .next t ∧ (Assoc.find t.muster.cuts cut.toNat).map (·.status) = some cutHeld ∧
          ∀ d ∈ c.devices, d ≠ s.deviceId → Out.muster 0x5A (some d) [cut.toNat] ∈ t.out) ∧
      (c.status = cutReadySent → ∃ t, exec (.cutHeld cut) s = .next t ∧ (Assoc.find t.muster.cuts cut.toNat).map (·.status) = some cutHeld) ∧
      (c.forming = true → ∃ t, exec (.cutFail cut) s = .next t ∧ (Assoc.find t.muster.cuts cut.toNat).map (·.status) = some cutFailed ∧
        (t.burgee c.burgee).cutHold = false) ∧
      (c.forming = true → c.begun + c.timeout * 1000000 ≤ s.up →
        ∃ t, exec (.cutTimeout cut) s = .next t ∧ (Assoc.find t.muster.cuts cut.toNat).map (·.status) = some cutAbandoned ∧
          (t.burgee c.burgee).cutHold = false)) ∧
    (∀ src (cut : BitVec 32), Assoc.find s.muster.cuts cut.toNat = none →
      ∃ t, exec (.cutReady src cut) s = .next t ∧ (cut.toNat, src) ∈ t.muster.earlyReady ∧ t.muster.cuts = s.muster.cuts) ∧
    (∀ c, MailboxFree s 0x0305 → Assoc.find s.muster.cuts (fieldAt (cellsAt s.mbox.buf 0 4) 0 4) = some c → c.status = cutHeld →
      ∃ t, exec (.cutRelease none 4) s = .next t ∧ t.mbox.answer = (mbOk, []) ∧ (t.burgee c.burgee).cutHold = false)

/-- A step with a command at the front of the queue is that command's meaning on the state with the queue's rest. With an empty
queue one TIME cycle passes (the model's choice, assumption 1): R247 adds 2^32 + RATE to the accumulator in each cycle while
device time runs; a link in UP whose time has come sends its flit and messages that wait at the hub go on where they can (R183,
R197); with neither, everything else stays, and no memory, context, square or configuration changes in any case. -/
def Obligations.StepRunsTheFrontCommand : Prop :=
  (∀ (s : State) (c : Instr) (rest : List Instr), s.pending = c :: rest → step s = exec c { s with pending := rest }) ∧
  (∀ s : State, s.pending = [] →
    let time := { s.time with acc := if s.timeRuns then s.time.acc + BitVec.ofInt 96 (2 ^ 32 + s.time.rate) else s.time.acc }
    ∃ t, step s = .next t ∧ t.up = s.up + 1 ∧ t.time = time ∧ t.pending = [] ∧ t.cfg = s.cfg ∧ t.tower = s.tower ∧ t.scratch = s.scratch ∧
      t.sram = s.sram ∧ t.ctxs = s.ctxs ∧ t.squares = s.squares ∧ t.muster = s.muster ∧
      (s.hub.waiting = [] → (∀ l, (s.link l).st ≠ .up ∨ (s.up + 1) * 100 < (s.link l).flitDue) → t = { s with up := s.up + 1, time := time }))

/-- The reset values that R249, R319, R321 to R323, R446 and R451 give: BOOT at its first step with cause 0, FREERUN with time
zero, no hoist and no error counted, PWR_CAP 1,500 W, PWR_ALLOWANCE 15,000 mJ, ELOG_THRESH 16,384, FAB_COMBINE 64 ns, TIMEOUT_MS
10,000, QL_TX 0xF, the domains 24 and 25 with priority 128, and a pulse shape of 100 ms in 1 s. At reset every memory of the
device has its canonical form. -/
def Obligations.ResetValues : Prop :=
  (let s := State.reset
  s.pending = [] ∧ s.pwr.state = .boot ∧ s.pwr.step = 1 ∧ s.pwr.cause = 0 ∧ s.time.st = .freerun ∧ s.devTime = 0 ∧ s.time.rate = 0 ∧ s.gen = 0 ∧
  s.hoist.stat = .none ∧ s.mbox.st = .idle ∧ s.irqStat = 0 ∧ s.sched.bindErr = 0 ∧ s.elog.write = 0 ∧ s.elog.read = 0 ∧ s.elog.lost = 0 ∧
  s.energy.capReg = 1500 ∧ s.energy.allowReg = 15000 ∧ s.elog.thresh = 16384 ∧ s.hub.combineNs = 64 ∧ s.hly.wdogNext = 10000 ∧
  s.hly.wdogEn = false ∧ s.time.qlTx = 0xF ∧ s.time.synceEn = false ∧ s.time.alpha = 0 ∧ (s.dom 0).num = 24 ∧ (s.dom 1).num = 25 ∧
  (∀ d, d < 2 → (s.dom d).prio = 128 ∧ (s.dom d).en = false) ∧
  (∀ n, n < 4 → (s.pulse n).width = 100000000 ∧ (s.pulse n).period = 1000000000 ∧ (s.pulse n).mode = 0)) ∧
  (State.reset.memoriesWf = true)

/-- Every step keeps every memory in its canonical form: towers, scratchpads, Halyard's SRAM, MRAM, SPI NOR, the event ring and
the mailbox buffer list no zero and no address twice. -/
def Obligations.MemoriesStayCanonical : Prop :=
  ∀ s t : State, s.memoriesWf = true → step s = .next t → t.memoriesWf = true

/-- No command touches the queue of the commands that wait, nor the fused identity of the device. -/
def Obligations.CommandsLeaveTheQueueAlone : Prop :=
  ∀ (i : Instr) (s t : State), exec i s = .next t → t.pending = s.pending ∧ t.ident.serial = s.ident.serial ∧ t.ident.part = s.ident.part ∧
    t.ident.stepping = s.ident.stepping

/-- R396, R397, R400, R401: fuses only advance. No step takes a key row away, changes its key, its slot or its release, or
restores a revoked one; the epoch and the release number never fall; at most 64 rows exist; a scrapped device stays scrapped. -/
def Obligations.FusesOnlyAdvance : Prop :=
  ∀ s t : State, step s = .next t →
    s.sec.epoch ≤ t.sec.epoch ∧ s.sec.release ≤ t.sec.release ∧ (s.sec.lc = .scrapped → t.sec.lc = .scrapped) ∧
    (s.sec.rows.length ≤ 64 → t.sec.rows.length ≤ 64) ∧
    ∀ (k : Nat) (r : KeyRow), s.sec.rows[k]? = some r → ∃ r', t.sec.rows[k]? = some r' ∧ r'.slot = r.slot ∧ r'.key = r.key ∧
      r'.release = r.release ∧ (r.revoked = true → r'.revoked = true)

/-- The frame of the commands that concern registers, links, ports, time, sensors and reports: device memory, scratchpads,
Halyard's memories, the contexts, the squares and the configuration stay as they were. -/
def Obligations.RegisterCommandsTouchNoMemory : Prop :=
  ∀ (i : Instr) (s t : State), registerOnly i = true → exec i s = .next t →
    t.tower = s.tower ∧ t.scratch = s.scratch ∧ t.sram = s.sram ∧ t.hly.mram = s.hly.mram ∧ t.hly.nor = s.hly.nor ∧ t.ctxs = s.ctxs ∧
    t.squares = s.squares ∧ t.cfg = s.cfg ∧ t.sec.rows = s.sec.rows ∧ t.sec.lc = s.sec.lc

/-- R139, R140, R303: a host write over CXL.mem changes no byte outside the granules that its address range maps to, no register
of a burgee, no command and no context, and one of whole granules records nothing; one whole granule written clean reads back as
written, once the controller takes the write; until then it waits and device memory stays. -/
def Obligations.HostWritesToTowerMemory : Prop :=
  ∀ (s t : State) (addr : Nat) (bytes : List Byte) (poison : Bool), exec (.hostMemWrite addr bytes poison) s = .next t →
    (∀ k, (∀ b, addr ≤ b → b < addr + bytes.length → s.cfg.key b / 32 ≠ k / 32) → t.tower.byte k = s.tower.byte k) ∧
    t.ctxs = s.ctxs ∧ t.squares = s.squares ∧ t.scratch = s.scratch ∧ t.burgees = s.burgees ∧ t.sched = s.sched ∧ t.cfg = s.cfg ∧
    (addr % 32 = 0 → bytes.length % 32 = 0 → t.out = s.out ∧ t.elog = s.elog) ∧
    (s.tow.hostWait ≠ [] ∨ s.hostPasses (.write addr bytes poison) = false → t.tower = s.tower ∧ t.tow.hostWait = s.tow.hostWait ++ [.write addr bytes poison]) ∧
    (s.tow.hostWait = [] → s.hostPasses (.write addr bytes poison) = true → s.tower.wf = true → addr % 32 = 0 → bytes.length = 32 →
      t.tower.read t.cfg.key addr 32 = (bytes, poison))
end

