-- ==== Sys2Proof/Laws/Assoc.lean ====
section
/-! SUPPORT. The maps with rising keys: what an entry reads as after a change, and that every change keeps the keys rising. -/

namespace Sys2Proof.Machine.Assoc

variable {α : Type}

@[simp] theorem find_nil (k : Nat) : find ([] : List (Nat × α)) k = none := rfl

/-- A key below every key of a rising list is not in it. -/
theorem find_below {lo k : Nat} {m : List (Nat × α)} (h : risingFrom lo m = true) (hk : k < lo) : find m k = none := by
  induction m generalizing lo with
  | nil => rfl
  | cons e t ih =>
    obtain ⟨a, v⟩ := e
    simp only [risingFrom, Bool.and_eq_true, decide_eq_true_eq] at h
    have : a ≠ k := by omega
    simp [find, this, ih h.2 (by omega)]

@[simp] theorem find_set_self (m : List (Nat × α)) (k : Nat) (v : α) : find (set m k v) k = some v := by
  induction m with
  | nil => simp [set, find]
  | cons e t ih =>
    obtain ⟨a, w⟩ := e
    simp only [set]
    split
    · simp [find]
    · split
      · simp [find]
      · simp [find, *]

theorem find_set_ne {m : List (Nat × α)} {k j : Nat} {v : α} (h : j ≠ k) : find (set m k v) j = find m j := by
  induction m with
  | nil => simp [set, find, h.symm]
  | cons e t ih =>
    obtain ⟨a, w⟩ := e
    simp only [set]
    split
    · simp [find, h.symm]
    · split
      · subst_vars; simp [find, h.symm]
      · simp [find, ih]

@[simp] theorem get_set_self (m : List (Nat × α)) (k : Nat) (v d : α) : get (set m k v) k d = v := by simp [get]

theorem get_set_ne {m : List (Nat × α)} {k j : Nat} {v d : α} (h : j ≠ k) : get (set m k v) j d = get m j d := by
  simp [get, find_set_ne h]

@[simp] theorem set_set (m : List (Nat × α)) (k : Nat) (v w : α) : set (set m k v) k w = set m k w := by
  induction m with
  | nil => simp [set]
  | cons e t ih =>
    obtain ⟨a, x⟩ := e
    simp only [set]
    by_cases h1 : k < a
    · simp [h1, set]
    · by_cases h2 : a = k
      · simp [h2, set]
      · simp [h1, h2, set, ih]

theorem find_erase_ne {m : List (Nat × α)} {k j : Nat} (h : j ≠ k) : find (erase m k) j = find m j := by
  induction m with
  | nil => rfl
  | cons e t ih =>
    obtain ⟨a, w⟩ := e
    simp only [erase]
    split
    · subst_vars; simp [find, h.symm]
    · simp [find, ih]

theorem find_erase_self {m : List (Nat × α)} {k lo : Nat} (h : risingFrom lo m = true) : find (erase m k) k = none := by
  induction m generalizing lo with
  | nil => rfl
  | cons e t ih =>
    obtain ⟨a, w⟩ := e
    simp only [risingFrom, Bool.and_eq_true, decide_eq_true_eq] at h
    simp only [erase]
    split
    · exact find_below h.2 (by omega)
    · simp [find, *, ih h.2]

theorem find_modify_self (m : List (Nat × α)) (k : Nat) (f : α → α) : find (modify m k f) k = (find m k).map f := by
  unfold modify
  split <;> simp [*]

theorem find_modify_ne {m : List (Nat × α)} {k j : Nat} {f : α → α} (h : j ≠ k) : find (modify m k f) j = find m j := by
  unfold modify
  split
  · exact find_set_ne h
  · rfl

-- ───────────────────────── the canonical form

theorem rising_mono {lo lo' : Nat} {m : List (Nat × α)} (h : risingFrom lo m = true) (hl : lo' ≤ lo) : risingFrom lo' m = true := by
  cases m with
  | nil => rfl
  | cons e t =>
    simp only [risingFrom, Bool.and_eq_true, decide_eq_true_eq] at h ⊢
    exact ⟨by omega, h.2⟩

theorem rising_set {lo k : Nat} {v : α} {m : List (Nat × α)} (h : risingFrom lo m = true) (hk : lo ≤ k) :
    risingFrom lo (set m k v) = true := by
  induction m generalizing lo with
  | nil => simpa [set, risingFrom] using hk
  | cons e t ih =>
    obtain ⟨a, w⟩ := e
    simp only [risingFrom, Bool.and_eq_true, decide_eq_true_eq] at h
    simp only [set]
    split
    · simp only [risingFrom, Bool.and_eq_true, decide_eq_true_eq]; exact ⟨hk, by omega, h.2⟩
    · split
      · subst_vars; simp only [risingFrom, Bool.and_eq_true, decide_eq_true_eq]; exact h
      · simp only [risingFrom, Bool.and_eq_true, decide_eq_true_eq]; exact ⟨h.1, ih h.2 (by omega)⟩

theorem rising_erase {lo k : Nat} {m : List (Nat × α)} (h : risingFrom lo m = true) : risingFrom lo (erase m k) = true := by
  induction m generalizing lo with
  | nil => rfl
  | cons e t ih =>
    obtain ⟨a, w⟩ := e
    simp only [risingFrom, Bool.and_eq_true, decide_eq_true_eq] at h
    simp only [erase]
    split
    · exact rising_mono h.2 (by omega)
    · simp only [risingFrom, Bool.and_eq_true, decide_eq_true_eq]; exact ⟨h.1, ih h.2⟩

theorem rising_filter {lo : Nat} {f : Nat × α → Bool} {m : List (Nat × α)} (h : risingFrom lo m = true) :
    risingFrom lo (m.filter f) = true := by
  induction m generalizing lo with
  | nil => rfl
  | cons e t ih =>
    obtain ⟨a, w⟩ := e
    simp only [risingFrom, Bool.and_eq_true, decide_eq_true_eq] at h
    simp only [List.filter_cons]
    split
    · simp only [risingFrom, Bool.and_eq_true, decide_eq_true_eq]; exact ⟨h.1, ih h.2⟩
    · exact rising_mono (ih h.2) (by omega)

theorem rising_dropRange {lo a b : Nat} {m : List (Nat × α)} (h : risingFrom lo m = true) : risingFrom lo (dropRange m a b) = true :=
  rising_filter h

/-- Every entry of a changed map is the new one or an old one. -/
theorem mem_set {m : List (Nat × α)} {k : Nat} {v : α} {e : Nat × α} (h : e ∈ set m k v) : e = (k, v) ∨ e ∈ m := by
  induction m with
  | nil => simpa [set] using h
  | cons x t ih =>
    obtain ⟨a, w⟩ := x
    simp only [set] at h
    split at h
    · simpa using h
    · split at h
      · simp only [List.mem_cons] at h ⊢; tauto
      · simp only [List.mem_cons] at h ⊢; rcases h with h | h
        · tauto
        · rcases ih h with h | h <;> tauto

theorem mem_erase {m : List (Nat × α)} {k : Nat} {e : Nat × α} (h : e ∈ erase m k) : e ∈ m := by
  induction m with
  | nil => simp [erase] at h
  | cons x t ih =>
    obtain ⟨a, w⟩ := x
    simp only [erase] at h
    split at h
    · simp [h]
    · simp only [List.mem_cons] at h ⊢; rcases h with h | h
      · exact .inl h
      · exact .inr (ih h)

end Sys2Proof.Machine.Assoc
end

