-- ==== Sys2Proof/Laws/State.lean ====
section
/-! SUPPORT. What each named update of the state leaves as it was, one lemma per field, and what it reads as afterwards. -/

namespace Sys2Proof.Machine

-- ───────────────────────── State.setSquare

@[simp] theorem State.setSquare_pending (p : Nat) (v : Square) (s : State) : (State.setSquare p v s).pending = s.pending := rfl
@[simp] theorem State.setSquare_up (p : Nat) (v : Square) (s : State) : (State.setSquare p v s).up = s.up := rfl
@[simp] theorem State.setSquare_free (p : Nat) (v : Square) (s : State) : (State.setSquare p v s).free = s.free := rfl
@[simp] theorem State.setSquare_ident (p : Nat) (v : Square) (s : State) : (State.setSquare p v s).ident = s.ident := rfl
@[simp] theorem State.setSquare_pwr (p : Nat) (v : Square) (s : State) : (State.setSquare p v s).pwr = s.pwr := rfl
@[simp] theorem State.setSquare_tower (p : Nat) (v : Square) (s : State) : (State.setSquare p v s).tower = s.tower := rfl
@[simp] theorem State.setSquare_scratch (p : Nat) (v : Square) (s : State) : (State.setSquare p v s).scratch = s.scratch := rfl
@[simp] theorem State.setSquare_sram (p : Nat) (v : Square) (s : State) : (State.setSquare p v s).sram = s.sram := rfl
@[simp] theorem State.setSquare_cfg (p : Nat) (v : Square) (s : State) : (State.setSquare p v s).cfg = s.cfg := rfl
@[simp] theorem State.setSquare_gen (p : Nat) (v : Square) (s : State) : (State.setSquare p v s).gen = s.gen := rfl
@[simp] theorem State.setSquare_hoist (p : Nat) (v : Square) (s : State) : (State.setSquare p v s).hoist = s.hoist := rfl
@[simp] theorem State.setSquare_ctxs (p : Nat) (v : Square) (s : State) : (State.setSquare p v s).ctxs = s.ctxs := rfl
@[simp] theorem State.setSquare_burgees (p : Nat) (v : Square) (s : State) : (State.setSquare p v s).burgees = s.burgees := rfl
@[simp] theorem State.setSquare_sched (p : Nat) (v : Square) (s : State) : (State.setSquare p v s).sched = s.sched := rfl
@[simp] theorem State.setSquare_hub (p : Nat) (v : Square) (s : State) : (State.setSquare p v s).hub = s.hub := rfl
@[simp] theorem State.setSquare_links (p : Nat) (v : Square) (s : State) : (State.setSquare p v s).links = s.links := rfl
@[simp] theorem State.setSquare_tow (p : Nat) (v : Square) (s : State) : (State.setSquare p v s).tow = s.tow := rfl
@[simp] theorem State.setSquare_radio (p : Nat) (v : Square) (s : State) : (State.setSquare p v s).radio = s.radio := rfl
@[simp] theorem State.setSquare_fh (p : Nat) (v : Square) (s : State) : (State.setSquare p v s).fh = s.fh := rfl
@[simp] theorem State.setSquare_time (p : Nat) (v : Square) (s : State) : (State.setSquare p v s).time = s.time := rfl
@[simp] theorem State.setSquare_msix (p : Nat) (v : Square) (s : State) : (State.setSquare p v s).msix = s.msix := rfl
@[simp] theorem State.setSquare_irqStat (p : Nat) (v : Square) (s : State) : (State.setSquare p v s).irqStat = s.irqStat := rfl
@[simp] theorem State.setSquare_mbox (p : Nat) (v : Square) (s : State) : (State.setSquare p v s).mbox = s.mbox := rfl
@[simp] theorem State.setSquare_elog (p : Nat) (v : Square) (s : State) : (State.setSquare p v s).elog = s.elog := rfl
@[simp] theorem State.setSquare_hly (p : Nat) (v : Square) (s : State) : (State.setSquare p v s).hly = s.hly := rfl
@[simp] theorem State.setSquare_sec (p : Nat) (v : Square) (s : State) : (State.setSquare p v s).sec = s.sec := rfl
@[simp] theorem State.setSquare_energy (p : Nat) (v : Square) (s : State) : (State.setSquare p v s).energy = s.energy := rfl
@[simp] theorem State.setSquare_muster (p : Nat) (v : Square) (s : State) : (State.setSquare p v s).muster = s.muster := rfl
@[simp] theorem State.setSquare_out (p : Nat) (v : Square) (s : State) : (State.setSquare p v s).out = s.out := rfl

-- ───────────────────────── State.setCtx

@[simp] theorem State.setCtx_pending (p slot : Nat) (v : Ctx) (s : State) : (State.setCtx p slot v s).pending = s.pending := rfl
@[simp] theorem State.setCtx_up (p slot : Nat) (v : Ctx) (s : State) : (State.setCtx p slot v s).up = s.up := rfl
@[simp] theorem State.setCtx_free (p slot : Nat) (v : Ctx) (s : State) : (State.setCtx p slot v s).free = s.free := rfl
@[simp] theorem State.setCtx_ident (p slot : Nat) (v : Ctx) (s : State) : (State.setCtx p slot v s).ident = s.ident := rfl
@[simp] theorem State.setCtx_pwr (p slot : Nat) (v : Ctx) (s : State) : (State.setCtx p slot v s).pwr = s.pwr := rfl
@[simp] theorem State.setCtx_tower (p slot : Nat) (v : Ctx) (s : State) : (State.setCtx p slot v s).tower = s.tower := rfl
@[simp] theorem State.setCtx_scratch (p slot : Nat) (v : Ctx) (s : State) : (State.setCtx p slot v s).scratch = s.scratch := rfl
@[simp] theorem State.setCtx_sram (p slot : Nat) (v : Ctx) (s : State) : (State.setCtx p slot v s).sram = s.sram := rfl
@[simp] theorem State.setCtx_cfg (p slot : Nat) (v : Ctx) (s : State) : (State.setCtx p slot v s).cfg = s.cfg := rfl
@[simp] theorem State.setCtx_gen (p slot : Nat) (v : Ctx) (s : State) : (State.setCtx p slot v s).gen = s.gen := rfl
@[simp] theorem State.setCtx_hoist (p slot : Nat) (v : Ctx) (s : State) : (State.setCtx p slot v s).hoist = s.hoist := rfl
@[simp] theorem State.setCtx_squares (p slot : Nat) (v : Ctx) (s : State) : (State.setCtx p slot v s).squares = s.squares := rfl
@[simp] theorem State.setCtx_burgees (p slot : Nat) (v : Ctx) (s : State) : (State.setCtx p slot v s).burgees = s.burgees := rfl
@[simp] theorem State.setCtx_sched (p slot : Nat) (v : Ctx) (s : State) : (State.setCtx p slot v s).sched = s.sched := rfl
@[simp] theorem State.setCtx_hub (p slot : Nat) (v : Ctx) (s : State) : (State.setCtx p slot v s).hub = s.hub := rfl
@[simp] theorem State.setCtx_links (p slot : Nat) (v : Ctx) (s : State) : (State.setCtx p slot v s).links = s.links := rfl
@[simp] theorem State.setCtx_tow (p slot : Nat) (v : Ctx) (s : State) : (State.setCtx p slot v s).tow = s.tow := rfl
@[simp] theorem State.setCtx_radio (p slot : Nat) (v : Ctx) (s : State) : (State.setCtx p slot v s).radio = s.radio := rfl
@[simp] theorem State.setCtx_fh (p slot : Nat) (v : Ctx) (s : State) : (State.setCtx p slot v s).fh = s.fh := rfl
@[simp] theorem State.setCtx_time (p slot : Nat) (v : Ctx) (s : State) : (State.setCtx p slot v s).time = s.time := rfl
@[simp] theorem State.setCtx_msix (p slot : Nat) (v : Ctx) (s : State) : (State.setCtx p slot v s).msix = s.msix := rfl
@[simp] theorem State.setCtx_irqStat (p slot : Nat) (v : Ctx) (s : State) : (State.setCtx p slot v s).irqStat = s.irqStat := rfl
@[simp] theorem State.setCtx_mbox (p slot : Nat) (v : Ctx) (s : State) : (State.setCtx p slot v s).mbox = s.mbox := rfl
@[simp] theorem State.setCtx_elog (p slot : Nat) (v : Ctx) (s : State) : (State.setCtx p slot v s).elog = s.elog := rfl
@[simp] theorem State.setCtx_hly (p slot : Nat) (v : Ctx) (s : State) : (State.setCtx p slot v s).hly = s.hly := rfl
@[simp] theorem State.setCtx_sec (p slot : Nat) (v : Ctx) (s : State) : (State.setCtx p slot v s).sec = s.sec := rfl
@[simp] theorem State.setCtx_energy (p slot : Nat) (v : Ctx) (s : State) : (State.setCtx p slot v s).energy = s.energy := rfl
@[simp] theorem State.setCtx_muster (p slot : Nat) (v : Ctx) (s : State) : (State.setCtx p slot v s).muster = s.muster := rfl
@[simp] theorem State.setCtx_out (p slot : Nat) (v : Ctx) (s : State) : (State.setCtx p slot v s).out = s.out := rfl

-- ───────────────────────── State.setBurgee

@[simp] theorem State.setBurgee_pending (b : Nat) (v : Burgee) (s : State) : (State.setBurgee b v s).pending = s.pending := rfl
@[simp] theorem State.setBurgee_up (b : Nat) (v : Burgee) (s : State) : (State.setBurgee b v s).up = s.up := rfl
@[simp] theorem State.setBurgee_free (b : Nat) (v : Burgee) (s : State) : (State.setBurgee b v s).free = s.free := rfl
@[simp] theorem State.setBurgee_ident (b : Nat) (v : Burgee) (s : State) : (State.setBurgee b v s).ident = s.ident := rfl
@[simp] theorem State.setBurgee_pwr (b : Nat) (v : Burgee) (s : State) : (State.setBurgee b v s).pwr = s.pwr := rfl
@[simp] theorem State.setBurgee_tower (b : Nat) (v : Burgee) (s : State) : (State.setBurgee b v s).tower = s.tower := rfl
@[simp] theorem State.setBurgee_scratch (b : Nat) (v : Burgee) (s : State) : (State.setBurgee b v s).scratch = s.scratch := rfl
@[simp] theorem State.setBurgee_sram (b : Nat) (v : Burgee) (s : State) : (State.setBurgee b v s).sram = s.sram := rfl
@[simp] theorem State.setBurgee_cfg (b : Nat) (v : Burgee) (s : State) : (State.setBurgee b v s).cfg = s.cfg := rfl
@[simp] theorem State.setBurgee_gen (b : Nat) (v : Burgee) (s : State) : (State.setBurgee b v s).gen = s.gen := rfl
@[simp] theorem State.setBurgee_hoist (b : Nat) (v : Burgee) (s : State) : (State.setBurgee b v s).hoist = s.hoist := rfl
@[simp] theorem State.setBurgee_squares (b : Nat) (v : Burgee) (s : State) : (State.setBurgee b v s).squares = s.squares := rfl
@[simp] theorem State.setBurgee_ctxs (b : Nat) (v : Burgee) (s : State) : (State.setBurgee b v s).ctxs = s.ctxs := rfl
@[simp] theorem State.setBurgee_sched (b : Nat) (v : Burgee) (s : State) : (State.setBurgee b v s).sched = s.sched := rfl
@[simp] theorem State.setBurgee_hub (b : Nat) (v : Burgee) (s : State) : (State.setBurgee b v s).hub = s.hub := rfl
@[simp] theorem State.setBurgee_links (b : Nat) (v : Burgee) (s : State) : (State.setBurgee b v s).links = s.links := rfl
@[simp] theorem State.setBurgee_tow (b : Nat) (v : Burgee) (s : State) : (State.setBurgee b v s).tow = s.tow := rfl
@[simp] theorem State.setBurgee_radio (b : Nat) (v : Burgee) (s : State) : (State.setBurgee b v s).radio = s.radio := rfl
@[simp] theorem State.setBurgee_fh (b : Nat) (v : Burgee) (s : State) : (State.setBurgee b v s).fh = s.fh := rfl
@[simp] theorem State.setBurgee_time (b : Nat) (v : Burgee) (s : State) : (State.setBurgee b v s).time = s.time := rfl
@[simp] theorem State.setBurgee_msix (b : Nat) (v : Burgee) (s : State) : (State.setBurgee b v s).msix = s.msix := rfl
@[simp] theorem State.setBurgee_irqStat (b : Nat) (v : Burgee) (s : State) : (State.setBurgee b v s).irqStat = s.irqStat := rfl
@[simp] theorem State.setBurgee_mbox (b : Nat) (v : Burgee) (s : State) : (State.setBurgee b v s).mbox = s.mbox := rfl
@[simp] theorem State.setBurgee_elog (b : Nat) (v : Burgee) (s : State) : (State.setBurgee b v s).elog = s.elog := rfl
@[simp] theorem State.setBurgee_hly (b : Nat) (v : Burgee) (s : State) : (State.setBurgee b v s).hly = s.hly := rfl
@[simp] theorem State.setBurgee_sec (b : Nat) (v : Burgee) (s : State) : (State.setBurgee b v s).sec = s.sec := rfl
@[simp] theorem State.setBurgee_energy (b : Nat) (v : Burgee) (s : State) : (State.setBurgee b v s).energy = s.energy := rfl
@[simp] theorem State.setBurgee_muster (b : Nat) (v : Burgee) (s : State) : (State.setBurgee b v s).muster = s.muster := rfl
@[simp] theorem State.setBurgee_out (b : Nat) (v : Burgee) (s : State) : (State.setBurgee b v s).out = s.out := rfl

-- ───────────────────────── State.modBurgee

@[simp] theorem State.modBurgee_pending (b : Nat) (f : Burgee → Burgee) (s : State) : (State.modBurgee b f s).pending = s.pending := rfl
@[simp] theorem State.modBurgee_up (b : Nat) (f : Burgee → Burgee) (s : State) : (State.modBurgee b f s).up = s.up := rfl
@[simp] theorem State.modBurgee_free (b : Nat) (f : Burgee → Burgee) (s : State) : (State.modBurgee b f s).free = s.free := rfl
@[simp] theorem State.modBurgee_ident (b : Nat) (f : Burgee → Burgee) (s : State) : (State.modBurgee b f s).ident = s.ident := rfl
@[simp] theorem State.modBurgee_pwr (b : Nat) (f : Burgee → Burgee) (s : State) : (State.modBurgee b f s).pwr = s.pwr := rfl
@[simp] theorem State.modBurgee_tower (b : Nat) (f : Burgee → Burgee) (s : State) : (State.modBurgee b f s).tower = s.tower := rfl
@[simp] theorem State.modBurgee_scratch (b : Nat) (f : Burgee → Burgee) (s : State) : (State.modBurgee b f s).scratch = s.scratch := rfl
@[simp] theorem State.modBurgee_sram (b : Nat) (f : Burgee → Burgee) (s : State) : (State.modBurgee b f s).sram = s.sram := rfl
@[simp] theorem State.modBurgee_cfg (b : Nat) (f : Burgee → Burgee) (s : State) : (State.modBurgee b f s).cfg = s.cfg := rfl
@[simp] theorem State.modBurgee_gen (b : Nat) (f : Burgee → Burgee) (s : State) : (State.modBurgee b f s).gen = s.gen := rfl
@[simp] theorem State.modBurgee_hoist (b : Nat) (f : Burgee → Burgee) (s : State) : (State.modBurgee b f s).hoist = s.hoist := rfl
@[simp] theorem State.modBurgee_squares (b : Nat) (f : Burgee → Burgee) (s : State) : (State.modBurgee b f s).squares = s.squares := rfl
@[simp] theorem State.modBurgee_ctxs (b : Nat) (f : Burgee → Burgee) (s : State) : (State.modBurgee b f s).ctxs = s.ctxs := rfl
@[simp] theorem State.modBurgee_sched (b : Nat) (f : Burgee → Burgee) (s : State) : (State.modBurgee b f s).sched = s.sched := rfl
@[simp] theorem State.modBurgee_hub (b : Nat) (f : Burgee → Burgee) (s : State) : (State.modBurgee b f s).hub = s.hub := rfl
@[simp] theorem State.modBurgee_links (b : Nat) (f : Burgee → Burgee) (s : State) : (State.modBurgee b f s).links = s.links := rfl
@[simp] theorem State.modBurgee_tow (b : Nat) (f : Burgee → Burgee) (s : State) : (State.modBurgee b f s).tow = s.tow := rfl
@[simp] theorem State.modBurgee_radio (b : Nat) (f : Burgee → Burgee) (s : State) : (State.modBurgee b f s).radio = s.radio := rfl
@[simp] theorem State.modBurgee_fh (b : Nat) (f : Burgee → Burgee) (s : State) : (State.modBurgee b f s).fh = s.fh := rfl
@[simp] theorem State.modBurgee_time (b : Nat) (f : Burgee → Burgee) (s : State) : (State.modBurgee b f s).time = s.time := rfl
@[simp] theorem State.modBurgee_msix (b : Nat) (f : Burgee → Burgee) (s : State) : (State.modBurgee b f s).msix = s.msix := rfl
@[simp] theorem State.modBurgee_irqStat (b : Nat) (f : Burgee → Burgee) (s : State) : (State.modBurgee b f s).irqStat = s.irqStat := rfl
@[simp] theorem State.modBurgee_mbox (b : Nat) (f : Burgee → Burgee) (s : State) : (State.modBurgee b f s).mbox = s.mbox := rfl
@[simp] theorem State.modBurgee_elog (b : Nat) (f : Burgee → Burgee) (s : State) : (State.modBurgee b f s).elog = s.elog := rfl
@[simp] theorem State.modBurgee_hly (b : Nat) (f : Burgee → Burgee) (s : State) : (State.modBurgee b f s).hly = s.hly := rfl
@[simp] theorem State.modBurgee_sec (b : Nat) (f : Burgee → Burgee) (s : State) : (State.modBurgee b f s).sec = s.sec := rfl
@[simp] theorem State.modBurgee_energy (b : Nat) (f : Burgee → Burgee) (s : State) : (State.modBurgee b f s).energy = s.energy := rfl
@[simp] theorem State.modBurgee_muster (b : Nat) (f : Burgee → Burgee) (s : State) : (State.modBurgee b f s).muster = s.muster := rfl
@[simp] theorem State.modBurgee_out (b : Nat) (f : Burgee → Burgee) (s : State) : (State.modBurgee b f s).out = s.out := rfl

-- ───────────────────────── State.setCmd

@[simp] theorem State.setCmd_pending (n : Nat) (v : Cmd) (s : State) : (State.setCmd n v s).pending = s.pending := rfl
@[simp] theorem State.setCmd_up (n : Nat) (v : Cmd) (s : State) : (State.setCmd n v s).up = s.up := rfl
@[simp] theorem State.setCmd_free (n : Nat) (v : Cmd) (s : State) : (State.setCmd n v s).free = s.free := rfl
@[simp] theorem State.setCmd_ident (n : Nat) (v : Cmd) (s : State) : (State.setCmd n v s).ident = s.ident := rfl
@[simp] theorem State.setCmd_pwr (n : Nat) (v : Cmd) (s : State) : (State.setCmd n v s).pwr = s.pwr := rfl
@[simp] theorem State.setCmd_tower (n : Nat) (v : Cmd) (s : State) : (State.setCmd n v s).tower = s.tower := rfl
@[simp] theorem State.setCmd_scratch (n : Nat) (v : Cmd) (s : State) : (State.setCmd n v s).scratch = s.scratch := rfl
@[simp] theorem State.setCmd_sram (n : Nat) (v : Cmd) (s : State) : (State.setCmd n v s).sram = s.sram := rfl
@[simp] theorem State.setCmd_cfg (n : Nat) (v : Cmd) (s : State) : (State.setCmd n v s).cfg = s.cfg := rfl
@[simp] theorem State.setCmd_gen (n : Nat) (v : Cmd) (s : State) : (State.setCmd n v s).gen = s.gen := rfl
@[simp] theorem State.setCmd_hoist (n : Nat) (v : Cmd) (s : State) : (State.setCmd n v s).hoist = s.hoist := rfl
@[simp] theorem State.setCmd_squares (n : Nat) (v : Cmd) (s : State) : (State.setCmd n v s).squares = s.squares := rfl
@[simp] theorem State.setCmd_ctxs (n : Nat) (v : Cmd) (s : State) : (State.setCmd n v s).ctxs = s.ctxs := rfl
@[simp] theorem State.setCmd_burgees (n : Nat) (v : Cmd) (s : State) : (State.setCmd n v s).burgees = s.burgees := rfl
@[simp] theorem State.setCmd_hub (n : Nat) (v : Cmd) (s : State) : (State.setCmd n v s).hub = s.hub := rfl
@[simp] theorem State.setCmd_links (n : Nat) (v : Cmd) (s : State) : (State.setCmd n v s).links = s.links := rfl
@[simp] theorem State.setCmd_tow (n : Nat) (v : Cmd) (s : State) : (State.setCmd n v s).tow = s.tow := rfl
@[simp] theorem State.setCmd_radio (n : Nat) (v : Cmd) (s : State) : (State.setCmd n v s).radio = s.radio := rfl
@[simp] theorem State.setCmd_fh (n : Nat) (v : Cmd) (s : State) : (State.setCmd n v s).fh = s.fh := rfl
@[simp] theorem State.setCmd_time (n : Nat) (v : Cmd) (s : State) : (State.setCmd n v s).time = s.time := rfl
@[simp] theorem State.setCmd_msix (n : Nat) (v : Cmd) (s : State) : (State.setCmd n v s).msix = s.msix := rfl
@[simp] theorem State.setCmd_irqStat (n : Nat) (v : Cmd) (s : State) : (State.setCmd n v s).irqStat = s.irqStat := rfl
@[simp] theorem State.setCmd_mbox (n : Nat) (v : Cmd) (s : State) : (State.setCmd n v s).mbox = s.mbox := rfl
@[simp] theorem State.setCmd_elog (n : Nat) (v : Cmd) (s : State) : (State.setCmd n v s).elog = s.elog := rfl
@[simp] theorem State.setCmd_hly (n : Nat) (v : Cmd) (s : State) : (State.setCmd n v s).hly = s.hly := rfl
@[simp] theorem State.setCmd_sec (n : Nat) (v : Cmd) (s : State) : (State.setCmd n v s).sec = s.sec := rfl
@[simp] theorem State.setCmd_energy (n : Nat) (v : Cmd) (s : State) : (State.setCmd n v s).energy = s.energy := rfl
@[simp] theorem State.setCmd_muster (n : Nat) (v : Cmd) (s : State) : (State.setCmd n v s).muster = s.muster := rfl
@[simp] theorem State.setCmd_out (n : Nat) (v : Cmd) (s : State) : (State.setCmd n v s).out = s.out := rfl

-- ───────────────────────── State.modCmd

@[simp] theorem State.modCmd_pending (n : Nat) (f : Cmd → Cmd) (s : State) : (State.modCmd n f s).pending = s.pending := rfl
@[simp] theorem State.modCmd_up (n : Nat) (f : Cmd → Cmd) (s : State) : (State.modCmd n f s).up = s.up := rfl
@[simp] theorem State.modCmd_free (n : Nat) (f : Cmd → Cmd) (s : State) : (State.modCmd n f s).free = s.free := rfl
@[simp] theorem State.modCmd_ident (n : Nat) (f : Cmd → Cmd) (s : State) : (State.modCmd n f s).ident = s.ident := rfl
@[simp] theorem State.modCmd_pwr (n : Nat) (f : Cmd → Cmd) (s : State) : (State.modCmd n f s).pwr = s.pwr := rfl
@[simp] theorem State.modCmd_tower (n : Nat) (f : Cmd → Cmd) (s : State) : (State.modCmd n f s).tower = s.tower := rfl
@[simp] theorem State.modCmd_scratch (n : Nat) (f : Cmd → Cmd) (s : State) : (State.modCmd n f s).scratch = s.scratch := rfl
@[simp] theorem State.modCmd_sram (n : Nat) (f : Cmd → Cmd) (s : State) : (State.modCmd n f s).sram = s.sram := rfl
@[simp] theorem State.modCmd_cfg (n : Nat) (f : Cmd → Cmd) (s : State) : (State.modCmd n f s).cfg = s.cfg := rfl
@[simp] theorem State.modCmd_gen (n : Nat) (f : Cmd → Cmd) (s : State) : (State.modCmd n f s).gen = s.gen := rfl
@[simp] theorem State.modCmd_hoist (n : Nat) (f : Cmd → Cmd) (s : State) : (State.modCmd n f s).hoist = s.hoist := rfl
@[simp] theorem State.modCmd_squares (n : Nat) (f : Cmd → Cmd) (s : State) : (State.modCmd n f s).squares = s.squares := rfl
@[simp] theorem State.modCmd_ctxs (n : Nat) (f : Cmd → Cmd) (s : State) : (State.modCmd n f s).ctxs = s.ctxs := rfl
@[simp] theorem State.modCmd_burgees (n : Nat) (f : Cmd → Cmd) (s : State) : (State.modCmd n f s).burgees = s.burgees := rfl
@[simp] theorem State.modCmd_hub (n : Nat) (f : Cmd → Cmd) (s : State) : (State.modCmd n f s).hub = s.hub := rfl
@[simp] theorem State.modCmd_links (n : Nat) (f : Cmd → Cmd) (s : State) : (State.modCmd n f s).links = s.links := rfl
@[simp] theorem State.modCmd_tow (n : Nat) (f : Cmd → Cmd) (s : State) : (State.modCmd n f s).tow = s.tow := rfl
@[simp] theorem State.modCmd_radio (n : Nat) (f : Cmd → Cmd) (s : State) : (State.modCmd n f s).radio = s.radio := rfl
@[simp] theorem State.modCmd_fh (n : Nat) (f : Cmd → Cmd) (s : State) : (State.modCmd n f s).fh = s.fh := rfl
@[simp] theorem State.modCmd_time (n : Nat) (f : Cmd → Cmd) (s : State) : (State.modCmd n f s).time = s.time := rfl
@[simp] theorem State.modCmd_msix (n : Nat) (f : Cmd → Cmd) (s : State) : (State.modCmd n f s).msix = s.msix := rfl
@[simp] theorem State.modCmd_irqStat (n : Nat) (f : Cmd → Cmd) (s : State) : (State.modCmd n f s).irqStat = s.irqStat := rfl
@[simp] theorem State.modCmd_mbox (n : Nat) (f : Cmd → Cmd) (s : State) : (State.modCmd n f s).mbox = s.mbox := rfl
@[simp] theorem State.modCmd_elog (n : Nat) (f : Cmd → Cmd) (s : State) : (State.modCmd n f s).elog = s.elog := rfl
@[simp] theorem State.modCmd_hly (n : Nat) (f : Cmd → Cmd) (s : State) : (State.modCmd n f s).hly = s.hly := rfl
@[simp] theorem State.modCmd_sec (n : Nat) (f : Cmd → Cmd) (s : State) : (State.modCmd n f s).sec = s.sec := rfl
@[simp] theorem State.modCmd_energy (n : Nat) (f : Cmd → Cmd) (s : State) : (State.modCmd n f s).energy = s.energy := rfl
@[simp] theorem State.modCmd_muster (n : Nat) (f : Cmd → Cmd) (s : State) : (State.modCmd n f s).muster = s.muster := rfl
@[simp] theorem State.modCmd_out (n : Nat) (f : Cmd → Cmd) (s : State) : (State.modCmd n f s).out = s.out := rfl

-- ───────────────────────── State.dropCmd

@[simp] theorem State.dropCmd_pending (n : Nat) (s : State) : (State.dropCmd n s).pending = s.pending := rfl
@[simp] theorem State.dropCmd_up (n : Nat) (s : State) : (State.dropCmd n s).up = s.up := rfl
@[simp] theorem State.dropCmd_free (n : Nat) (s : State) : (State.dropCmd n s).free = s.free := rfl
@[simp] theorem State.dropCmd_ident (n : Nat) (s : State) : (State.dropCmd n s).ident = s.ident := rfl
@[simp] theorem State.dropCmd_pwr (n : Nat) (s : State) : (State.dropCmd n s).pwr = s.pwr := rfl
@[simp] theorem State.dropCmd_tower (n : Nat) (s : State) : (State.dropCmd n s).tower = s.tower := rfl
@[simp] theorem State.dropCmd_scratch (n : Nat) (s : State) : (State.dropCmd n s).scratch = s.scratch := rfl
@[simp] theorem State.dropCmd_sram (n : Nat) (s : State) : (State.dropCmd n s).sram = s.sram := rfl
@[simp] theorem State.dropCmd_cfg (n : Nat) (s : State) : (State.dropCmd n s).cfg = s.cfg := rfl
@[simp] theorem State.dropCmd_gen (n : Nat) (s : State) : (State.dropCmd n s).gen = s.gen := rfl
@[simp] theorem State.dropCmd_hoist (n : Nat) (s : State) : (State.dropCmd n s).hoist = s.hoist := rfl
@[simp] theorem State.dropCmd_squares (n : Nat) (s : State) : (State.dropCmd n s).squares = s.squares := rfl
@[simp] theorem State.dropCmd_ctxs (n : Nat) (s : State) : (State.dropCmd n s).ctxs = s.ctxs := rfl
@[simp] theorem State.dropCmd_burgees (n : Nat) (s : State) : (State.dropCmd n s).burgees = s.burgees := rfl
@[simp] theorem State.dropCmd_hub (n : Nat) (s : State) : (State.dropCmd n s).hub = s.hub := rfl
@[simp] theorem State.dropCmd_links (n : Nat) (s : State) : (State.dropCmd n s).links = s.links := rfl
@[simp] theorem State.dropCmd_tow (n : Nat) (s : State) : (State.dropCmd n s).tow = s.tow := rfl
@[simp] theorem State.dropCmd_radio (n : Nat) (s : State) : (State.dropCmd n s).radio = s.radio := rfl
@[simp] theorem State.dropCmd_fh (n : Nat) (s : State) : (State.dropCmd n s).fh = s.fh := rfl
@[simp] theorem State.dropCmd_time (n : Nat) (s : State) : (State.dropCmd n s).time = s.time := rfl
@[simp] theorem State.dropCmd_msix (n : Nat) (s : State) : (State.dropCmd n s).msix = s.msix := rfl
@[simp] theorem State.dropCmd_irqStat (n : Nat) (s : State) : (State.dropCmd n s).irqStat = s.irqStat := rfl
@[simp] theorem State.dropCmd_mbox (n : Nat) (s : State) : (State.dropCmd n s).mbox = s.mbox := rfl
@[simp] theorem State.dropCmd_elog (n : Nat) (s : State) : (State.dropCmd n s).elog = s.elog := rfl
@[simp] theorem State.dropCmd_hly (n : Nat) (s : State) : (State.dropCmd n s).hly = s.hly := rfl
@[simp] theorem State.dropCmd_sec (n : Nat) (s : State) : (State.dropCmd n s).sec = s.sec := rfl
@[simp] theorem State.dropCmd_energy (n : Nat) (s : State) : (State.dropCmd n s).energy = s.energy := rfl
@[simp] theorem State.dropCmd_muster (n : Nat) (s : State) : (State.dropCmd n s).muster = s.muster := rfl
@[simp] theorem State.dropCmd_out (n : Nat) (s : State) : (State.dropCmd n s).out = s.out := rfl

-- ───────────────────────── State.setChan

@[simp] theorem State.setChan_pending (c : Nat) (v : Chan) (s : State) : (State.setChan c v s).pending = s.pending := rfl
@[simp] theorem State.setChan_up (c : Nat) (v : Chan) (s : State) : (State.setChan c v s).up = s.up := rfl
@[simp] theorem State.setChan_free (c : Nat) (v : Chan) (s : State) : (State.setChan c v s).free = s.free := rfl
@[simp] theorem State.setChan_ident (c : Nat) (v : Chan) (s : State) : (State.setChan c v s).ident = s.ident := rfl
@[simp] theorem State.setChan_pwr (c : Nat) (v : Chan) (s : State) : (State.setChan c v s).pwr = s.pwr := rfl
@[simp] theorem State.setChan_tower (c : Nat) (v : Chan) (s : State) : (State.setChan c v s).tower = s.tower := rfl
@[simp] theorem State.setChan_scratch (c : Nat) (v : Chan) (s : State) : (State.setChan c v s).scratch = s.scratch := rfl
@[simp] theorem State.setChan_sram (c : Nat) (v : Chan) (s : State) : (State.setChan c v s).sram = s.sram := rfl
@[simp] theorem State.setChan_cfg (c : Nat) (v : Chan) (s : State) : (State.setChan c v s).cfg = s.cfg := rfl
@[simp] theorem State.setChan_gen (c : Nat) (v : Chan) (s : State) : (State.setChan c v s).gen = s.gen := rfl
@[simp] theorem State.setChan_hoist (c : Nat) (v : Chan) (s : State) : (State.setChan c v s).hoist = s.hoist := rfl
@[simp] theorem State.setChan_squares (c : Nat) (v : Chan) (s : State) : (State.setChan c v s).squares = s.squares := rfl
@[simp] theorem State.setChan_ctxs (c : Nat) (v : Chan) (s : State) : (State.setChan c v s).ctxs = s.ctxs := rfl
@[simp] theorem State.setChan_burgees (c : Nat) (v : Chan) (s : State) : (State.setChan c v s).burgees = s.burgees := rfl
@[simp] theorem State.setChan_sched (c : Nat) (v : Chan) (s : State) : (State.setChan c v s).sched = s.sched := rfl
@[simp] theorem State.setChan_hub (c : Nat) (v : Chan) (s : State) : (State.setChan c v s).hub = s.hub := rfl
@[simp] theorem State.setChan_links (c : Nat) (v : Chan) (s : State) : (State.setChan c v s).links = s.links := rfl
@[simp] theorem State.setChan_radio (c : Nat) (v : Chan) (s : State) : (State.setChan c v s).radio = s.radio := rfl
@[simp] theorem State.setChan_fh (c : Nat) (v : Chan) (s : State) : (State.setChan c v s).fh = s.fh := rfl
@[simp] theorem State.setChan_time (c : Nat) (v : Chan) (s : State) : (State.setChan c v s).time = s.time := rfl
@[simp] theorem State.setChan_msix (c : Nat) (v : Chan) (s : State) : (State.setChan c v s).msix = s.msix := rfl
@[simp] theorem State.setChan_irqStat (c : Nat) (v : Chan) (s : State) : (State.setChan c v s).irqStat = s.irqStat := rfl
@[simp] theorem State.setChan_mbox (c : Nat) (v : Chan) (s : State) : (State.setChan c v s).mbox = s.mbox := rfl
@[simp] theorem State.setChan_elog (c : Nat) (v : Chan) (s : State) : (State.setChan c v s).elog = s.elog := rfl
@[simp] theorem State.setChan_hly (c : Nat) (v : Chan) (s : State) : (State.setChan c v s).hly = s.hly := rfl
@[simp] theorem State.setChan_sec (c : Nat) (v : Chan) (s : State) : (State.setChan c v s).sec = s.sec := rfl
@[simp] theorem State.setChan_energy (c : Nat) (v : Chan) (s : State) : (State.setChan c v s).energy = s.energy := rfl
@[simp] theorem State.setChan_muster (c : Nat) (v : Chan) (s : State) : (State.setChan c v s).muster = s.muster := rfl
@[simp] theorem State.setChan_out (c : Nat) (v : Chan) (s : State) : (State.setChan c v s).out = s.out := rfl

-- ───────────────────────── State.setLink

@[simp] theorem State.setLink_pending (l : Nat) (v : Link) (s : State) : (State.setLink l v s).pending = s.pending := rfl
@[simp] theorem State.setLink_up (l : Nat) (v : Link) (s : State) : (State.setLink l v s).up = s.up := rfl
@[simp] theorem State.setLink_free (l : Nat) (v : Link) (s : State) : (State.setLink l v s).free = s.free := rfl
@[simp] theorem State.setLink_ident (l : Nat) (v : Link) (s : State) : (State.setLink l v s).ident = s.ident := rfl
@[simp] theorem State.setLink_pwr (l : Nat) (v : Link) (s : State) : (State.setLink l v s).pwr = s.pwr := rfl
@[simp] theorem State.setLink_tower (l : Nat) (v : Link) (s : State) : (State.setLink l v s).tower = s.tower := rfl
@[simp] theorem State.setLink_scratch (l : Nat) (v : Link) (s : State) : (State.setLink l v s).scratch = s.scratch := rfl
@[simp] theorem State.setLink_sram (l : Nat) (v : Link) (s : State) : (State.setLink l v s).sram = s.sram := rfl
@[simp] theorem State.setLink_cfg (l : Nat) (v : Link) (s : State) : (State.setLink l v s).cfg = s.cfg := rfl
@[simp] theorem State.setLink_gen (l : Nat) (v : Link) (s : State) : (State.setLink l v s).gen = s.gen := rfl
@[simp] theorem State.setLink_hoist (l : Nat) (v : Link) (s : State) : (State.setLink l v s).hoist = s.hoist := rfl
@[simp] theorem State.setLink_squares (l : Nat) (v : Link) (s : State) : (State.setLink l v s).squares = s.squares := rfl
@[simp] theorem State.setLink_ctxs (l : Nat) (v : Link) (s : State) : (State.setLink l v s).ctxs = s.ctxs := rfl
@[simp] theorem State.setLink_burgees (l : Nat) (v : Link) (s : State) : (State.setLink l v s).burgees = s.burgees := rfl
@[simp] theorem State.setLink_sched (l : Nat) (v : Link) (s : State) : (State.setLink l v s).sched = s.sched := rfl
@[simp] theorem State.setLink_hub (l : Nat) (v : Link) (s : State) : (State.setLink l v s).hub = s.hub := rfl
@[simp] theorem State.setLink_tow (l : Nat) (v : Link) (s : State) : (State.setLink l v s).tow = s.tow := rfl
@[simp] theorem State.setLink_radio (l : Nat) (v : Link) (s : State) : (State.setLink l v s).radio = s.radio := rfl
@[simp] theorem State.setLink_fh (l : Nat) (v : Link) (s : State) : (State.setLink l v s).fh = s.fh := rfl
@[simp] theorem State.setLink_time (l : Nat) (v : Link) (s : State) : (State.setLink l v s).time = s.time := rfl
@[simp] theorem State.setLink_msix (l : Nat) (v : Link) (s : State) : (State.setLink l v s).msix = s.msix := rfl
@[simp] theorem State.setLink_irqStat (l : Nat) (v : Link) (s : State) : (State.setLink l v s).irqStat = s.irqStat := rfl
@[simp] theorem State.setLink_mbox (l : Nat) (v : Link) (s : State) : (State.setLink l v s).mbox = s.mbox := rfl
@[simp] theorem State.setLink_elog (l : Nat) (v : Link) (s : State) : (State.setLink l v s).elog = s.elog := rfl
@[simp] theorem State.setLink_hly (l : Nat) (v : Link) (s : State) : (State.setLink l v s).hly = s.hly := rfl
@[simp] theorem State.setLink_sec (l : Nat) (v : Link) (s : State) : (State.setLink l v s).sec = s.sec := rfl
@[simp] theorem State.setLink_energy (l : Nat) (v : Link) (s : State) : (State.setLink l v s).energy = s.energy := rfl
@[simp] theorem State.setLink_muster (l : Nat) (v : Link) (s : State) : (State.setLink l v s).muster = s.muster := rfl
@[simp] theorem State.setLink_out (l : Nat) (v : Link) (s : State) : (State.setLink l v s).out = s.out := rfl

-- ───────────────────────── State.setCell

@[simp] theorem State.setCell_pending (c : Nat) (v : Cell) (s : State) : (State.setCell c v s).pending = s.pending := rfl
@[simp] theorem State.setCell_up (c : Nat) (v : Cell) (s : State) : (State.setCell c v s).up = s.up := rfl
@[simp] theorem State.setCell_free (c : Nat) (v : Cell) (s : State) : (State.setCell c v s).free = s.free := rfl
@[simp] theorem State.setCell_ident (c : Nat) (v : Cell) (s : State) : (State.setCell c v s).ident = s.ident := rfl
@[simp] theorem State.setCell_pwr (c : Nat) (v : Cell) (s : State) : (State.setCell c v s).pwr = s.pwr := rfl
@[simp] theorem State.setCell_tower (c : Nat) (v : Cell) (s : State) : (State.setCell c v s).tower = s.tower := rfl
@[simp] theorem State.setCell_scratch (c : Nat) (v : Cell) (s : State) : (State.setCell c v s).scratch = s.scratch := rfl
@[simp] theorem State.setCell_sram (c : Nat) (v : Cell) (s : State) : (State.setCell c v s).sram = s.sram := rfl
@[simp] theorem State.setCell_cfg (c : Nat) (v : Cell) (s : State) : (State.setCell c v s).cfg = s.cfg := rfl
@[simp] theorem State.setCell_gen (c : Nat) (v : Cell) (s : State) : (State.setCell c v s).gen = s.gen := rfl
@[simp] theorem State.setCell_hoist (c : Nat) (v : Cell) (s : State) : (State.setCell c v s).hoist = s.hoist := rfl
@[simp] theorem State.setCell_squares (c : Nat) (v : Cell) (s : State) : (State.setCell c v s).squares = s.squares := rfl
@[simp] theorem State.setCell_ctxs (c : Nat) (v : Cell) (s : State) : (State.setCell c v s).ctxs = s.ctxs := rfl
@[simp] theorem State.setCell_burgees (c : Nat) (v : Cell) (s : State) : (State.setCell c v s).burgees = s.burgees := rfl
@[simp] theorem State.setCell_sched (c : Nat) (v : Cell) (s : State) : (State.setCell c v s).sched = s.sched := rfl
@[simp] theorem State.setCell_hub (c : Nat) (v : Cell) (s : State) : (State.setCell c v s).hub = s.hub := rfl
@[simp] theorem State.setCell_links (c : Nat) (v : Cell) (s : State) : (State.setCell c v s).links = s.links := rfl
@[simp] theorem State.setCell_tow (c : Nat) (v : Cell) (s : State) : (State.setCell c v s).tow = s.tow := rfl
@[simp] theorem State.setCell_fh (c : Nat) (v : Cell) (s : State) : (State.setCell c v s).fh = s.fh := rfl
@[simp] theorem State.setCell_time (c : Nat) (v : Cell) (s : State) : (State.setCell c v s).time = s.time := rfl
@[simp] theorem State.setCell_msix (c : Nat) (v : Cell) (s : State) : (State.setCell c v s).msix = s.msix := rfl
@[simp] theorem State.setCell_irqStat (c : Nat) (v : Cell) (s : State) : (State.setCell c v s).irqStat = s.irqStat := rfl
@[simp] theorem State.setCell_mbox (c : Nat) (v : Cell) (s : State) : (State.setCell c v s).mbox = s.mbox := rfl
@[simp] theorem State.setCell_elog (c : Nat) (v : Cell) (s : State) : (State.setCell c v s).elog = s.elog := rfl
@[simp] theorem State.setCell_hly (c : Nat) (v : Cell) (s : State) : (State.setCell c v s).hly = s.hly := rfl
@[simp] theorem State.setCell_sec (c : Nat) (v : Cell) (s : State) : (State.setCell c v s).sec = s.sec := rfl
@[simp] theorem State.setCell_energy (c : Nat) (v : Cell) (s : State) : (State.setCell c v s).energy = s.energy := rfl
@[simp] theorem State.setCell_muster (c : Nat) (v : Cell) (s : State) : (State.setCell c v s).muster = s.muster := rfl
@[simp] theorem State.setCell_out (c : Nat) (v : Cell) (s : State) : (State.setCell c v s).out = s.out := rfl

-- ───────────────────────── State.setPort

@[simp] theorem State.setPort_pending (p : Nat) (v : Port) (s : State) : (State.setPort p v s).pending = s.pending := rfl
@[simp] theorem State.setPort_up (p : Nat) (v : Port) (s : State) : (State.setPort p v s).up = s.up := rfl
@[simp] theorem State.setPort_free (p : Nat) (v : Port) (s : State) : (State.setPort p v s).free = s.free := rfl
@[simp] theorem State.setPort_ident (p : Nat) (v : Port) (s : State) : (State.setPort p v s).ident = s.ident := rfl
@[simp] theorem State.setPort_pwr (p : Nat) (v : Port) (s : State) : (State.setPort p v s).pwr = s.pwr := rfl
@[simp] theorem State.setPort_tower (p : Nat) (v : Port) (s : State) : (State.setPort p v s).tower = s.tower := rfl
@[simp] theorem State.setPort_scratch (p : Nat) (v : Port) (s : State) : (State.setPort p v s).scratch = s.scratch := rfl
@[simp] theorem State.setPort_sram (p : Nat) (v : Port) (s : State) : (State.setPort p v s).sram = s.sram := rfl
@[simp] theorem State.setPort_cfg (p : Nat) (v : Port) (s : State) : (State.setPort p v s).cfg = s.cfg := rfl
@[simp] theorem State.setPort_gen (p : Nat) (v : Port) (s : State) : (State.setPort p v s).gen = s.gen := rfl
@[simp] theorem State.setPort_hoist (p : Nat) (v : Port) (s : State) : (State.setPort p v s).hoist = s.hoist := rfl
@[simp] theorem State.setPort_squares (p : Nat) (v : Port) (s : State) : (State.setPort p v s).squares = s.squares := rfl
@[simp] theorem State.setPort_ctxs (p : Nat) (v : Port) (s : State) : (State.setPort p v s).ctxs = s.ctxs := rfl
@[simp] theorem State.setPort_burgees (p : Nat) (v : Port) (s : State) : (State.setPort p v s).burgees = s.burgees := rfl
@[simp] theorem State.setPort_sched (p : Nat) (v : Port) (s : State) : (State.setPort p v s).sched = s.sched := rfl
@[simp] theorem State.setPort_hub (p : Nat) (v : Port) (s : State) : (State.setPort p v s).hub = s.hub := rfl
@[simp] theorem State.setPort_links (p : Nat) (v : Port) (s : State) : (State.setPort p v s).links = s.links := rfl
@[simp] theorem State.setPort_tow (p : Nat) (v : Port) (s : State) : (State.setPort p v s).tow = s.tow := rfl
@[simp] theorem State.setPort_radio (p : Nat) (v : Port) (s : State) : (State.setPort p v s).radio = s.radio := rfl
@[simp] theorem State.setPort_time (p : Nat) (v : Port) (s : State) : (State.setPort p v s).time = s.time := rfl
@[simp] theorem State.setPort_msix (p : Nat) (v : Port) (s : State) : (State.setPort p v s).msix = s.msix := rfl
@[simp] theorem State.setPort_irqStat (p : Nat) (v : Port) (s : State) : (State.setPort p v s).irqStat = s.irqStat := rfl
@[simp] theorem State.setPort_mbox (p : Nat) (v : Port) (s : State) : (State.setPort p v s).mbox = s.mbox := rfl
@[simp] theorem State.setPort_elog (p : Nat) (v : Port) (s : State) : (State.setPort p v s).elog = s.elog := rfl
@[simp] theorem State.setPort_hly (p : Nat) (v : Port) (s : State) : (State.setPort p v s).hly = s.hly := rfl
@[simp] theorem State.setPort_sec (p : Nat) (v : Port) (s : State) : (State.setPort p v s).sec = s.sec := rfl
@[simp] theorem State.setPort_energy (p : Nat) (v : Port) (s : State) : (State.setPort p v s).energy = s.energy := rfl
@[simp] theorem State.setPort_muster (p : Nat) (v : Port) (s : State) : (State.setPort p v s).muster = s.muster := rfl
@[simp] theorem State.setPort_out (p : Nat) (v : Port) (s : State) : (State.setPort p v s).out = s.out := rfl

-- ───────────────────────── State.setPeer

@[simp] theorem State.setPeer_pending (d : Nat) (v : Peer) (s : State) : (State.setPeer d v s).pending = s.pending := rfl
@[simp] theorem State.setPeer_up (d : Nat) (v : Peer) (s : State) : (State.setPeer d v s).up = s.up := rfl
@[simp] theorem State.setPeer_free (d : Nat) (v : Peer) (s : State) : (State.setPeer d v s).free = s.free := rfl
@[simp] theorem State.setPeer_ident (d : Nat) (v : Peer) (s : State) : (State.setPeer d v s).ident = s.ident := rfl
@[simp] theorem State.setPeer_pwr (d : Nat) (v : Peer) (s : State) : (State.setPeer d v s).pwr = s.pwr := rfl
@[simp] theorem State.setPeer_tower (d : Nat) (v : Peer) (s : State) : (State.setPeer d v s).tower = s.tower := rfl
@[simp] theorem State.setPeer_scratch (d : Nat) (v : Peer) (s : State) : (State.setPeer d v s).scratch = s.scratch := rfl
@[simp] theorem State.setPeer_sram (d : Nat) (v : Peer) (s : State) : (State.setPeer d v s).sram = s.sram := rfl
@[simp] theorem State.setPeer_cfg (d : Nat) (v : Peer) (s : State) : (State.setPeer d v s).cfg = s.cfg := rfl
@[simp] theorem State.setPeer_gen (d : Nat) (v : Peer) (s : State) : (State.setPeer d v s).gen = s.gen := rfl
@[simp] theorem State.setPeer_hoist (d : Nat) (v : Peer) (s : State) : (State.setPeer d v s).hoist = s.hoist := rfl
@[simp] theorem State.setPeer_squares (d : Nat) (v : Peer) (s : State) : (State.setPeer d v s).squares = s.squares := rfl
@[simp] theorem State.setPeer_ctxs (d : Nat) (v : Peer) (s : State) : (State.setPeer d v s).ctxs = s.ctxs := rfl
@[simp] theorem State.setPeer_burgees (d : Nat) (v : Peer) (s : State) : (State.setPeer d v s).burgees = s.burgees := rfl
@[simp] theorem State.setPeer_sched (d : Nat) (v : Peer) (s : State) : (State.setPeer d v s).sched = s.sched := rfl
@[simp] theorem State.setPeer_hub (d : Nat) (v : Peer) (s : State) : (State.setPeer d v s).hub = s.hub := rfl
@[simp] theorem State.setPeer_links (d : Nat) (v : Peer) (s : State) : (State.setPeer d v s).links = s.links := rfl
@[simp] theorem State.setPeer_tow (d : Nat) (v : Peer) (s : State) : (State.setPeer d v s).tow = s.tow := rfl
@[simp] theorem State.setPeer_radio (d : Nat) (v : Peer) (s : State) : (State.setPeer d v s).radio = s.radio := rfl
@[simp] theorem State.setPeer_fh (d : Nat) (v : Peer) (s : State) : (State.setPeer d v s).fh = s.fh := rfl
@[simp] theorem State.setPeer_time (d : Nat) (v : Peer) (s : State) : (State.setPeer d v s).time = s.time := rfl
@[simp] theorem State.setPeer_msix (d : Nat) (v : Peer) (s : State) : (State.setPeer d v s).msix = s.msix := rfl
@[simp] theorem State.setPeer_irqStat (d : Nat) (v : Peer) (s : State) : (State.setPeer d v s).irqStat = s.irqStat := rfl
@[simp] theorem State.setPeer_mbox (d : Nat) (v : Peer) (s : State) : (State.setPeer d v s).mbox = s.mbox := rfl
@[simp] theorem State.setPeer_elog (d : Nat) (v : Peer) (s : State) : (State.setPeer d v s).elog = s.elog := rfl
@[simp] theorem State.setPeer_hly (d : Nat) (v : Peer) (s : State) : (State.setPeer d v s).hly = s.hly := rfl
@[simp] theorem State.setPeer_sec (d : Nat) (v : Peer) (s : State) : (State.setPeer d v s).sec = s.sec := rfl
@[simp] theorem State.setPeer_energy (d : Nat) (v : Peer) (s : State) : (State.setPeer d v s).energy = s.energy := rfl
@[simp] theorem State.setPeer_out (d : Nat) (v : Peer) (s : State) : (State.setPeer d v s).out = s.out := rfl

-- ───────────────────────── State.setMram

@[simp] theorem State.setMram_pending (off n v : Nat) (s : State) : (State.setMram off n v s).pending = s.pending := rfl
@[simp] theorem State.setMram_up (off n v : Nat) (s : State) : (State.setMram off n v s).up = s.up := rfl
@[simp] theorem State.setMram_free (off n v : Nat) (s : State) : (State.setMram off n v s).free = s.free := rfl
@[simp] theorem State.setMram_ident (off n v : Nat) (s : State) : (State.setMram off n v s).ident = s.ident := rfl
@[simp] theorem State.setMram_pwr (off n v : Nat) (s : State) : (State.setMram off n v s).pwr = s.pwr := rfl
@[simp] theorem State.setMram_tower (off n v : Nat) (s : State) : (State.setMram off n v s).tower = s.tower := rfl
@[simp] theorem State.setMram_scratch (off n v : Nat) (s : State) : (State.setMram off n v s).scratch = s.scratch := rfl
@[simp] theorem State.setMram_sram (off n v : Nat) (s : State) : (State.setMram off n v s).sram = s.sram := rfl
@[simp] theorem State.setMram_cfg (off n v : Nat) (s : State) : (State.setMram off n v s).cfg = s.cfg := rfl
@[simp] theorem State.setMram_gen (off n v : Nat) (s : State) : (State.setMram off n v s).gen = s.gen := rfl
@[simp] theorem State.setMram_hoist (off n v : Nat) (s : State) : (State.setMram off n v s).hoist = s.hoist := rfl
@[simp] theorem State.setMram_squares (off n v : Nat) (s : State) : (State.setMram off n v s).squares = s.squares := rfl
@[simp] theorem State.setMram_ctxs (off n v : Nat) (s : State) : (State.setMram off n v s).ctxs = s.ctxs := rfl
@[simp] theorem State.setMram_burgees (off n v : Nat) (s : State) : (State.setMram off n v s).burgees = s.burgees := rfl
@[simp] theorem State.setMram_sched (off n v : Nat) (s : State) : (State.setMram off n v s).sched = s.sched := rfl
@[simp] theorem State.setMram_hub (off n v : Nat) (s : State) : (State.setMram off n v s).hub = s.hub := rfl
@[simp] theorem State.setMram_links (off n v : Nat) (s : State) : (State.setMram off n v s).links = s.links := rfl
@[simp] theorem State.setMram_tow (off n v : Nat) (s : State) : (State.setMram off n v s).tow = s.tow := rfl
@[simp] theorem State.setMram_radio (off n v : Nat) (s : State) : (State.setMram off n v s).radio = s.radio := rfl
@[simp] theorem State.setMram_fh (off n v : Nat) (s : State) : (State.setMram off n v s).fh = s.fh := rfl
@[simp] theorem State.setMram_time (off n v : Nat) (s : State) : (State.setMram off n v s).time = s.time := rfl
@[simp] theorem State.setMram_msix (off n v : Nat) (s : State) : (State.setMram off n v s).msix = s.msix := rfl
@[simp] theorem State.setMram_irqStat (off n v : Nat) (s : State) : (State.setMram off n v s).irqStat = s.irqStat := rfl
@[simp] theorem State.setMram_mbox (off n v : Nat) (s : State) : (State.setMram off n v s).mbox = s.mbox := rfl
@[simp] theorem State.setMram_elog (off n v : Nat) (s : State) : (State.setMram off n v s).elog = s.elog := rfl
@[simp] theorem State.setMram_sec (off n v : Nat) (s : State) : (State.setMram off n v s).sec = s.sec := rfl
@[simp] theorem State.setMram_energy (off n v : Nat) (s : State) : (State.setMram off n v s).energy = s.energy := rfl
@[simp] theorem State.setMram_muster (off n v : Nat) (s : State) : (State.setMram off n v s).muster = s.muster := rfl
@[simp] theorem State.setMram_out (off n v : Nat) (s : State) : (State.setMram off n v s).out = s.out := rfl

-- ───────────────────────── emit

@[simp] theorem emit_pending (o : Out) (s : State) : (emit o s).pending = s.pending := rfl
@[simp] theorem emit_up (o : Out) (s : State) : (emit o s).up = s.up := rfl
@[simp] theorem emit_free (o : Out) (s : State) : (emit o s).free = s.free := rfl
@[simp] theorem emit_ident (o : Out) (s : State) : (emit o s).ident = s.ident := rfl
@[simp] theorem emit_pwr (o : Out) (s : State) : (emit o s).pwr = s.pwr := rfl
@[simp] theorem emit_tower (o : Out) (s : State) : (emit o s).tower = s.tower := rfl
@[simp] theorem emit_scratch (o : Out) (s : State) : (emit o s).scratch = s.scratch := rfl
@[simp] theorem emit_sram (o : Out) (s : State) : (emit o s).sram = s.sram := rfl
@[simp] theorem emit_cfg (o : Out) (s : State) : (emit o s).cfg = s.cfg := rfl
@[simp] theorem emit_gen (o : Out) (s : State) : (emit o s).gen = s.gen := rfl
@[simp] theorem emit_hoist (o : Out) (s : State) : (emit o s).hoist = s.hoist := rfl
@[simp] theorem emit_squares (o : Out) (s : State) : (emit o s).squares = s.squares := rfl
@[simp] theorem emit_ctxs (o : Out) (s : State) : (emit o s).ctxs = s.ctxs := rfl
@[simp] theorem emit_burgees (o : Out) (s : State) : (emit o s).burgees = s.burgees := rfl
@[simp] theorem emit_sched (o : Out) (s : State) : (emit o s).sched = s.sched := rfl
@[simp] theorem emit_hub (o : Out) (s : State) : (emit o s).hub = s.hub := rfl
@[simp] theorem emit_links (o : Out) (s : State) : (emit o s).links = s.links := rfl
@[simp] theorem emit_tow (o : Out) (s : State) : (emit o s).tow = s.tow := rfl
@[simp] theorem emit_radio (o : Out) (s : State) : (emit o s).radio = s.radio := rfl
@[simp] theorem emit_fh (o : Out) (s : State) : (emit o s).fh = s.fh := rfl
@[simp] theorem emit_time (o : Out) (s : State) : (emit o s).time = s.time := rfl
@[simp] theorem emit_msix (o : Out) (s : State) : (emit o s).msix = s.msix := rfl
@[simp] theorem emit_irqStat (o : Out) (s : State) : (emit o s).irqStat = s.irqStat := rfl
@[simp] theorem emit_mbox (o : Out) (s : State) : (emit o s).mbox = s.mbox := rfl
@[simp] theorem emit_elog (o : Out) (s : State) : (emit o s).elog = s.elog := rfl
@[simp] theorem emit_hly (o : Out) (s : State) : (emit o s).hly = s.hly := rfl
@[simp] theorem emit_sec (o : Out) (s : State) : (emit o s).sec = s.sec := rfl
@[simp] theorem emit_energy (o : Out) (s : State) : (emit o s).energy = s.energy := rfl
@[simp] theorem emit_muster (o : Out) (s : State) : (emit o s).muster = s.muster := rfl
@[simp] theorem emit_out (o : Out) (s : State) : (emit o s).out = o :: s.out := rfl

-- ───────────────────────── an entry after its own update

@[simp] theorem State.square_setSquare (p : Nat) (v : Square) (s : State) : (State.setSquare p v s).square p = v := by
  simp [State.square, State.setSquare]
@[simp] theorem State.ctx_setCtx (p slot : Nat) (v : Ctx) (s : State) : (State.setCtx p slot v s).ctx p slot = v := by
  simp [State.ctx, State.setCtx]
@[simp] theorem State.burgee_setBurgee (b : Nat) (v : Burgee) (s : State) : (State.setBurgee b v s).burgee b = v := by
  simp [State.burgee, State.setBurgee]
@[simp] theorem State.burgee_modBurgee (b : Nat) (f : Burgee → Burgee) (s : State) :
    (State.modBurgee b f s).burgee b = f (s.burgee b) := by simp [State.modBurgee]
@[simp] theorem State.cmd_setCmd (n : Nat) (v : Cmd) (s : State) : (State.setCmd n v s).cmd n = some v := by
  simp [State.cmd, State.setCmd]
@[simp] theorem State.cmd_modCmd (n : Nat) (f : Cmd → Cmd) (s : State) : (State.modCmd n f s).cmd n = (s.cmd n).map f := by
  simp [State.cmd, State.modCmd, Assoc.find_modify_self]
@[simp] theorem State.chan_setChan (c : Nat) (v : Chan) (s : State) : (State.setChan c v s).chan c = v := by
  simp [State.chan, State.setChan]
@[simp] theorem State.link_setLink (l : Nat) (v : Link) (s : State) : (State.setLink l v s).link l = v := by
  simp [State.link, State.setLink]
@[simp] theorem State.cell_setCell (c : Nat) (v : Cell) (s : State) : (State.setCell c v s).cell c = some v := by
  simp [State.cell, State.setCell]
@[simp] theorem State.port_setPort (p : Nat) (v : Port) (s : State) : (State.setPort p v s).port p = v := by
  simp [State.port, State.setPort]
@[simp] theorem State.peer_setPeer (d : Nat) (v : Peer) (s : State) : (State.setPeer d v s).peer d = v := by
  simp [State.peer, State.setPeer]

@[simp] theorem State.setCtx_setCtx (p slot : Nat) (v w : Ctx) (s : State) :
    State.setCtx p slot w (State.setCtx p slot v s) = State.setCtx p slot w s := by simp [State.setCtx]
@[simp] theorem State.setSquare_setSquare (p : Nat) (v w : Square) (s : State) :
    State.setSquare p w (State.setSquare p v s) = State.setSquare p w s := by simp [State.setSquare]

-- ───────────────────────── another entry after an update

theorem State.square_setSquare_ne {p j : Nat} (h : j ≠ p) (v : Square) (s : State) :
    (State.setSquare p v s).square j = s.square j := Assoc.get_set_ne h
theorem State.ctx_setCtx_ne {p slot k j : Nat} (h : ctxKey k j ≠ ctxKey p slot) (v : Ctx) (s : State) :
    (State.setCtx p slot v s).ctx k j = s.ctx k j := Assoc.get_set_ne h
theorem State.burgee_setBurgee_ne {b j : Nat} (h : j ≠ b) (v : Burgee) (s : State) :
    (State.setBurgee b v s).burgee j = s.burgee j := Assoc.get_set_ne h
theorem State.cmd_setCmd_ne {n j : Nat} (h : j ≠ n) (v : Cmd) (s : State) : (State.setCmd n v s).cmd j = s.cmd j :=
  Assoc.find_set_ne h
theorem State.cmd_modCmd_ne {n j : Nat} (h : j ≠ n) (f : Cmd → Cmd) (s : State) : (State.modCmd n f s).cmd j = s.cmd j :=
  Assoc.find_modify_ne h
theorem State.link_setLink_ne {l j : Nat} (h : j ≠ l) (v : Link) (s : State) : (State.setLink l v s).link j = s.link j :=
  Assoc.get_set_ne h

@[simp] theorem State.square_setCtx (p slot : Nat) (v : Ctx) (q : Nat) (s : State) : (State.setCtx p slot v s).square q = s.square q := rfl
@[simp] theorem State.square_setBurgee (b : Nat) (v : Burgee) (q : Nat) (s : State) : (State.setBurgee b v s).square q = s.square q := rfl
@[simp] theorem State.square_modBurgee (b : Nat) (f : Burgee → Burgee) (q : Nat) (s : State) : (State.modBurgee b f s).square q = s.square q := rfl
@[simp] theorem State.square_setCmd (n : Nat) (v : Cmd) (q : Nat) (s : State) : (State.setCmd n v s).square q = s.square q := rfl
@[simp] theorem State.square_modCmd (n : Nat) (f : Cmd → Cmd) (q : Nat) (s : State) : (State.modCmd n f s).square q = s.square q := rfl
@[simp] theorem State.square_dropCmd (n : Nat) (q : Nat) (s : State) : (State.dropCmd n s).square q = s.square q := rfl
@[simp] theorem State.square_setChan (c : Nat) (v : Chan) (q : Nat) (s : State) : (State.setChan c v s).square q = s.square q := rfl
@[simp] theorem State.square_setLink (l : Nat) (v : Link) (q : Nat) (s : State) : (State.setLink l v s).square q = s.square q := rfl
@[simp] theorem State.square_setCell (c : Nat) (v : Cell) (q : Nat) (s : State) : (State.setCell c v s).square q = s.square q := rfl
@[simp] theorem State.square_setPort (p : Nat) (v : Port) (q : Nat) (s : State) : (State.setPort p v s).square q = s.square q := rfl
@[simp] theorem State.square_setPeer (d : Nat) (v : Peer) (q : Nat) (s : State) : (State.setPeer d v s).square q = s.square q := rfl
@[simp] theorem State.square_setMram (off n v : Nat) (q : Nat) (s : State) : (State.setMram off n v s).square q = s.square q := rfl
@[simp] theorem State.square_emit (o : Out) (q : Nat) (s : State) : (emit o s).square q = s.square q := rfl
@[simp] theorem State.ctx_setSquare (p : Nat) (v : Square) (q k : Nat) (s : State) : (State.setSquare p v s).ctx q k = s.ctx q k := rfl
@[simp] theorem State.ctx_setBurgee (b : Nat) (v : Burgee) (q k : Nat) (s : State) : (State.setBurgee b v s).ctx q k = s.ctx q k := rfl
@[simp] theorem State.ctx_modBurgee (b : Nat) (f : Burgee → Burgee) (q k : Nat) (s : State) : (State.modBurgee b f s).ctx q k = s.ctx q k := rfl
@[simp] theorem State.ctx_setCmd (n : Nat) (v : Cmd) (q k : Nat) (s : State) : (State.setCmd n v s).ctx q k = s.ctx q k := rfl
@[simp] theorem State.ctx_modCmd (n : Nat) (f : Cmd → Cmd) (q k : Nat) (s : State) : (State.modCmd n f s).ctx q k = s.ctx q k := rfl
@[simp] theorem State.ctx_dropCmd (n : Nat) (q k : Nat) (s : State) : (State.dropCmd n s).ctx q k = s.ctx q k := rfl
@[simp] theorem State.ctx_setChan (c : Nat) (v : Chan) (q k : Nat) (s : State) : (State.setChan c v s).ctx q k = s.ctx q k := rfl
@[simp] theorem State.ctx_setLink (l : Nat) (v : Link) (q k : Nat) (s : State) : (State.setLink l v s).ctx q k = s.ctx q k := rfl
@[simp] theorem State.ctx_setCell (c : Nat) (v : Cell) (q k : Nat) (s : State) : (State.setCell c v s).ctx q k = s.ctx q k := rfl
@[simp] theorem State.ctx_setPort (p : Nat) (v : Port) (q k : Nat) (s : State) : (State.setPort p v s).ctx q k = s.ctx q k := rfl
@[simp] theorem State.ctx_setPeer (d : Nat) (v : Peer) (q k : Nat) (s : State) : (State.setPeer d v s).ctx q k = s.ctx q k := rfl
@[simp] theorem State.ctx_setMram (off n v : Nat) (q k : Nat) (s : State) : (State.setMram off n v s).ctx q k = s.ctx q k := rfl
@[simp] theorem State.ctx_emit (o : Out) (q k : Nat) (s : State) : (emit o s).ctx q k = s.ctx q k := rfl
@[simp] theorem State.burgee_setSquare (p : Nat) (v : Square) (q : Nat) (s : State) : (State.setSquare p v s).burgee q = s.burgee q := rfl
@[simp] theorem State.burgee_setCtx (p slot : Nat) (v : Ctx) (q : Nat) (s : State) : (State.setCtx p slot v s).burgee q = s.burgee q := rfl
@[simp] theorem State.burgee_setCmd (n : Nat) (v : Cmd) (q : Nat) (s : State) : (State.setCmd n v s).burgee q = s.burgee q := rfl
@[simp] theorem State.burgee_modCmd (n : Nat) (f : Cmd → Cmd) (q : Nat) (s : State) : (State.modCmd n f s).burgee q = s.burgee q := rfl
@[simp] theorem State.burgee_dropCmd (n : Nat) (q : Nat) (s : State) : (State.dropCmd n s).burgee q = s.burgee q := rfl
@[simp] theorem State.burgee_setChan (c : Nat) (v : Chan) (q : Nat) (s : State) : (State.setChan c v s).burgee q = s.burgee q := rfl
@[simp] theorem State.burgee_setLink (l : Nat) (v : Link) (q : Nat) (s : State) : (State.setLink l v s).burgee q = s.burgee q := rfl
@[simp] theorem State.burgee_setCell (c : Nat) (v : Cell) (q : Nat) (s : State) : (State.setCell c v s).burgee q = s.burgee q := rfl
@[simp] theorem State.burgee_setPort (p : Nat) (v : Port) (q : Nat) (s : State) : (State.setPort p v s).burgee q = s.burgee q := rfl
@[simp] theorem State.burgee_setPeer (d : Nat) (v : Peer) (q : Nat) (s : State) : (State.setPeer d v s).burgee q = s.burgee q := rfl
@[simp] theorem State.burgee_setMram (off n v : Nat) (q : Nat) (s : State) : (State.setMram off n v s).burgee q = s.burgee q := rfl
@[simp] theorem State.burgee_emit (o : Out) (q : Nat) (s : State) : (emit o s).burgee q = s.burgee q := rfl
@[simp] theorem State.cmd_setSquare (p : Nat) (v : Square) (q : Nat) (s : State) : (State.setSquare p v s).cmd q = s.cmd q := rfl
@[simp] theorem State.cmd_setCtx (p slot : Nat) (v : Ctx) (q : Nat) (s : State) : (State.setCtx p slot v s).cmd q = s.cmd q := rfl
@[simp] theorem State.cmd_setBurgee (b : Nat) (v : Burgee) (q : Nat) (s : State) : (State.setBurgee b v s).cmd q = s.cmd q := rfl
@[simp] theorem State.cmd_modBurgee (b : Nat) (f : Burgee → Burgee) (q : Nat) (s : State) : (State.modBurgee b f s).cmd q = s.cmd q := rfl
@[simp] theorem State.cmd_setChan (c : Nat) (v : Chan) (q : Nat) (s : State) : (State.setChan c v s).cmd q = s.cmd q := rfl
@[simp] theorem State.cmd_setLink (l : Nat) (v : Link) (q : Nat) (s : State) : (State.setLink l v s).cmd q = s.cmd q := rfl
@[simp] theorem State.cmd_setCell (c : Nat) (v : Cell) (q : Nat) (s : State) : (State.setCell c v s).cmd q = s.cmd q := rfl
@[simp] theorem State.cmd_setPort (p : Nat) (v : Port) (q : Nat) (s : State) : (State.setPort p v s).cmd q = s.cmd q := rfl
@[simp] theorem State.cmd_setPeer (d : Nat) (v : Peer) (q : Nat) (s : State) : (State.setPeer d v s).cmd q = s.cmd q := rfl
@[simp] theorem State.cmd_setMram (off n v : Nat) (q : Nat) (s : State) : (State.setMram off n v s).cmd q = s.cmd q := rfl
@[simp] theorem State.cmd_emit (o : Out) (q : Nat) (s : State) : (emit o s).cmd q = s.cmd q := rfl
@[simp] theorem State.chan_setSquare (p : Nat) (v : Square) (q : Nat) (s : State) : (State.setSquare p v s).chan q = s.chan q := rfl
@[simp] theorem State.chan_setCtx (p slot : Nat) (v : Ctx) (q : Nat) (s : State) : (State.setCtx p slot v s).chan q = s.chan q := rfl
@[simp] theorem State.chan_setBurgee (b : Nat) (v : Burgee) (q : Nat) (s : State) : (State.setBurgee b v s).chan q = s.chan q := rfl
@[simp] theorem State.chan_modBurgee (b : Nat) (f : Burgee → Burgee) (q : Nat) (s : State) : (State.modBurgee b f s).chan q = s.chan q := rfl
@[simp] theorem State.chan_setCmd (n : Nat) (v : Cmd) (q : Nat) (s : State) : (State.setCmd n v s).chan q = s.chan q := rfl
@[simp] theorem State.chan_modCmd (n : Nat) (f : Cmd → Cmd) (q : Nat) (s : State) : (State.modCmd n f s).chan q = s.chan q := rfl
@[simp] theorem State.chan_dropCmd (n : Nat) (q : Nat) (s : State) : (State.dropCmd n s).chan q = s.chan q := rfl
@[simp] theorem State.chan_setLink (l : Nat) (v : Link) (q : Nat) (s : State) : (State.setLink l v s).chan q = s.chan q := rfl
@[simp] theorem State.chan_setCell (c : Nat) (v : Cell) (q : Nat) (s : State) : (State.setCell c v s).chan q = s.chan q := rfl
@[simp] theorem State.chan_setPort (p : Nat) (v : Port) (q : Nat) (s : State) : (State.setPort p v s).chan q = s.chan q := rfl
@[simp] theorem State.chan_setPeer (d : Nat) (v : Peer) (q : Nat) (s : State) : (State.setPeer d v s).chan q = s.chan q := rfl
@[simp] theorem State.chan_setMram (off n v : Nat) (q : Nat) (s : State) : (State.setMram off n v s).chan q = s.chan q := rfl
@[simp] theorem State.chan_emit (o : Out) (q : Nat) (s : State) : (emit o s).chan q = s.chan q := rfl
@[simp] theorem State.link_setSquare (p : Nat) (v : Square) (q : Nat) (s : State) : (State.setSquare p v s).link q = s.link q := rfl
@[simp] theorem State.link_setCtx (p slot : Nat) (v : Ctx) (q : Nat) (s : State) : (State.setCtx p slot v s).link q = s.link q := rfl
@[simp] theorem State.link_setBurgee (b : Nat) (v : Burgee) (q : Nat) (s : State) : (State.setBurgee b v s).link q = s.link q := rfl
@[simp] theorem State.link_modBurgee (b : Nat) (f : Burgee → Burgee) (q : Nat) (s : State) : (State.modBurgee b f s).link q = s.link q := rfl
@[simp] theorem State.link_setCmd (n : Nat) (v : Cmd) (q : Nat) (s : State) : (State.setCmd n v s).link q = s.link q := rfl
@[simp] theorem State.link_modCmd (n : Nat) (f : Cmd → Cmd) (q : Nat) (s : State) : (State.modCmd n f s).link q = s.link q := rfl
@[simp] theorem State.link_dropCmd (n : Nat) (q : Nat) (s : State) : (State.dropCmd n s).link q = s.link q := rfl
@[simp] theorem State.link_setChan (c : Nat) (v : Chan) (q : Nat) (s : State) : (State.setChan c v s).link q = s.link q := rfl
@[simp] theorem State.link_setCell (c : Nat) (v : Cell) (q : Nat) (s : State) : (State.setCell c v s).link q = s.link q := rfl
@[simp] theorem State.link_setPort (p : Nat) (v : Port) (q : Nat) (s : State) : (State.setPort p v s).link q = s.link q := rfl
@[simp] theorem State.link_setPeer (d : Nat) (v : Peer) (q : Nat) (s : State) : (State.setPeer d v s).link q = s.link q := rfl
@[simp] theorem State.link_setMram (off n v : Nat) (q : Nat) (s : State) : (State.setMram off n v s).link q = s.link q := rfl
@[simp] theorem State.link_emit (o : Out) (q : Nat) (s : State) : (emit o s).link q = s.link q := rfl
@[simp] theorem State.cell_setSquare (p : Nat) (v : Square) (q : Nat) (s : State) : (State.setSquare p v s).cell q = s.cell q := rfl
@[simp] theorem State.cell_setCtx (p slot : Nat) (v : Ctx) (q : Nat) (s : State) : (State.setCtx p slot v s).cell q = s.cell q := rfl
@[simp] theorem State.cell_setBurgee (b : Nat) (v : Burgee) (q : Nat) (s : State) : (State.setBurgee b v s).cell q = s.cell q := rfl
@[simp] theorem State.cell_modBurgee (b : Nat) (f : Burgee → Burgee) (q : Nat) (s : State) : (State.modBurgee b f s).cell q = s.cell q := rfl
@[simp] theorem State.cell_setCmd (n : Nat) (v : Cmd) (q : Nat) (s : State) : (State.setCmd n v s).cell q = s.cell q := rfl
@[simp] theorem State.cell_modCmd (n : Nat) (f : Cmd → Cmd) (q : Nat) (s : State) : (State.modCmd n f s).cell q = s.cell q := rfl
@[simp] theorem State.cell_dropCmd (n : Nat) (q : Nat) (s : State) : (State.dropCmd n s).cell q = s.cell q := rfl
@[simp] theorem State.cell_setChan (c : Nat) (v : Chan) (q : Nat) (s : State) : (State.setChan c v s).cell q = s.cell q := rfl
@[simp] theorem State.cell_setLink (l : Nat) (v : Link) (q : Nat) (s : State) : (State.setLink l v s).cell q = s.cell q := rfl
@[simp] theorem State.cell_setPort (p : Nat) (v : Port) (q : Nat) (s : State) : (State.setPort p v s).cell q = s.cell q := rfl
@[simp] theorem State.cell_setPeer (d : Nat) (v : Peer) (q : Nat) (s : State) : (State.setPeer d v s).cell q = s.cell q := rfl
@[simp] theorem State.cell_setMram (off n v : Nat) (q : Nat) (s : State) : (State.setMram off n v s).cell q = s.cell q := rfl
@[simp] theorem State.cell_emit (o : Out) (q : Nat) (s : State) : (emit o s).cell q = s.cell q := rfl
@[simp] theorem State.port_setSquare (p : Nat) (v : Square) (q : Nat) (s : State) : (State.setSquare p v s).port q = s.port q := rfl
@[simp] theorem State.port_setCtx (p slot : Nat) (v : Ctx) (q : Nat) (s : State) : (State.setCtx p slot v s).port q = s.port q := rfl
@[simp] theorem State.port_setBurgee (b : Nat) (v : Burgee) (q : Nat) (s : State) : (State.setBurgee b v s).port q = s.port q := rfl
@[simp] theorem State.port_modBurgee (b : Nat) (f : Burgee → Burgee) (q : Nat) (s : State) : (State.modBurgee b f s).port q = s.port q := rfl
@[simp] theorem State.port_setCmd (n : Nat) (v : Cmd) (q : Nat) (s : State) : (State.setCmd n v s).port q = s.port q := rfl
@[simp] theorem State.port_modCmd (n : Nat) (f : Cmd → Cmd) (q : Nat) (s : State) : (State.modCmd n f s).port q = s.port q := rfl
@[simp] theorem State.port_dropCmd (n : Nat) (q : Nat) (s : State) : (State.dropCmd n s).port q = s.port q := rfl
@[simp] theorem State.port_setChan (c : Nat) (v : Chan) (q : Nat) (s : State) : (State.setChan c v s).port q = s.port q := rfl
@[simp] theorem State.port_setLink (l : Nat) (v : Link) (q : Nat) (s : State) : (State.setLink l v s).port q = s.port q := rfl
@[simp] theorem State.port_setCell (c : Nat) (v : Cell) (q : Nat) (s : State) : (State.setCell c v s).port q = s.port q := rfl
@[simp] theorem State.port_setPeer (d : Nat) (v : Peer) (q : Nat) (s : State) : (State.setPeer d v s).port q = s.port q := rfl
@[simp] theorem State.port_setMram (off n v : Nat) (q : Nat) (s : State) : (State.setMram off n v s).port q = s.port q := rfl
@[simp] theorem State.port_emit (o : Out) (q : Nat) (s : State) : (emit o s).port q = s.port q := rfl
@[simp] theorem State.peer_setSquare (p : Nat) (v : Square) (q : Nat) (s : State) : (State.setSquare p v s).peer q = s.peer q := rfl
@[simp] theorem State.peer_setCtx (p slot : Nat) (v : Ctx) (q : Nat) (s : State) : (State.setCtx p slot v s).peer q = s.peer q := rfl
@[simp] theorem State.peer_setBurgee (b : Nat) (v : Burgee) (q : Nat) (s : State) : (State.setBurgee b v s).peer q = s.peer q := rfl
@[simp] theorem State.peer_modBurgee (b : Nat) (f : Burgee → Burgee) (q : Nat) (s : State) : (State.modBurgee b f s).peer q = s.peer q := rfl
@[simp] theorem State.peer_setCmd (n : Nat) (v : Cmd) (q : Nat) (s : State) : (State.setCmd n v s).peer q = s.peer q := rfl
@[simp] theorem State.peer_modCmd (n : Nat) (f : Cmd → Cmd) (q : Nat) (s : State) : (State.modCmd n f s).peer q = s.peer q := rfl
@[simp] theorem State.peer_dropCmd (n : Nat) (q : Nat) (s : State) : (State.dropCmd n s).peer q = s.peer q := rfl
@[simp] theorem State.peer_setChan (c : Nat) (v : Chan) (q : Nat) (s : State) : (State.setChan c v s).peer q = s.peer q := rfl
@[simp] theorem State.peer_setLink (l : Nat) (v : Link) (q : Nat) (s : State) : (State.setLink l v s).peer q = s.peer q := rfl
@[simp] theorem State.peer_setCell (c : Nat) (v : Cell) (q : Nat) (s : State) : (State.setCell c v s).peer q = s.peer q := rfl
@[simp] theorem State.peer_setPort (p : Nat) (v : Port) (q : Nat) (s : State) : (State.setPort p v s).peer q = s.peer q := rfl
@[simp] theorem State.peer_setMram (off n v : Nat) (q : Nat) (s : State) : (State.setMram off n v s).peer q = s.peer q := rfl
@[simp] theorem State.peer_emit (o : Out) (q : Nat) (s : State) : (emit o s).peer q = s.peer q := rfl
@[simp] theorem State.mram_setSquare (p : Nat) (v : Square) (q k : Nat) (s : State) : (State.setSquare p v s).mram q k = s.mram q k := rfl
@[simp] theorem State.mram_setCtx (p slot : Nat) (v : Ctx) (q k : Nat) (s : State) : (State.setCtx p slot v s).mram q k = s.mram q k := rfl
@[simp] theorem State.mram_setBurgee (b : Nat) (v : Burgee) (q k : Nat) (s : State) : (State.setBurgee b v s).mram q k = s.mram q k := rfl
@[simp] theorem State.mram_modBurgee (b : Nat) (f : Burgee → Burgee) (q k : Nat) (s : State) : (State.modBurgee b f s).mram q k = s.mram q k := rfl
@[simp] theorem State.mram_setCmd (n : Nat) (v : Cmd) (q k : Nat) (s : State) : (State.setCmd n v s).mram q k = s.mram q k := rfl
@[simp] theorem State.mram_modCmd (n : Nat) (f : Cmd → Cmd) (q k : Nat) (s : State) : (State.modCmd n f s).mram q k = s.mram q k := rfl
@[simp] theorem State.mram_dropCmd (n : Nat) (q k : Nat) (s : State) : (State.dropCmd n s).mram q k = s.mram q k := rfl
@[simp] theorem State.mram_setChan (c : Nat) (v : Chan) (q k : Nat) (s : State) : (State.setChan c v s).mram q k = s.mram q k := rfl
@[simp] theorem State.mram_setLink (l : Nat) (v : Link) (q k : Nat) (s : State) : (State.setLink l v s).mram q k = s.mram q k := rfl
@[simp] theorem State.mram_setCell (c : Nat) (v : Cell) (q k : Nat) (s : State) : (State.setCell c v s).mram q k = s.mram q k := rfl
@[simp] theorem State.mram_setPort (p : Nat) (v : Port) (q k : Nat) (s : State) : (State.setPort p v s).mram q k = s.mram q k := rfl
@[simp] theorem State.mram_setPeer (d : Nat) (v : Peer) (q k : Nat) (s : State) : (State.setPeer d v s).mram q k = s.mram q k := rfl
@[simp] theorem State.mram_emit (o : Out) (q k : Nat) (s : State) : (emit o s).mram q k = s.mram q k := rfl

end Sys2Proof.Machine
end

