-- ==== Sys2Proof/Laws/Contexts.lean ====
section
/-! SUPPORT. Instructions of a context that runs: what `runInstr`, `scalar` and `queueInstr` come down to, and where branches go. -/

namespace Sys2Proof.Machine

variable {i : Instr} {s : State} {r : CtxRef} {p : Nat}

@[simp] theorem apply_done (s : State) : Effect.apply r p (.done s) = .next (advance p r.slot s) := rfl
@[simp] theorem apply_jump (t : Nat) (s : State) : Effect.apply r p (.jump t s) = .next (jumpTo r p t s) := rfl
@[simp] theorem apply_stall (w : Wait) (s : State) :
    Effect.apply r p (.stall w s) = .next (s.setCtx p r.slot { s.ctx p r.slot with wait := w }) := rfl
@[simp] theorem apply_fault (a b d : Nat) (s : State) : Effect.apply r p (.fault a b d s) = .next (contextFault p r.slot a b d s) := rfl
@[simp] theorem apply_ended (s : State) : Effect.apply r p (.ended s) = .next s := rfl

/-- An instruction that its context issues does what its body says, from the state once its line has been fetched. -/
theorem runInstr_of_runs (h : Runs i s r p) (body : Nat → Ctx → State → Effect) :
    runInstr i r body s =
      Effect.apply r p (body p ((fetchCode p r.slot s).ctx p r.slot) (fetchCode p r.slot s)) := by
  obtain ⟨⟨⟨h1, h2, h3, h4, h5, h6, h7⟩, h8, h9, h10⟩, w, h11, h12⟩ := h
  simp [runInstr, h1, h2, h3, h4, Nat.not_le.mpr h5, h8, h9, h10, inView, h7, issue, h6, fetched, h11, h12]

/-- A fetched granule that is poisoned faults the context (R140). -/
theorem runInstr_of_poison (h : MayIssue s r p) {w : Word} (hw : (fetchCode p r.slot s).codeWord p r.slot = some (w, true))
    (body : Nat → Ctx → State → Effect) :
    runInstr i r body s = .next (contextFault p r.slot fPoison noStream ((fetchCode p r.slot s).ctx p r.slot).codeAt (fetchCode p r.slot s)) := by
  obtain ⟨⟨h1, h2, h3, h4, h5, h6, h7⟩, h8, h9, h10⟩ := h
  simp [runInstr, h1, h2, h3, h4, Nat.not_le.mpr h5, h8, h9, h10, inView, h7, issue, h6, fetched, hw]

/-- A scalar instruction whose unused fields hold zero. -/
theorem scalar_legal {f : ScalarF} {sd sa sb im : Bool} (hr : f.rsv = 0) (hsd : sd = false → f.sd = 0) (hsa : sa = false → f.sa = 0)
    (hsb : sb = false → f.sb = 0) (him : im = false → f.imm = 0) (body : Nat → Ctx → State → Effect) :
    scalar i r f sd sa sb im body s = runInstr i r body s := by
  have : (f.rsv != 0 || (!sd && f.sd != 0) || (!sa && f.sa != 0) || (!sb && f.sb != 0) || (!im && f.imm != 0)) = false := by
    cases sd <;> cases sa <;> cases sb <;> cases im <;> simp_all
  simp only [scalar, this]
  rfl

/-- A queue instruction whose unused fields hold zero, whose COUNT is 1 to 64 and whose queue indexes no stream. -/
theorem queueInstr_legal {f : QueueF} {sd sa : Bool} (h : Runs i s r p) (hr : f.rsv = 0) (hsd : sd = false → f.sd = 0)
    (hsa : sa = false → f.sa = 0) (hn : f.count.toNat ≠ 0) (hm : f.count.toNat ≤ 64)
    (hq : ((fetchCode p r.slot s).ctx p r.slot).indexQueue f.q.toNat = false) (body : Nat → Ctx → Nat → Nat → State → Effect) :
    queueInstr i r f sd sa body s = runInstr i r (fun p c s => body p c f.q.toNat f.count.toNat s) s := by
  have hz : (f.rsv != 0 || (!sd && f.sd != 0) || (!sa && f.sa != 0) || f.count.toNat == 0 || decide (64 < f.count.toNat)) = false := by
    cases sd <;> cases sa <;> simp_all
  rw [runInstr_of_runs h, queueInstr, runInstr_of_runs h]
  dsimp only
  rw [hz, hq]
  rfl

theorem branchTarget_inside {c : Ctx} {f : ScalarF} (h : 0 ≤ (c.pc : Int) + f.imm.toInt ∧ (c.pc : Int) + f.imm.toInt < c.codeLen) :
    branchTarget c f = some ((c.pc : Int) + f.imm.toInt).toNat := by
  have : ¬ ((c.pc : Int) + f.imm.toInt < 0 ∨ (c.codeLen : Int) ≤ c.pc + f.imm.toInt) := by omega
  simp only [branchTarget, if_neg this]

theorem branchTarget_outside {c : Ctx} {f : ScalarF} (h : ¬ (0 ≤ (c.pc : Int) + f.imm.toInt ∧ (c.pc : Int) + f.imm.toInt < c.codeLen)) :
    branchTarget c f = none := by
  have : (c.pc : Int) + f.imm.toInt < 0 ∨ (c.codeLen : Int) ≤ c.pc + f.imm.toInt := by omega
  simp only [branchTarget, if_pos this]

end Sys2Proof.Machine
end

