-- ==== Sys2Proof/Laws/Memory.lean ====
section
/-! SUPPORT. Cells and granule memories: reading after writing, and that every operation keeps the canonical form. -/

namespace Sys2Proof.Machine

theorem cellsWf_iff {l : List Host.Cell} : cellsWf l = true ↔ Assoc.risingFrom 0 l = true ∧ ∀ e ∈ l, e.2 ≠ 0 := by
  simp [cellsWf, List.all_eq_true]

theorem cellsWf_putCell {l : List Host.Cell} {a : Nat} {b : Byte} (h : cellsWf l = true) : cellsWf (putCell l a b) = true := by
  rw [cellsWf_iff] at h ⊢
  unfold putCell
  split
  · exact ⟨Assoc.rising_erase h.1, fun e he => h.2 e (Assoc.mem_erase he)⟩
  · refine ⟨Assoc.rising_set h.1 (Nat.zero_le _), fun e he => ?_⟩
    rcases Assoc.mem_set he with rfl | he
    · assumption
    · exact h.2 e he

theorem cellsWf_putCells {l : List Host.Cell} {a : Nat} {bs : List Byte} (h : cellsWf l = true) : cellsWf (putCells l a bs) = true := by
  induction bs generalizing l a with
  | nil => exact h
  | cons b t ih => exact ih (cellsWf_putCell h)

theorem cellsWf_dropRange {l : List Host.Cell} {a b : Nat} (h : cellsWf l = true) : cellsWf (Assoc.dropRange l a b) = true := by
  rw [cellsWf_iff] at h ⊢
  exact ⟨Assoc.rising_dropRange h.1, fun e he => h.2 e (List.mem_of_mem_filter he)⟩

theorem cellAt_putCell_self {l : List Host.Cell} {a : Nat} {b : Byte} (h : cellsWf l = true) : cellAt (putCell l a b) a = b := by
  rw [cellsWf_iff] at h
  unfold putCell cellAt
  split
  · simp [Assoc.get, Assoc.find_erase_self h.1, *]
  · simp

theorem cellAt_putCell_ne {l : List Host.Cell} {a c : Nat} {b : Byte} (h : c ≠ a) : cellAt (putCell l a b) c = cellAt l c := by
  unfold putCell cellAt
  split
  · simp [Assoc.get, Assoc.find_erase_ne h]
  · exact Assoc.get_set_ne h

theorem cellAt_putCells_out {l : List Host.Cell} {a c : Nat} {bs : List Byte} (h : c < a ∨ a + bs.length ≤ c) :
    cellAt (putCells l a bs) c = cellAt l c := by
  induction bs generalizing l a with
  | nil => rfl
  | cons b t ih =>
    simp only [List.length_cons] at h
    rw [putCells, ih (by omega), cellAt_putCell_ne (by omega)]

theorem cellAt_putCells_in {l : List Host.Cell} {a i : Nat} {bs : List Byte} (hw : cellsWf l = true) (h : i < bs.length) :
    cellAt (putCells l a bs) (a + i) = bs[i] := by
  induction bs generalizing l a i with
  | nil => simp at h
  | cons b t ih =>
    cases i with
    | zero => rw [putCells, cellAt_putCells_out (by omega)]; simpa using cellAt_putCell_self hw
    | succ j =>
      have := ih (l := putCell l a b) (a := a + 1) (i := j) (cellsWf_putCell hw) (by simpa using h)
      simpa [putCells, Nat.add_assoc, Nat.add_comm 1 j] using this

theorem Mem.wf_iff {m : Mem} : m.wf = true ↔ cellsWf m.data = true ∧ cellsWf m.check = true := by simp [Mem.wf]

theorem Mem.wf_put {m : Mem} {a : Nat} {g : Granule} (h : m.wf = true) : (m.put a g).wf = true := by
  rw [Mem.wf_iff] at h ⊢
  exact ⟨cellsWf_putCells h.1, cellsWf_putCells h.2⟩

theorem Mem.wf_wipe {m : Mem} {lo hi : Nat} (h : m.wf = true) : (m.wipe lo hi).wf = true := by
  rw [Mem.wf_iff] at h ⊢
  exact ⟨cellsWf_dropRange h.1, cellsWf_dropRange h.2⟩

theorem Mem.wf_merge {m : Mem} {a : Nat} {bs : List Byte} {p : Bool} (h : m.wf = true) : (m.merge a bs p).wf = true := Mem.wf_put h

theorem Mem.wf_foldl {β : Type} {f : Mem → β → Mem} (hf : ∀ m b, m.wf = true → (f m b).wf = true) {l : List β} {m : Mem}
    (h : m.wf = true) : (l.foldl f m).wf = true := by
  induction l generalizing m with
  | nil => exact h
  | cons b t ih => exact ih (hf m b h)

theorem Mem.wf_write {m : Mem} {key : Nat → Nat} {a : Nat} {bs : List Byte} {p : Bool} (h : m.wf = true) :
    (m.write key a bs p).wf = true := Mem.wf_foldl (fun _ _ h => Mem.wf_merge h) h

end Sys2Proof.Machine
end

