-- ==== Sys2Proof/WellFormed.lean ====
section
/-! DEFINITION. Commands whose operands name what the device has and fit the fields that carry them. A command outside these ranges is no command of
the spec; its meaning faults or ignores it. -/

namespace Sys2Proof

/-- A context of the device: a logical square of the larger part and one of its 8 slots (R2, R54, R60). -/
def ctxOk (c : CtxRef) : Bool := decide (c.sq < 160) && decide (c.slot < 8)

/-- A device of the fabric (R191). -/
def deviceOk (d : Nat) : Bool := decide (d < 1024)

/-- A request's header fields (R167). -/
def reqOk (r : FabReq) : Bool := deviceOk r.src && decide (r.burgee < 256) && decide (r.seq < 2 ^ 24) && decide (r.fmt < 8)

/-- The burgee, the SEQ and the TAG of a message of a hub (R167, R170). -/
def turnOk (burgee seq tag : Nat) : Bool := decide (burgee < 256) && decide (seq < 2 ^ 24) && decide (tag < 16384)

/-- A flit has 16 slots and a control block of 32 bytes (R182). -/
def flitOk (f : Flit) : Bool := decide (f.slots.length = 16) && decide (f.ctl.length = 32)

/-- A response's header fields (R167). -/
def respOk (r : FabResp) : Bool := deviceOk r.src && decide (r.status < 16) && decide (r.aflags < 256)

/-- A message in transit (R167, R168). -/
def msgOk (m : Wire) : Bool :=
  deviceOk m.src && deviceOk m.dst && decide (m.vc < 4) && decide (m.held < 3) && decide (m.burgee < 256) && decide (m.seq < 2 ^ 24) && decide (m.payload.length ≤ 8) &&
    decide (m.dests.length ≤ 64) && decide (m.parts.length ≤ 16)

/-- A host access to a BAR that the function has (R305). -/
def accessOk (a : RegAccess) : Bool := (a.bar == 0 || a.bar == 2 || a.bar == 4) && [4, 8, 16, 32, 64].contains a.size

/-- A sub-command from another device (R77). -/
def subOk (c : SubCmd) : Bool := deviceOk c.src && (c.above.all fun a => decide (a.me < a.members.length)) && decide (c.board < 4096) && decide (c.burgee < 256) && decide (c.cls < 4)

/-- Errors lie in the 36 symbols of a codeword (R134). -/
def upsetOk (u : Upset) : Bool := u.all fun e => decide (e.1 < 36)

/-- A PRB has I and Q of 12 resource elements (R240). -/
def prbOk (p : Prb) : Bool := decide (p.vals.length = 24)

/-- A frame from one of the fronthaul's sub-ports (R234). -/
def frameOk (f : UplaneFrame) : Bool := decide (f.port < 8) && decide (f.sub < 4) && decide (f.symbol < 14)

/-- The operands of a command are in their ranges. -/
def wellFormed : Instr → Bool
  | .load _ => true
  | .clear _ => true
  | .clearWipeDone => true
  | .hoistCopyDone _ _ => true
  | .hoistVerified => true
  | .hoistHoldDrained => true
  | .hoistBoardSwitch board => decide (board < 4096)
  | .hoistHoldTimeout => true
  | .nop c _ => ctxOk c
  | .trap c _ => ctxOk c
  | .endK c _ _ => ctxOk c
  | .rdcsr c _ _ => ctxOk c
  | .lil c _ => ctxOk c
  | .lih c _ => ctxOk c
  | .loop c _ => ctxOk c
  | .add c _ => ctxOk c
  | .sub c _ => ctxOk c
  | .mul c _ => ctxOk c
  | .andR c _ => ctxOk c
  | .orR c _ => ctxOk c
  | .xorR c _ => ctxOk c
  | .shl c _ => ctxOk c
  | .shr c _ => ctxOk c
  | .sra c _ => ctxOk c
  | .minR c _ => ctxOk c
  | .maxR c _ => ctxOk c
  | .slt c _ => ctxOk c
  | .addi c _ => ctxOk c
  | .subi c _ => ctxOk c
  | .muli c _ => ctxOk c
  | .andi c _ => ctxOk c
  | .ori c _ => ctxOk c
  | .xori c _ => ctxOk c
  | .shli c _ => ctxOk c
  | .shri c _ => ctxOk c
  | .srai c _ => ctxOk c
  | .mini c _ => ctxOk c
  | .maxi c _ => ctxOk c
  | .slti c _ => ctxOk c
  | .ld8 c _ => ctxOk c
  | .ld16 c _ => ctxOk c
  | .ld32 c _ => ctxOk c
  | .ld64 c _ => ctxOk c
  | .st8 c _ => ctxOk c
  | .st16 c _ => ctxOk c
  | .st32 c _ => ctxOk c
  | .st64 c _ => ctxOk c
  | .dataCacheLineFill c _ upset => ctxOk c && upset.all upsetOk
  | .beq c _ => ctxOk c
  | .bne c _ => ctxOk c
  | .blt c _ => ctxOk c
  | .bge c _ => ctxOk c
  | .jump c _ => ctxOk c
  | .call c _ => ctxOk c
  | .ret c _ => ctxOk c
  | .qwait c _ => ctxOk c
  | .qdrop c _ => ctxOk c
  | .qstat c _ => ctxOk c
  | .qpush c _ => ctxOk c
  | .qpop c _ => ctxOk c
  | .queueStallResume c _ => ctxOk c
  | .vadd c _ => ctxOk c
  | .vsub c _ => ctxOk c
  | .vmul c _ => ctxOk c
  | .vfma c _ => ctxOk c
  | .vmax c _ => ctxOk c
  | .vmin c _ => ctxOk c
  | .vabs c _ => ctxOk c
  | .vneg c _ => ctxOk c
  | .vcvt c _ => ctxOk c
  | .vcmp c _ => ctxOk c
  | .vsel c _ => ctxOk c
  | .vexp c _ => ctxOk c
  | .vlog c _ => ctxOk c
  | .vrcp c _ => ctxOk c
  | .vrsq c _ => ctxOk c
  | .vtanh c _ => ctxOk c
  | .vsig c _ => ctxOk c
  | .vrsum c _ => ctxOk c
  | .vrmax c _ => ctxOk c
  | .vperm c _ => ctxOk c
  | .vld c _ => ctxOk c
  | .vst c _ => ctxOk c
  | .vshift c _ => ctxOk c
  | .vlogic c _ => ctxOk c
  | .waitsem c _ => ctxOk c
  | .waitsemSatisfied c => ctxOk c
  | .signalsem c _ => ctxOk c
  | .barrier c _ => ctxOk c
  | .barrierComplete c => ctxOk c.ctx
  | .fence c _ => ctxOk c
  | .checkgen c _ => ctxOk c
  | .generationQuery src burgee tag _ => deviceOk src && turnOk burgee tag.seq tag.tag
  | .checkgenResult c _ => ctxOk c
  | .reduce c _ => ctxOk c
  | .allreduce c _ => ctxOk c
  | .bcast c _ => ctxOk c
  | .reduceTreeStep c => ctxOk c.ctx
  | .mmt c _ => ctxOk c
  | .mmp c _ => ctxOk c
  | .mmpTileComplete c => ctxOk c
  | .loadw c _ => ctxOk c
  | .swap c _ => ctxOk c
  | .shapeSwitch sq shape => decide (sq < 160) && decide (shape < 5)
  | .kernelLaunch c _ => ctxOk c
  | .shareWipeDone c => ctxOk c
  | .accessRequestIssue psq => decide (psq < 180)
  | .streamReadReply psq _ upset _ => decide (psq < 180) && upset.all upsetOk
  | .streamWriteAck psq _ => decide (psq < 180)
  | .heldRequestAdmit bank => decide (bank < 672)
  | .channelFrameStart => true
  | .refreshSlot => true
  | .calibrationSlot _ => true
  | .towerPatrolScrub ch upset => decide (ch < 42) && upsetOk upset
  | .scratchpadScrub psq bank upset => decide (psq < 180) && decide (bank < 32) && upsetOk upset
  | .halyardSramScrub upset => upsetOk upset
  | .demandScrub ch granule upset => decide (ch < 42) && decide (ch % 7 < 6) && decide (granule < 0x18000000) && upsetOk upset
  | .channelRetrainDone ch _ _ => decide (ch < 42)
  | .memCorrSummary => true
  | .memDqDegraded ch _ => decide (ch < 42)
  | .memStatus _ len => decide (len < 65536)
  | .operationWindowWrite c stream _ _ => ctxOk c && decide (stream < 16)
  | .fabricRequestSend _ => true
  | .fabricLoad r => reqOk r
  | .fabricStore r => reqOk r
  | .mstore r dests => reqOk r && decide (dests.group < 65536) && dests.l.all fun d => deviceOk d.1 && decide (d.2 < 2 ^ 24)
  | .fabricSwap r => reqOk r
  | .cas r => reqOk r
  | .fadd r => reqOk r
  | .fmin r => reqOk r
  | .fmax r => reqOk r
  | .fand r => reqOk r
  | .forA r => reqOk r
  | .fxor r => reqOk r
  | .radd r => reqOk r
  | .rmin r => reqOk r
  | .rmax r => reqOk r
  | .rladd r => reqOk r
  | .subCommand m => turnOk m.sc.burgee m.turn.seq m.turn.tag && subOk m.sc
  | .subCommandEnd _ m _ => deviceOk m.device && turnOk m.burgee m.turn.seq m.turn.tag
  | .readData r => respOk r
  | .atomicData r => respOk r
  | .acknowledgment r => respOk r
  | .requestForward m => msgOk m
  | .combineWindowClose _ => true
  | .combinedRequest _ r _ => reqOk r
  | .combinedData _ r => respOk r
  | .requestRetransmit _ => true
  | .flitReceive link flit _ => decide (link < 126) && flitOk flit
  | .linkProbe link => decide (link < 72)
  | .probeTimeout link => decide (link < 72)
  | .lightDetected link => decide (link < 72)
  | .farEndReturn link => decide (link < 72)
  | .linkTrainingDone link => decide (link < 72)
  | .linkIdentity link _ device _ => decide (link < 72) && decide (device < 1024)
  | .automaticPowerReduction link => decide (link < 72)
  | .engineFailover engine _ _ => decide (engine < 9)
  | .spareSelectorSettled => true
  | .linkMarginMeasure link waves => decide (link < 72) && decide (waves.length = 4)
  | .linkMargin link wave => decide (link < 72) && decide (wave < 4)
  | .linkPreFec link wave => decide (link < 72) && decide (wave < 4)
  | .linkStatus _ len => decide (len < 65536)
  | .cellDoorbell _ page _ => decide (page < 256)
  | .slotBoundary _ _ => true
  | .configRequest _ _ => true
  | .startRequest _ => true
  | .stopRequest _ => true
  | .dlTtiRequest _ _ _ => true
  | .ulTtiRequest _ _ _ => true
  | .ulDciRequest _ _ _ => true
  | .txDataRequest _ _ _ => true
  | .otherDownlinkMessage _ _ => true
  | .ecpriUplaneReceive f => frameOk f
  | .ulWindowExpiry _ _ _ _ => true
  | .codeBlockDecoded die _ _ _ _ => decide (die < 4)
  | .uplinkEngineReport _ _ die _ => decide (die < 4)
  | .uplinkIndicationDeadline _ _ => true
  | .frameEnd _ _ _ _ => true
  | .radioStatus _ len => decide (len < 65536)
  | .downlinkCplaneSend _ _ _ _ _ => true
  | .downlinkUplaneSend _ _ _ _ prbs => prbs.all prbOk
  | .paControlSend _ _ _ _ => true
  | .oneWayDelayMeasurement port sub _ => decide (port < 8) && decide (sub < 4)
  | .ptpSync port sub _ _ _ => decide (port < 8) && decide (sub < 4)
  | .ptpAnnounce port sub _ _ _ => decide (port < 8) && decide (sub < 4)
  | .ptpDelayReq port sub _ => decide (port < 8) && decide (sub < 4)
  | .ptpDelayResp _ _ _ _ => true
  | .ptpMasterSend port sub _ => decide (port < 8) && decide (sub < 4)
  | .esmcReceive port sub _ => decide (port < 8) && decide (sub < 4)
  | .esmcSend => true
  | .fhLinkDown port sub => decide (port < 8) && decide (sub < 4)
  | .fhLinkUp port sub => decide (port < 8) && decide (sub < 4)
  | .fhConfig _ len => decide (len < 65536)
  | .fhStatus _ len => decide (len < 65536)
  | .domainAnnounceTimeout d => decide (d < 2)
  | .timeFirstLock => true
  | .timeHoldover => true
  | .relock _ => true
  | .select _ d => decide (d < 2)
  | .timeSet _ _ => true
  | .timeFrameOfsWrite _ _ => true
  | .timeOutCfgWrite _ n _ => decide (n < 4)
  | .timeOutAtWrite _ n _ => decide (n < 4)
  | .oneShotFire n => decide (n < 4)
  | .timeInEdge n _ => decide (n < 2)
  | .timeInCapRead _ n => decide (n < 2)
  | .timeNowLowRead _ => true
  | .timeSynceWrite _ _ => true
  | .synceLockLoss => true
  | .enable _ b => decide (b < 256)
  | .quiesce _ b => decide (b < 256)
  | .burgeeQuiet b => decide (b < 256)
  | .resume _ b => decide (b < 256)
  | .disable _ b => decide (b < 256)
  | .force _ b => decide (b < 256)
  | .forceDone b => decide (b < 256)
  | .wipe _ b => decide (b < 256)
  | .burgeeWipeDone b => decide (b < 256)
  | .release _ b => decide (b < 256)
  | .turnStart board => decide (board < 4096)
  | .sliceStart => true
  | .sliceEnd board => decide (board < 4096)
  | .priorityLaunch _ => true
  | .fallPoint _ => true
  | .commandPromotion _ => true
  | .latencyTargetMiss _ _ => true
  | .commandOverrun _ => true
  | .floorInterval _ => true
  | .cmdRateMillisecond => true
  | .bgeRingCfgWrite _ page _ => decide (page < 256)
  | .commandDoorbell _ page _ => decide (page < 256)
  | .commandRead b => decide (b < 256)
  | .kernel _ => true
  | .copyIn _ => true
  | .copyOut _ => true
  | .sync _ => true
  | .commandWaitSatisfied _ => true
  | .commandAdmit _ => true
  | .commandCompletion _ _ => true
  | .copyHostCompletion _ _ _ => true
  | .msixUnmask _ entry => decide (entry < 2048)
  | .bgeCplReadWrite _ page _ => decide (page < 256)
  | .hostMemRead _ _ => true
  | .hostMemWrite _ _ _ => true
  | .registerWrite a _ => accessOk a
  | .rcRegisterRead a => accessOk a
  | .hlyWdogFeed _ => true
  | .hlyWdogCtrlWrite _ _ => true
  | .wdogHost => true
  | .wdogCore _ => true
  | .hlySramUncorr _ upset => upsetOk upset
  | .hlySramCorr => true
  | .elogReadWrite _ _ => true
  | .suppressed _ => true
  | .anchor => true
  | .flushComplete => true
  | .pwrFailNFall => true
  | .pwrFailNRise _ => true
  | .fwStage _ len => decide (len < 65536)
  | .fwWrite _ len => decide (len < 65536)
  | .fwWriteComplete _ => true
  | .fwStatus _ len => decide (len < 65536)
  | .recoveryBegin _ len => decide (len < 65536)
  | .recoveryChunk _ len => decide (len < 65536)
  | .recoveryFinish _ len => decide (len < 65536)
  | .logInfo _ len => decide (len < 65536)
  | .logRead _ len => decide (len < 65536)
  | .logClear _ len => decide (len < 65536)
  | .sensors _ len => decide (len < 65536)
  | .unknownRequest _ _ len => decide (len < 65536)
  | .secNonce _ len => decide (len < 65536)
  | .enroll _ len => decide (len < 65536)
  | .revoke _ len => decide (len < 65536)
  | .deploy _ len => decide (len < 65536)
  | .lifecycleRelease _ len => decide (len < 65536)
  | .lcReturn _ len => decide (len < 65536)
  | .scrap _ len => decide (len < 65536)
  | .epochCommit _ len => decide (len < 65536)
  | .secOwnerKeys _ len => decide (len < 65536)
  | .getVersion _ => true
  | .getCapabilities _ => true
  | .negotiateAlgorithms _ => true
  | .getDigests _ => true
  | .getCertificate _ _ _ => true
  | .challenge _ => true
  | .getMeasurements _ _ => true
  | .energyWindowStart measured => decide (measured.length = 9)
  | .energyReconcile _ _ _ => true
  | .pwrCapWrite _ _ => true
  | .pwrAllowanceWrite _ _ => true
  | .peakPace => true
  | .sensorScan temps towers volts => decide (temps.length = 96) && decide (towers.length = 6) && decide (volts.length = 48)
  | .canaryScan minima => decide (minima.length = 39)
  | .railFault rail _ => decide (rail < 9)
  | .avsUpdate _ => true
  | .thermtrip sensor => decide (sensor < 96)
  | .heartbeatPeriod => true
  | .heartbeat src bootCount health _ _ => decide (src < 1024) && decide (bootCount < 2 ^ 32) && decide (health < 1001)
  | .suspect src target _ => decide (src < 1024) && decide (target < 1024)
  | .expel target cause decider => decide (target < 1024) && decide (cause < 5) && decide (decider < 1024)
  | .depart src _ => decide (src < 1024)
  | .join link src bootCount _ _ => decide (link < 72) && decide (src < 1024) && decide (bootCount < 2 ^ 32)
  | .musterAdmit device => decide (device < 1024)
  | .seqReset device => decide (device < 1024)
  | .leave src health => decide (src < 1024) && decide (health < 1001)
  | .grant src granted => decide (src < 1024) && decide (granted < 1024)
  | .ledger device _ => decide (device < 1024)
  | .ledgerAgeOut => true
  | .isolationTimeout => true
  | .fenceLift link => decide (link < 72)
  | .leaveTimeout => true
  | .benchRecovery => true
  | .healthScore _ => true
  | .healthBand => true
  | .telltaleStart psq patterns => decide (psq < 180) && patterns.length == 20 && patterns.all (decide <| · < 4)
  | .telltaleDone _ _ => true
  | .cutBegin _ len => decide (len < 65536)
  | .cutReady src _ => decide (src < 1024)
  | .cutHeld _ => true
  | .cutFail _ => true
  | .cutTimeout _ => true
  | .cutRelease _ len => decide (len < 65536)
  | .cutStatus _ len => decide (len < 65536)
  | .musterStatus _ len => decide (len < 65536)
  | .healthStatus _ len => decide (len < 65536)
  | .musterLeave _ len => decide (len < 65536)
  | .musterRejoin _ len => decide (len < 65536)
  | .powerOn _ => true
  | .resetNFall _ => true
  | .resetNRise _ => true
  | .bootStepComplete _ => true
  | .refclkWaitTimeout _ => true
  | .clockLoss _ => true
  | .ucieModuleDown module => decide (module < 4)
  | .mailboxRequestDone => true
  | .linkTrainingFailed link => decide (link < 72)
  | .timeOutPeriodicEdge n => decide (n < 4)
  | .synceLockRegained => true
  | .synceSourceHoldEnd => true
  | .hoistRegionWipeDone => true
  | .hostSnoop _ => true
  | .subCommandCancel m _ => deviceOk m.device && turnOk m.burgee m.turn.seq m.turn.tag

end Sys2Proof
end

