-- ==== Sys2Proof/Tests/Slice0.lean ====
section
/-! SUPPORT. Tests on small states: terms that WellFormed refuses, words written out from the layouts, single commands, and for every
statement states that meet its hypotheses. -/

namespace Sys2Proof.Tests

open Sys2Proof Sys2Proof.Machine

-- ───────────────────────── small states

/-- A board of one square, of partition 1. -/
def board1 : Board where
  id := 1
  part := 1
  split := 1
  shapePin := 0
  tempo := false
  balanceOk := false
  reduceRemote := false
  reduceRoot := 0
  members := [{ kind := 0, device := 5, id := 0, level := 0 }]

def burgee1 : BurgeeRec where
  part := 1
  burgee := 1
  maxClass := 1
  weight := 1
  pasid := 7
  cmdRate := 0
  byteRate := 0
  maxDurUs := 1000
  vectors := 0
  vectorBase := 0
  needGib := 0

def region1 : Region where
  part := 1
  id := 1
  mode := 0
  mask := 1
  harq := false
  watchOk := true
  exposed := true
  first := 0
  units := 2
  burgee := 1

/-- A configuration with one board, one share, one region and one burgee of partition 1. -/
def cfg1 : HoistCfg where
  device := { id := 5 }
  boards := [board1]
  shares := [{ part := 1, sq := 0, slot := 0, first := 0, blocks := 1, burgee := 1, reserve := false }]
  regions := [region1]
  partitions := [{ id := 0, cls := 0, latencyUs := 0, maxBurgees := 4 }, { id := 1, cls := 1, latencyUs := 100, maxBurgees := 4 }]
  burgees := [burgee1]

/-- A member of board command 1 on square 0. -/
def member1 : MemberRun := { psq := 0, sq := 0, slot := 0, index := 0, base := 0, len := 1, root := true, started := true }

def cmd1 : Cmd := { id := 1, burgee := 1, opcode := 1, board := 1, stage := .launched, members := [member1], boundUs := 1000 }

/-- A running context. -/
def ctx1 : Ctx := { cmd := 1, active := true, burgee := 1, codeLen := 64, shareLen := 65536 }

/-- A device in ACTIVE whose context 0 on square 0 is `c`. -/
def demo (c : Ctx) : State :=
  { State.reset with
    ctxs := [(0, c)], cfg := cfg1, squares := [(0, { gated := false })], pwr := { State.reset.pwr with state := .active, step := 8 }
    burgees := [(0, { state := .active }), (1, { state := .active, en := true })], sched := { cmds := [(1, cmd1)], nextCmd := 2 }
    up := 1000000000000 }

def r0 : CtxRef := { sq := 0, slot := 0 }

def f0 : ScalarF := { sd := 1, sa := 0, sb := 0, rsv := 0, imm := 0 }

/-- A line of code at 0 that holds one word eight times. -/
def lineOf (w : Word) : CodeLine := { slot := 0, addr := 0, bytes := (List.replicate 8 (leBytes 8 w.toNat)).flatten, poison := [false, false] }

/-- The state with the word of `i` in square 0's instruction cache at every place of the code's first line. -/
def coding (i : Instr) (s : State) : State :=
  s.setSquare 0 { s.square 0 with icache := [lineOf ((encodeWord i).getD 0)] }

/-- A decidable form of Runs. -/
abbrev RunsNow (i : Instr) (s : State) (r : CtxRef) (p : Nat) : Prop :=
  MayIssue s r p ∧ ((fetchCode p r.slot s).codeWord p r.slot).isSome = true ∧
    (fetchCode p r.slot s).codeWord p r.slot = (encodeWord i).map fun w => (w, false)

theorem RunsNow.runs {i : Instr} {s : State} {r : CtxRef} {p : Nat} (h : RunsNow i s r p) : Runs i s r p := by
  obtain ⟨h1, h2, h3⟩ := h
  cases hw : encodeWord i with
  | none => rw [h3, hw] at h2; cases h2
  | some w => exact ⟨h1, w, by rw [h3, hw]; rfl, hw⟩

/-- The context of `demo c` issues `i`. -/
abbrev Issues (i : Instr) (c : Ctx) : Prop := RunsNow i (coding i (demo c)) r0 0

/-- The two members of a board on squares 0 and 1. -/
def cfg2 : HoistCfg :=
  { cfg1 with
    boards := [{ board1 with members := [{ kind := 0, device := 5, id := 0, level := 0 }, { kind := 0, device := 5, id := 1, level := 0 }] }]
    shares := cfg1.shares ++ [{ part := 1, sq := 1, slot := 0, first := 0, blocks := 1, burgee := 1, reserve := false }] }

/-- Two members of one command: `c` on square 0, `d` on square 1. -/
def demo2 (c d : Ctx) : State :=
  { demo c with
    cfg := cfg2, ctxs := [(0, c), (8, { d with sqLogical := 1 })], squares := [(0, { gated := false }), (1, { gated := false })]
    sched := { cmds := [(1, { cmd1 with members := [member1, { member1 with psq := 1, sq := 1, index := 1, root := false }] })] } }

-- ───────────────────────── contexts

theorem witness_ScalarResults :
    Runs (.add r0 f0) (coding (.add r0 f0) (demo ctx1)) r0 0 ∧ f0.rsv = 0 ∧ f0.imm = 0 ∧ f0.sa = 0 ∧ f0.sb = 0 ∧
    (fetchCode 0 0 (coding (.add r0 f0) (demo ctx1))).cmd ctx1.cmd = some cmd1 ∧
    Issues (.addi r0 f0) ctx1 ∧ Issues (.nop r0 { f0 with sd := 0 }) ctx1 ∧ Issues (.rdcsr r0 { f0 with imm := 4 } 0) ctx1 :=
  ⟨RunsNow.runs (by decide +kernel), by decide +kernel⟩

/-- One context per clause: a branch taken to the last instruction, one out of the code, a full and an empty call stack. -/
theorem witness_BranchesCallsAndLoops :
    (let f : ScalarF := { f0 with sd := 0, imm := 56 }
     Issues (.beq r0 f) ctx1 ∧ Issues (.call r0 f) ctx1 ∧ f.rsv = 0 ∧ f.sd = 0 ∧ f.imm.toNat % 8 = 0 ∧ (0 : Int) ≤ ctx1.pc + f.imm.toInt ∧
       ctx1.pc + f.imm.toInt < ctx1.codeLen ∧ ctx1.reg f.sa = ctx1.reg f.sb ∧ ctx1.calls.length < 16) ∧
    (let f : ScalarF := { f0 with sd := 0, imm := 64 }
     Issues (.jump r0 f) ctx1 ∧ f.imm.toNat % 8 = 0 ∧ ¬ (ctx1.pc + f.imm.toInt < ctx1.codeLen)) ∧
    (let c : Ctx := { ctx1 with calls := List.replicate 16 8 }
     Issues (.call r0 { f0 with sd := 0, imm := 56 }) c ∧ 16 ≤ c.calls.length) ∧
    (let c : Ctx := { ctx1 with calls := [56] }
     Issues (.ret r0 { f0 with sd := 0 }) c ∧ c.calls = 56 :: [] ∧ 56 < c.codeLen) ∧
    (let f : ScalarF := { f0 with sd := 0, imm := 2 }
     let c : Ctx := { ctx1 with loops := List.replicate 4 { start := 0, stop := 16, left := 1 } }
     Issues (.loop r0 f) c ∧ f.imm ≠ 0 ∧ 4 ≤ c.loops.length ∧ Issues (.loop r0 f) (ctx1.setReg 0 0)) :=
  ⟨by decide +kernel, by decide +kernel, by decide +kernel, by decide +kernel, by decide +kernel⟩

def line1 : CacheLine := { slot := 0, addr := 64, bytes := List.replicate 64 0, dirty := false, poison := [false, false] }

/-- An access to the last word of a cached line, and a load that waits for its line. -/
theorem witness_ScalarMemory :
    (let f : ScalarF := { f0 with imm := 120 }
     let g : ScalarF := { f with sd := 0 }
     let b := (demo ctx1).setSquare 0 { (demo ctx1).square 0 with cache := [line1] }
     let s := openToTime 0 0 (fetchCode 0 0 (coding (.ld64 r0 f) b))
     RunsNow (.ld64 r0 f) (coding (.ld64 r0 f) b) r0 0 ∧ RunsNow (.st64 r0 g) (coding (.st64 r0 g) b) r0 0 ∧ f.rsv = 0 ∧ f.sb = 0 ∧ g.sd = 0 ∧
       (ctx1.reg f.sa + f.imm.signExtend 64).toNat = 120 ∧ (s.square 0).line 0 120 = some line1 ∧
       (∀ n ∈ [1, 2, 4, 8], s.cfg.owns ctx1.burgee 120 n = true ∧ 120 % n = 0) ∧ line1.poison.getD (120 % 64 / 32) false = false) ∧
    (let f : ScalarF := { f0 with imm := 120 }
     let c := { ctx1 with wait := .line (.ld64 r0 f) 64 }
     let s := coding (.ld64 r0 f) (demo c)
     s.physOf 0 = some 0 ∧ s.ctx 0 0 = c ∧ s.fillPasses 0 0 64 0 = true ∧ s.cfg.owns c.burgee 120 8 = true ∧ (s.square 0).cache.length < 512 ∧
       (s.square 0).line 0 120 = none ∧
       (let m := (disturbSpan 64 64 [] s).tower
        (m.read s.cfg.key 64 32).2 = false ∧ (m.read s.cfg.key 96 32).2 = false) ∧
       RunsNow (.ld64 r0 f) (fillLine 0 0 64 0 [] (s.setCtx 0 0 { c with wait := .none })) r0 0) :=
  ⟨by decide +kernel, by decide +kernel⟩

/-- The granule at 0 of the first line, poisoned. -/
def poisonedCode (i : Instr) (s : State) : State :=
  s.setSquare 0 { s.square 0 with icache := [{ lineOf ((encodeWord i).getD 0) with poison := [true, false] }] }

/-- TRAP and END of a ready member, END while another member waits at a barrier or while a write of it runs, a poisoned word, and one of class 6. -/
theorem witness_TrapAndEnd :
    (let f : ScalarF := { f0 with sd := 0 }
     let b := coding (.endK r0 f 0) (demo ctx1)
     Issues (.trap r0 f) ctx1 ∧ RunsNow (.endK r0 f 0) b r0 0 ∧ f.rsv = 0 ∧ f.sd = 0 ∧ f.sa = 0 ∧ f.sb = 0 ∧ f.imm = 0 ∧
       b.barrierWaits ctx1 = false ∧ b.endReady 0 0 = true ∧ b.linesPass 0 0 = true) ∧
    (let f : ScalarF := { f0 with sd := 0 }
     let s := coding (.endK r0 f 0) (demo2 ctx1 { ctx1 with wait := .barrier 1 3 })
     RunsNow (.endK r0 f 0) s r0 0 ∧ s.barrierWaits (s.ctx 0 0) = true) ∧
    (let s := poisonedCode (.nop r0 f0) (demo ctx1)
     MayIssue s r0 0 ∧ (((fetchCode 0 0 s).codeWord 0 0).map (·.2)) = some true) ∧
    (let w : Word := BitVec.ofNat 64 (6 * 2 ^ 60)
     let s := (demo ctx1).setSquare 0 { (demo ctx1).square 0 with icache := [lineOf w] }
     MayIssue s r0 0 ∧ (fetchCode 0 0 s).codeWord 0 0 = some (w, false) ∧ decodeWord r0 w = none) :=
  ⟨by decide +kernel, by decide +kernel, by decide +kernel, by decide +kernel⟩

def entry1 : QEntry := { g := Code.form 0 false, last := false, stream := 0 }

/-- A stream without elements that is bound to queue `q`. -/
def stream1 : Stream where
  base := 0
  endpoint := 0
  dir := 0
  queue := 0
  indexed := false
  indexQ := 0
  watch := false
  circ := false
  start := 0
  chain := 0
  elem := 32
  stepSel := 0
  counts := [1]
  strides := [32]
  circLen := 0
  shareAddr := 0
  maxTags := 4

def q1 : QueueF := { q := 0, sd := 0, sa := 0, count := 1, rsv := 0 }

/-- A full outbound queue's last free place, one entry to take, none on an open and on an ended queue, and a stalled QWAIT. -/
theorem witness_QueueInstructions :
    (q1.rsv = 0 ∧ q1.count.toNat ≠ 0 ∧ q1.count.toNat ≤ 64) ∧
    (let c : Ctx := { ctx1 with qdir := 1, queues := [(0, List.replicate 63 entry1)] }
     let full : Ctx := { c with queues := [(0, List.replicate 64 entry1)] }
     Issues (.qwait r0 q1) c ∧ Issues (.qpush r0 q1) c ∧ Issues (.qwait r0 q1) full ∧ c.indexQueue 0 = false ∧ c.outbound 0 = true ∧
       1 ≤ 64 - (c.queue 0).length ∧ 64 - (full.queue 0).length < 1 ∧
       shareCheck c (c.reg 0).toNat 32 = none ∧ (readPad 0 c.shareBase 0 32 (demo c)).2 = false) ∧
    (let c : Ctx := { ctx1 with queues := [(0, [entry1])] }
     Issues (.qpop r0 q1) c ∧ Issues (.qstat r0 q1) c ∧ Issues (.qdrop r0 q1) c ∧ c.indexQueue 0 = false ∧ c.outbound 0 = false ∧
       1 ≤ (c.queue 0).length ∧ (match (c.touch 0).pop 0 1 with
         | .ok _ _ => true
         | _ => false) = true) ∧
    (let c : Ctx := { ctx1 with streams := [{ stream1 with closed := true }] }
     Issues (.qwait r0 q1) c ∧ c.indexQueue 0 = false ∧ c.outbound 0 = false ∧ (c.queue 0).length < 1 ∧ (c.touch 0).ended 0 = true) ∧
    (let c : Ctx := { ctx1 with streams := [stream1] }
     Issues (.qwait r0 q1) c ∧ c.indexQueue 0 = false ∧ (c.queue 0).length < 1 ∧ (c.touch 0).ended 0 = false) ∧
    (let c : Ctx := { ctx1 with queues := [(0, [entry1])], wait := .queue (.qwait r0 q1) }
     let s := coding (.qwait r0 q1) (demo c)
     let counted := countStall 0 0 (.qwait r0 q1) 5 (s.setCtx 0 0 { c with wait := .none })
     let c' := (fetchCode 0 0 counted).ctx 0 0
     s.physOf 0 = some 0 ∧ (s.ctx 0 0).wait = .queue (.qwait r0 q1) ∧ RunsNow (.qwait r0 q1) counted r0 0 ∧ c'.indexQueue 0 = false ∧ c'.outbound 0 = false ∧
       1 ≤ (c'.queue 0).length) :=
  ⟨by decide +kernel, by decide +kernel, by decide +kernel, by decide +kernel, by decide +kernel, by decide +kernel⟩

def v0 : VecF := { fmt := 3, vd := 1, va := 2, vb := 3, vc := 0, sreg := 1, rnd := 0, sat := false, pred := 0, imm := 0 }

/-- Register sources and destination; INT32 for the forms that take it, FP32 for the functions; a span at the end of the share. -/
theorem witness_VectorInstructionsComplete :
    Issues (.vadd r0 v0) ctx1 ∧ Issues (.vrmax r0 v0) ctx1 ∧ VectorLegal ctx1 v0 [0, 1, 2, 3, 4] 0 [v0.va, v0.vb] true ∧
    VectorLegal ctx1 v0 [3, 4] 3 [v0.va, v0.vb] true ∧
    (∃ l c', gather ctx1 v0.sreg 3 [v0.va, v0.vb] = .ok l c') ∧ (∃ l c', gather ctx1 v0.sreg 3 [v0.va] = .ok l c') ∧
    ctx1.destReady v0.vd = true ∧
    VectorLegal ctx1 { v0 with fmt := 0 } [0, 1, 2] 0 [v0.va] true ∧ (∃ l c', gather ctx1 v0.sreg 0 [v0.va] = .ok l c') ∧
    VectorLegal ctx1 v0 [0, 1, 2, 3, 4] 0x77 [v0.va, v0.vb] false ∧ v0.imm.toNat % 8 ≠ 7 ∧
    (let c := ctx1.setReg 1 (65536 - 512)
     Issues (.vld r0 v0) c ∧ Issues (.vst r0 v0) c ∧ (c.reg v0.sreg).toNat + v0.imm.toNat * 32 + 512 ≤ c.shareLen ∧ (c.reg v0.sreg).toNat % 32 = 0 ∧
       c.queuesLegal [] (some v0.vd) = true ∧ (readPad 0 c.shareBase (65536 - 512) 512 (demo c)).2 = false ∧
       c.queuesLegal [v0.va] none = true ∧ (∃ v c', c.source v0.va v0.sreg 3 = .ok v c') ∧
       ∀ j, j < laneCount 3 → (c.pred 0).getLsbD j = true) := by
  refine ⟨by decide +kernel, by decide +kernel, by decide +kernel, by decide +kernel, ⟨_, _, rfl⟩, ⟨_, _, rfl⟩, by decide +kernel, by decide +kernel, ⟨_, _, rfl⟩,
    by decide +kernel, by decide +kernel, by decide +kernel, by decide +kernel, by decide +kernel, by decide +kernel, by decide +kernel, by decide +kernel,
    by decide +kernel, ⟨_, _, rfl⟩, by decide +kernel⟩

theorem witness_IntegerLaneResults : Issues (.vlogic r0 v0) ctx1 ∧ Issues (.vsel r0 v0) ctx1 ∧ (v0.fmt = 3 ∨ v0.fmt = 4) ∧ v0.rnd = 0 ∧
    v0.vd.toNat < 32 ∧ v0.va.toNat < 32 ∧ v0.vb.toNat < 32 ∧ badSource v0.vc = false ∧ v0.sat = false ∧ v0.imm = 0 := by decide +kernel

def y0 : SyncF := { mode := 0, sa := 1, sb := 2, level := 0, rsvHi := 0, id := 0, rsvLo := 0 }

/-- A semaphore in the last word of the burgee's region, and one that holds what each mode asks for. -/
theorem witness_SynchronisationInstructionsSignalsAndFences :
    (let c := ctx1.setReg 1 (2 ^ 31 - 8)
     let s := openToTime 0 0 (fetchCode 0 0 (coding (.signalsem r0 y0) (demo c)))
     Issues (.waitsem r0 y0) c ∧ Issues (.signalsem r0 y0) c ∧ y0.rsvHi = 0 ∧ y0.rsvLo = 0 ∧ y0.level = 0 ∧ y0.id = 0 ∧ y0.mode.toNat ≤ 2 ∧
       (c.reg y0.sa).toNat < 2 ^ 44 ∧ s.cfg.owns c.burgee (c.reg y0.sa).toNat 8 = true ∧ (c.reg y0.sa).toNat % 8 = 0 ∧ s.writesDone 0 0 = true ∧
       s.linesPass 0 0 = true ∧ s.signalPasses 0 0 (2 ^ 31 - 8) (y0.mode == 1) = true ∧ s.tilesOut 0 0 = false ∧
       s.writesOut 0 0 false = false ∧ Issues (.fence r0 { y0 with sa := 0, sb := 0 }) c ∧ ∀ o ∈ s.hub.outs, ¬ (o.kind = 5 ∧ o.psq = 0 ∧ o.slot = 0)) ∧
    (∀ m ∈ [0, 1, 2], let v : Word := if m = 2 then 1 else 0
     let c := { ctx1 with wait := .sem 8 v m false }
     let s := demo c
     s.physOf 0 = some 0 ∧ (s.ctx 0 0).wait = .sem 8 v m false ∧ s.passesFor 0 1 8 8 false = true ∧ (s.tower.read s.cfg.key 8 8).2 = false ∧
       (let x := BitVec.ofNat 64 (leNat (s.tower.read s.cfg.key 8 8).1)
        if m = 0 then v ≤ x else if m = 1 then x = v else x ≠ v)) :=
  ⟨by decide +kernel, by decide +kernel⟩

theorem witness_SynchronisationBarriers :
    (let f : SyncF := { y0 with sa := 0, sb := 0, level := 1, id := 3 }
     let s := coding (.barrier r0 f) (demo2 ctx1 { ctx1 with wait := .barrier 1 3 })
     let others := (s.levelMembers (s.ctx 0 0) 1).filter fun m => !(m.psq == 0 && m.slot == 0)
     RunsNow (.barrier r0 f) s r0 0 ∧ f.rsvHi = 0 ∧ f.rsvLo = 0 ∧ f.mode = 0 ∧ f.sa = 0 ∧ f.sb = 0 ∧ s.badLevel ctx1 1 = false ∧ others.length = 1 ∧
       ∀ m ∈ others, ¬ (m.started = true ∧ m.ended = true) ∧ s.barrierAt m 1 = some f.id.toNat) ∧
    (let s := demo2 ctx1 { ctx1 with wait := .barrier 1 4 }
     let others := (s.levelMembers (s.ctx 0 0) 1).filter fun m => !(m.psq == 0 && m.slot == 0)
     s.badLevel ctx1 1 = false ∧ ∃ m ∈ others, s.barrierAt m 1 ≠ some 3 ∧ (s.barrierAt m 1).isSome = true) ∧
    (let s := demo2 { ctx1 with wait := .barrier 1 3 } { ctx1 with wait := .barrier 1 3 }
     s.physOf 0 = some 0 ∧ (s.cmd 1).isSome = true ∧ ((s.cmd 1).bind fun d => (s.levelAt d 0 1).map s.remoteCount) = some 0 ∧
       (s.levelMembers (s.ctx 0 0) 1).length = 2 ∧ ∀ m ∈ s.levelMembers (s.ctx 0 0) 1, s.barrierAt m 1 = some 3) :=
  ⟨by decide +kernel, by decide +kernel, by decide +kernel⟩

-- Words written out bit by bit from the layouts, one or two of each class.

/-- R62, R461: ADDI s1 = s2 - 1, class 0, opcode 0x18. -/
theorem test_word_addi :
    decodeWord r0 0b0000_011000_00001_00010_00000_0000000_11111111111111111111111111111111#64 =
      some (.addi r0 { sd := 1, sa := 2, sb := 0, rsv := 0, imm := 0xFFFFFFFF }) := by decide

/-- R461: LD64, opcode 0x2B. -/
theorem test_word_ld64 :
    decodeWord r0 0b0000_101011_00011_00100_00000_0000000_00000000000000000000000000001000#64 =
      some (.ld64 r0 { sd := 3, sa := 4, sb := 0, rsv := 0, imm := 8 }) := by decide

/-- R90: MMT with SDIM s5, SA s1, SB s2, SC s3, SD s4, SAB s6, RND 1, SAT, SEG 2 and WBASE 0x80. -/
theorem test_word_mmt :
    decodeWord r0 0b0001_000000_00101_00001_00010_00011_00100_00110_01_1_10_000_10000000_00000000#64 =
      some (.mmt r0 { sdim := 5, sa := 1, sb := 2, sc := 3, sd := 4, sab := 6, rnd := 1, sat := true, seg := 2, rsvHi := 0, wbase := 0x80, rsvLo := 0 }) := by
  decide

/-- R91: MMP with SROW s5, SA s1, SC s3, SD s4, SAB s6, SHAPE 3, SEG 1, RND 2, no SAT, ZERO, FLUSH and WBASE 1. -/
theorem test_word_mmp :
    decodeWord r0 0b0001_000001_00101_00001_00011_00100_00110_011_01_10_0_1_1_000_00000001_00000000#64 =
      some (.mmp r0 { srow := 5, sa := 1, sc := 3, sd := 4, sab := 6, shape := 3, seg := 1, rnd := 2, sat := false, zero := true, flush := true, rsvHi := 0, wbase := 1, rsvLo := 0 }) := by
  decide

/-- R92: LOADW with SB s2, SKN s7, SHAPE 1, SEG 0; SWAP of SEG 3. -/
theorem test_word_loadw :
    decodeWord r0 (0b0001_000010_00010_00111_001_00#25 ++ 0#39) = some (.loadw r0 { sb := 2, skn := 7, shape := 1, seg := 0, rsv := 0 }) ∧
    decodeWord r0 (0b0001_000011_11#12 ++ 0#52) = some (.swap r0 { seg := 3, rsv := 0 }) := by decide

/-- R65: VFMA in BF16 (FMT 2), VD 33, VA 1, VB 2, VC 3, SREG s4, RND 1, SAT, PRED 5. -/
theorem test_word_vfma :
    decodeWord r0 0b0010_000011_010_100001_000001_000010_000011_00100_01_1_101_0000000000000000#64 =
      some (.vfma r0 { fmt := 2, vd := 33, va := 1, vb := 2, vc := 3, sreg := 4, rnd := 1, sat := true, pred := 5, imm := 0 }) := by decide

/-- R68: ALLREDUCE with OP 5, LEVEL 2, SA s1, SB s2, SL s3, TAG 0xABCD. -/
theorem test_word_allreduce :
    decodeWord r0 0b0011_000001_101_010_00001_00010_00011_00000000000000000_1010101111001101#64 =
      some (.allreduce r0 { op := 5, level := 2, sa := 1, sb := 2, sl := 3, rsv := 0, tag := 0xABCD }) := by decide

/-- R63: QPUSH with Q 6, SA s9, COUNT 64. -/
theorem test_word_qpush :
    decodeWord r0 (0b0100_000011_110_00000_01001_1000000#30 ++ 0#34) = some (.qpush r0 { q := 6, sd := 0, sa := 9, count := 64, rsv := 0 }) := by decide

/-- R67, R128: BARRIER with LEVEL 3 and ID 0x1234; CHECKGEN of stream 7 to s2. -/
theorem test_word_sync :
    decodeWord r0 0b0101_000010_000_00000_00000_011_000000_0001001000110100_0000000000000000#64 =
      some (.barrier r0 { mode := 0, sa := 0, sb := 0, level := 3, rsvHi := 0, id := 0x1234, rsvLo := 0 }) ∧
    decodeWord r0 0b0101_000100_000_00000_00010_000_000000_0000000000000111_0000000000000000#64 =
      some (.checkgen r0 { mode := 0, sa := 0, sb := 2, level := 0, rsvHi := 0, id := 7, rsvLo := 0 }) := by decide

/-- R62, R461: reserved opcodes and classes. -/
theorem test_word_reserved : decodeWord r0 (instrWord 0 0x07 0) = none ∧ decodeWord r0 (instrWord 2 0x18 0) = none ∧
    decodeWord r0 (instrWord 5 0x05 0) = none ∧ decodeWord r0 (instrWord 6 0 0) = none ∧ decodeWord r0 (instrWord 15 0x3F 0) = none := by decide

theorem witness_InstructionWordsRoundTrip :
    encodeWord (.endK r0 f0 3) = some (instrWord 0 2 f0.bits) ∧ decodeWord r0 (instrWord 0 2 f0.bits) = some (.endK r0 f0 0) ∧
    6 ≤ wordClass (instrWord 6 0 0) := by decide

/-- A stream with an empty watch list asks; one with a page at home gets its answer. -/
theorem witness_GenerationChecks :
    (let c : Ctx := { ctx1 with streams := [stream1] }
     let f : SyncF := { y0 with sa := 0 }
     let s := openToTime 0 0 (fetchCode 0 0 (coding (.checkgen r0 f) (demo c)))
     Issues (.checkgen r0 f) c ∧ f.rsvHi = 0 ∧ f.rsvLo = 0 ∧ f.mode = 0 ∧ f.sa = 0 ∧ f.level = 0 ∧ f.id.toNat < 16 ∧
       (∀ o ∈ s.hub.outs, ¬ (o.kind = 5 ∧ o.psq = 0 ∧ o.slot = 0)) ∧
       (∀ g ∈ (s.square 0).tags, ¬ (g.slot = 0 ∧ g.stream = 0 ∧ g.dead = false))) ∧
    (let q : FabReq := { src := 6, burgee := 1, seq := 1, retry := false, radio := false, rsvZero := true, addr := BitVec.ofNat 64 (5 * 2 ^ 44), size := 1, fmt := 0, payload := [], tag := 0, watch := false, tie := false }
     (demo ctx1).waitsAtHome q = false ∧ (demo ctx1).seqAhead 6 1 1 = 0) ∧
    (let t0 := { stream1 with watchList := [(0, 5)] }
     let c := { ctx1 with streams := [t0], wait := .gen 0 2 true [] }
     let s := demo c
     s.physOf 0 = some 0 ∧ (s.ctx 0 0).wait = .gen 0 2 true [] ∧ ([] : List (Nat × Nat)).all s.writeOver = true ∧ c.streams[0]? = some t0 ∧ BitVec.ofNat 5 2 ≠ 0 ∧
       (∀ o ∈ s.hub.outs, ¬ (o.kind = 7 ∧ o.psq = 0 ∧ o.slot = 0)) ∧ ∀ e ∈ t0.watchList, (s.pageHome c t0 e.1).1 = s.deviceId) :=
  ⟨by decide +kernel, by decide +kernel, by decide +kernel⟩

def d0 : ReduceF := { op := 5, level := 1, sa := 0, sb := 0, sl := 1, rsv := 0, tag := 0 }

def reducing : Ctx := { ctx1 with wait := .reduce 0 0 1 0 0 1 0, tensor := [Code.form 0 false] }

/-- Square 0 of a sub-command's board, the first member of a board of device 6 whose second is a square there. -/
def farBoard (c : Ctx) : State :=
  { demo c with sched := { cmds := [(1, { cmd1 with sub := some (6, 9), above := [{ level := 2, split := 1, reduceRoot := 0, reduceRemote := false, me := 0, members := [[(5, 0)], [(6, 3)]] }] })] } }

def farOf : Option Partner → Option Nat
  | some (.far d _) => some d
  | _ => none

def nearOf : Option Partner → Option MemberRun
  | some (.near m) => some m
  | _ => none

theorem witness_Reductions :
    (let c := ctx1.setReg 1 2048
     let i := Instr.reduce r0 d0
     let s := fetchCode 0 0 (coding i (demo c))
     Issues i c ∧ d0.rsv = 0 ∧ d0.op.toNat ≤ 5 ∧ s.badLevel c 1 = false ∧ (c.reg d0.sl).toNat ≠ 0 ∧ (c.reg d0.sl).toNat ≤ c.shareLen / 32 ∧
       s.reduceBad c (((s.treePlace c 1).map (·.board.reduceRemote)).getD false) 0 0 2048 = none ∧
       ((s.treePlace c 1).map fun t => (s.nearOthers c t).length) = some 0) ∧
    (let s := demo reducing
     s.physOf 0 = some 0 ∧ ((s.treePlace reducing 1).map fun t => (t.board.reduceRemote, t.r, reducing.nextSender t)) = some (false, 0, none) ∧
       reducing.redGot = false ∧ ∀ o ∈ s.hub.outs, ¬ (o.kind = 3 ∧ o.ret = some (ctxKey 0 0))) ∧
    (let c := { reducing with wait := .reduce 0 0 2 0 0 1 0 }
     let s := farBoard c
     ((s.treePlace c 2).bind fun t => (c.nextSender t).bind fun j => farOf (s.partner c t j)) = some 6) ∧
    ((demo2 reducing reducing).physOf 1 = some 1 ∧ ctxKey member1.psq member1.slot ≠ ctxKey 1 0) ∧
    (let s := demo2 reducing reducing
     let me := s.ctx 1 0
     me.wait = .reduce 0 0 1 0 0 1 0 ∧
       ((s.treePlace me 1).map fun t => (t.board.reduceRemote, t.r, me.nextSender t)) = some (false, 1, none)) ∧
    (let s := demo2 reducing reducing
     let me := s.ctx 1 0
     ((s.treePlace me 1).map fun t => (sendStep 8 t.r, s.takesFrom t member1)) = some (some 0, true) ∧
       ((s.treePlace me 1).bind fun t => nearOf (s.partner me t 0)) = some member1) :=
  ⟨by decide +kernel, by decide +kernel, by decide +kernel, by decide +kernel, by decide +kernel, by decide +kernel⟩

/-- An operand in the share, row-major, of format `fmt` at granule `g`. -/
def operand (fmt g : Nat) : Word := BitVec.ofNat 64 (2 ^ 61 + fmt * 2 ^ 56 + 32 * g)

/-- A context with the operand registers of the matrix instructions: 1 × 1 × 1 BF16. -/
def ctxM : Ctx :=
  ((((ctx1.setReg 1 (operand 9 0)).setReg 2 (operand 9 32)).setReg 3 (operand 9 64)).setReg 4 (BitVec.ofNat 64 (1 + 2 ^ 16 + 2 ^ 32))).setReg 5
    (BitVec.ofNat 64 (1 + 2 ^ 32))

def arr1 : ArrayState := { shape := 1 }

/-- `c` on square 0 with the array `a`, about to issue `i`. -/
def withArr (i : Instr) (c : Ctx) (a : ArrayState) : State := coding i ((demo c).setSquare 0 { gated := false, arr := a })

def mmt0 : MmtF := { sdim := 4, sa := 1, sb := 2, sc := 0, sd := 3, sab := 0, rnd := 0, sat := false, seg := 0, rsvHi := 0, wbase := 0, rsvLo := 0 }

def mmp0 : MmpF := { srow := 5, sa := 1, sc := 0, sd := 3, sab := 0, shape := 1, seg := 0, rnd := 0, sat := false, zero := true, flush := true, rsvHi := 0, wbase := 0, rsvLo := 0 }

theorem witness_MatrixInstructions :
    (let s := fetchCode 0 0 (withArr (.mmt r0 mmt0) ctxM { shape := mmtShape ((demo ctxM).boardOf ctxM) 0 0 1 })
     let x := opWord (ctxM.reg 1)
     let arr := (s.square 0).arr
     RunsNow (.mmt r0 mmt0) (withArr (.mmt r0 mmt0) ctxM { shape := mmtShape ((demo ctxM).boardOf ctxM) 0 0 1 }) r0 0 ∧ (ctxM.reg 4).toNat < 2 ^ 48 ∧
       formatClass x.fmt ≠ 0 ∧ formatClass (opWord (ctxM.reg 2)).fmt = formatClass x.fmt ∧ (scaleWord ctxM (formatClass x.fmt) 0).2.2.2.2 = true ∧
       segForbidden (s.boardOf ctxM) 0 = false ∧
       outFormatsOk (formatClass x.fmt) (opWord (ctxM.reg 0)).fmt (some (opWord (ctxM.reg 3)).fmt) ((opWord (ctxM.reg 0)).kind != 0) = true ∧
       arr.otherSeg 0 0 = false ∧ arr.held 0 = none ∧ arr.segCount = 0 ∧ arr.shape = mmtShape (s.boardOf ctxM) s.cfg.device.shapePolicy 0 1 ∧
       (arr.mmtIn 0 = false)) ∧
    (checkOperand ctxM (ctxM.reg 1) 1 1 false false false true = none ∧ checkOperand ctxM (ctxM.reg 2) 1 1 true false false true = none ∧
      checkOperand ctxM (ctxM.reg 0) 1 1 false false true false = none ∧ checkOperand ctxM (ctxM.reg 3) 1 1 false true false false = none ∧
      (opWord (ctxM.reg 1)).kind ≠ 3 ∧ (opWord (ctxM.reg 0)).kind ≠ 3 ∧ (opWord (ctxM.reg 3)).kind ≠ 3) ∧
    -- an MMP of one row into bank row 0, over a front set that is not loaded, which flushes
    (let s := fetchCode 0 0 (withArr (.mmp r0 mmp0) ctxM arr1)
     let x := opWord (ctxM.reg 1)
     let cls := formatClass x.fmt
     RunsNow (.mmp r0 mmp0) (withArr (.mmp r0 mmp0) ctxM arr1) r0 0 ∧ (ctxM.reg 5).toNat < 2 ^ 48 ∧ 1 ≤ chunkRows 1 (ctxM.accum == 1 && !isIntPair cls) ∧
       1 ≤ blockWidth 1 cls false ∧ opWordBad (ctxM.reg 0) = false ∧ opWordBad (ctxM.reg 3) = false ∧ (opWord (ctxM.reg 3)).kind ≠ 0 ∧
       segForbidden (s.boardOf ctxM) 0 = false ∧ checkOperand ctxM (ctxM.reg 1) 1 0 false false false true = none) ∧
    (∃ ix ar, ((fetchCode 0 0 (withArr (.mmp r0 mmp0) ctxM arr1)).square 0).arr.enterStep 0 0 1 = .go ix ar ∧ (ar.seg ix).front.loaded = false) :=
  ⟨by decide +kernel, by decide +kernel, by decide +kernel, _, _, rfl, by decide +kernel⟩

def loadw0 : LoadwF := { sb := 2, skn := 6, shape := 1, seg := 0, rsv := 0 }

theorem witness_StationarySets :
    (let c := ctxM.setReg 6 (BitVec.ofNat 64 (1 + 2 ^ 16))
     let y := opWord (c.reg 2)
     let cls := formatClass y.fmt
     let s := fetchCode 0 0 (withArr (.loadw r0 loadw0) c arr1)
     RunsNow (.loadw r0 loadw0) (withArr (.loadw r0 loadw0) c arr1) r0 0 ∧ (c.reg 6).toNat < 2 ^ 32 ∧ cls ≠ 0 ∧ segForbidden (s.boardOf c) 0 = false ∧
       1 ≤ blockDepth 1 cls ∧ 1 ≤ blockWidth 1 cls false ∧ y.kind ≠ 3 ∧ checkOperand c (c.reg 2) 1 1 true false false true = none ∧
       (readPad 0 c.shareBase y.addr (y.shareEnd 1 1 true - y.addr) s).2 = false) ∧
    (∃ ix ar, arr1.enterStep 0 0 1 = .go ix ar) ∧
    RunsNow (.swap r0 { seg := 0, rsv := 0 }) (withArr (.swap r0 { seg := 0, rsv := 0 }) ctxM arr1) r0 0 ∧
    (let arr := { arr1 with want := some 3 }
     arr.want = some 3 ∧ arr.tiles = [] ∧ arr.segCount = 0) :=
  ⟨by decide +kernel, ⟨_, _, rfl⟩, by decide +kernel, by decide +kernel⟩

/-- An MMP tile of one row of one element. -/
def op1 : MatOp where
  kind := .mmp
  slot := 0
  seg := 0
  segIx := 0
  shape := 1
  a := opWord (operand 9 0)
  b := opWord (operand 9 32)
  c := opWord 0
  d := opWord (operand 9 64)
  m := 1
  n := 1
  k := 1
  m0 := 0
  n0 := 0
  k0 := 0
  base := 0
  alpha := 0x3F800000
  beta := 0
  addC := false
  shift := 0
  rnd := 0
  sat := false
  zero := true
  flush := false
  wbase := 0
  long := false
  front := { fmt := 9, loaded := true, kr := 1, nc := 1, elems := [(0, 0x3F80)] }
  bufA := []
  bufB := []
  bufC := []
  out := []
  holds := false
  done := false

/-- An MMP without and with a flush, and the only tile of an MMT. -/
theorem witness_MatrixTiles : ∀ op ∈ [op1, { op1 with flush := true }, { op1 with kind := .mmt, addC := false }],
    let s := withArr (.nop r0 f0) ctx1 { arr1 with tiles := [op] }
    let arr := (s.square 0).arr
    let load := if op.kind = .mmt then loadBlock s 0 0 op else (op.front, false)
    let sum := sumTile s 0 0 op load.1 (arr.seg 0).bank
    s.physOf 0 = some 0 ∧ arr.front 0 = some op ∧ (s.ctx 0 0).wait = .none ∧ op.kind ≠ .loadw ∧ op.done = false ∧ op.holds = false ∧ op.needA = 0 ∧
      op.needB = 0 ∧ op.needC = 0 ∧ op.out = [] ∧ op.d.kind ≠ 3 ∧ s.domainOpen 0 (s.ctx 0 0).burgee = true ∧ op.k ≠ 0 ∧ load.2 = false ∧ sum.poison = false ∧
      (flushTile 0 0 op sum 0 (s.unitSeed (s.ctx 0 0) op.m)).poison = false := by
  decide +kernel

-- ───────────────────────── launch, access engine, fabric

/-- A tower whose descriptor at 4096 names 8 bytes of code at 0. -/
def towerK : Mem := ({} : Mem).write cfg1.key 4104 [8] false

def launching : State :=
  { demo {} with tower := towerK, sched := { cmds := [(1, { cmd1 with desc := 4096, members := [{ member1 with started := false }] })], nextCmd := 2 } }

theorem witness_LaunchAndShareWipe :
    (let d := { cmd1 with desc := 4096, members := [{ member1 with started := false }] }
     let s := launching
     s.physOf 0 = some 0 ∧ s.cmd 1 = some d ∧ (d.members.find? fun m => m.psq == 0 && m.slot == 0 && !m.started && !m.ended) = some { member1 with started := false } ∧
       (s.cfg.share 0 0).isSome = true ∧ s.ownView d.board = true ∧ s.launchPasses 0 d = true ∧ d.stage = .launched ∧ (s.ctx 0 0).active = false ∧
       (s.ctx 0 0).wiping = false ∧ s.pwr.issueStop = false ∧ (s.tower.read s.cfg.key d.desc 128).2 = false) ∧
    (let s := launching
     let k := parseKernel (s.tower.read s.cfg.key 4096 128).1
     k.fault 1 s = none ∧ k.streams = 0 ∧ (s.tower.read s.cfg.key k.codeAddr k.codeLen).2 = false ∧ ((s.cfg.board 1).map (·.tempo)).getD false = false ∧
       (s.square 0).arr.front 0 = none ∧ ∀ o ∈ s.hub.outs, ¬ (o.kind = 5 ∧ o.psq = 0 ∧ o.slot = 0)) ∧
    ((demo { wiping := true, shareLen := 65536 }).physOf 0 = some 0 ∧ ((demo { wiping := true, shareLen := 65536 }).ctx 0 0).wiping = true) ∧
    (parseKernel []).codeLen < 8 :=
  ⟨by decide +kernel, by decide +kernel, by decide +kernel, by decide +kernel⟩

/-- A read stream of one granule of device memory. -/
def readStream : Stream := { stream1 with started := true, elem := 1, counts := [1, 1, 1, 1], strides := [0, 0, 0, 0] }

def tag1 : Tag where
  id := 0
  slot := 0
  stream := 0
  write := false
  kind := 1
  dests := []
  addrs := [0]
  place := 0
  first := 0
  bank := 0
  held := false
  hub := none
  last := false
  dead := false
  back := []
  ready := false

def withTag (c : Ctx) (t : Tag) : State := { demo c with squares := [(0, { gated := false, tags := [t] })] }

/-- The state in which an access engine looks for its next request. -/
def looking (b : State) : State := markStreams 0 (forAll ((List.range 8).filter fun k => (b.ctx 0 k).active) (sweep 0) b)

/-- A stream of device memory that may read, one whose base lies outside the burgee's regions, no stream, and one tag of each kind. -/
theorem witness_AccessEngine :
    (let b := demo { ctx1 with streams := [readStream] }
     (b.square 0).gated = false ∧ b.pwr.issueStop = false ∧ (match (looking b).plan 0 0 0 with
       | .issue _ _ _ _ _ => true
       | _ => false) = true) ∧
    (let b := demo { ctx1 with streams := [{ readStream with base := 2 ^ 31 }] }
     (match (looking b).plan 0 0 0 with
      | .fault _ _ => true
      | _ => false) = true) ∧
    (let s := withTag { ctx1 with streams := [readStream] } tag1
     ((s.square 0).tags.find? (·.id == 0)) = some tag1 ∧ tag1.write = false ∧ tag1.held = false ∧ tag1.ready = false ∧ tag1.kind = 1 ∧ tag1.dead = false) ∧
    (∀ w ∈ [true, false], let t := { tag1 with write := w, kind := 0, back := if w then [Code.form 1 false] else [] }
     let s := withTag { ctx1 with streams := [readStream] } t
     let s := { s with tow := { s.tow with banks := [(0, [{ sq := 0, tag := 0, kept := false }])] } }
     ((s.square 0).tags.find? (·.id == 0)) = some t ∧ s.issues 0 t = true ∧ s.inStep (BitVec.ofNat 16 (5 * s.up)) = true ∧
       s.inStep (BitVec.ofNat 16 (5 * s.up + 5)) = false) ∧
    (let t := { tag1 with kind := 0, held := true }
     let s := withTag ctx1 t
     s.heldTag 0 0 = some t ∧ t.dead = false ∧ (s.rotation 0).takeWhile (· != 0) = []) :=
  ⟨by decide +kernel, by decide +kernel, by decide +kernel, by decide +kernel, by decide +kernel⟩

/-- A STORE of one byte to fabric address 0 of device 5 (header), which needs one operand granule. -/
def headerG : Granule := Code.form (BitVec.ofNat 256 (2 + 5 * 2 ^ 44 * 2 ^ 64)) false

theorem witness_OperationWindow :
    (let t := { tag1 with write := true, kind := 5, addrs := [opWindow, opWindow + 32], back := [headerG, headerG] }
     let s := withTag { ctx1 with streams := [stream1] } t
     s.physOf 0 = some 0 ∧ ((s.square 0).tags.find? fun t => t.slot == 0 && t.stream == 0 && t.kind == 5 && !t.dead) = some t ∧
       t.back.head? = some headerG ∧ t.addrs.head? = some (opWindow + 32 * 0) ∧ Assoc.get s.hub.windows (ctxKey 0 0 * 16 + 0) [] = [] ∧
       isPoisoned headerG = false ∧ (let h := granuleBytes (Code.value headerG).1
         badHeader h = false ∧ bit (fieldAt h 3 1) 0 = false ∧ 1 ≤ operandGranules (fieldAt h 0 1) (fieldAt h 8 8) (fieldAt h 2 1)) ∧
       { t with back := t.back.drop 1, addrs := t.addrs.drop 1 }.back ≠ []) ∧
    (let t := { tag1 with write := true, kind := 5, addrs := [opWindow, opWindow + 32], back := [headerG, headerG] }
     let s := { withTag { ctx1 with streams := [stream1] } t with hub := { windows := [(0, [headerG])] } }
     let h := granuleBytes (Code.value headerG).1
     Assoc.get s.hub.windows 0 [] = [headerG] ∧ operandGranules (fieldAt h 0 1) (fieldAt h 8 8) (fieldAt h 2 1) < 2 ∧ fieldAt h 0 1 ≠ 0x30 ∧
       fieldAt h 0 1 ≠ 0x20 ∧ s.ahead 0 0 0 = false ∧ fabDevice (fieldAt h 8 8) = s.deviceId ∧ s.hubRoom ctx1.burgee = true) :=
  ⟨by decide +kernel, by decide +kernel⟩

/-- A request of device 6 for burgee 1: one granule at fabric address `a` of this device. -/
def req1 (a : Nat) : FabReq where
  src := 6
  burgee := 1
  seq := 1
  retry := false
  radio := false
  rsvZero := true
  addr := BitVec.ofNat 64 (5 * 2 ^ 44 + a)
  size := 32
  fmt := 0
  payload := [Code.form 0 false]
  tag := 0
  watch := false
  tie := false

def part1 : CombinePart := { src := 6, burgee := 1, seq := 1, tag := 0, data := [], bad := false }

/-- The next SEQ, one further on, and one that was performed; a multicast element for this device alone and one for none of it; a combined LOAD in its
turn, one that is early, and an opcode that does not combine. -/
theorem witness_FabricRequestsAtHome :
    (demo ctx1).seqAhead 6 1 1 = 0 ∧ (demo ctx1).seqAhead 6 1 2 = 1 ∧ 2 ^ 23 ≤ (demo ctx1).seqAhead 6 1 0 ∧
    (demo ctx1).waitsAtHome (req1 0) = false ∧ (demo ctx1).homePasses 0x02 (req1 0) = true ∧ (demo ctx1).homePasses 0x03 (req1 0) = true ∧
    ([(5, 1)] : List (Nat × Nat)).find? (fun d => d.1 == (demo ctx1).deviceId) = some ((demo ctx1).deviceId, 1) ∧
    ([(6, 1)] : List (Nat × Nat)).find? (fun d => d.1 == (demo ctx1).deviceId) = none ∧
    (combinable 0x01 = true ∧ (demo ctx1).combinedDropped 0x01 (req1 0) [part1] = false ∧ (demo ctx1).combinedReady [part1] = true ∧
      (demo ctx1).combinedReady [{ part1 with seq := 2 }] = false ∧ (demo ctx1).combinedDropped 0x01 (req1 0) [{ part1 with seq := 2 }] = false ∧
      (demo ctx1).combinedDropped 0x01 (req1 0) [{ part1 with seq := 0 }] = true) ∧ combinable 0x02 = false := by
  decide +kernel

/-- One granule at 0 and at the region's last granule; two places outside what is present or allowed. -/
theorem witness_HomeChecksAndResults :
    (∀ a ∈ [0, 2 ^ 31 - 32],
     let s := demo ctx1
     let r := req1 a
     s.homeCheck 0x01 r = 0 ∧ s.homeCheck 0x02 r = 0 ∧ s.homeCheck 0x10 r = 0 ∧ s.homeCheck 0x11 r = 0 ∧
       s.homeCheck 0x12 { r with size := 4, fmt := 1 } = 0 ∧ s.homeCheck 0x20 { r with fmt := 1 } = 0 ∧
       isAtomic 0x10 = true ∧ isReduction 0x20 = true ∧
       r.payload.any isPoisoned = false ∧ (loadSpot (.tower a) r.size s).1.any isPoisoned = false) ∧
    (let s := demo ctx1
     let v := loadSpot (.tower 0) 32 s
     leNat (payloadBytes v.1 0 32) ≠ leNat (payloadBytes [Code.form 1 false] 0 32)) ∧
    (let s := demo ctx1
     s.homeCheck 0x01 (req1 (2 ^ 31)) ≠ 0) ∧
    (let s := demo ctx1
     s.cfg.rangeIn (s.regionOpen 1) 0 32 = true ∧ s.cfg.rangeIn (s.regionOpen 2) 0 32 = false ∧ (req1 0).addr.toNat < 2 ^ 54) ∧
    (demo ctx1).spot (fabOffset (req1 0).addr.toNat) 32 = some (.tower 0) ∧
    (demo ctx1).spot (fabOffset (req1 (2 ^ 31 - 32)).addr.toNat) 32 = some (.tower (2 ^ 31 - 32)) ∧ (demo ctx1).spot (2 ^ 31) 32 = none := by
  refine ⟨by decide +kernel, by decide +kernel, by decide +kernel, by decide +kernel, rfl, rfl, rfl⟩

/-- A LOAD of device `d`. -/
def out1 (d : Nat) : FabOut where
  id := 1
  kind := 1
  opcode := 1
  dests := [(d, 0)]
  burgee := 1
  radio := false
  addr := d * 2 ^ 44
  size := 32
  fmt := 0
  payload := []
  noCombine := false
  watch := false
  sent := false
  sentAt := 0
  retries := 0
  cmd := 1
  psq := 0
  slot := 0
  sqTag := none
  stream := 0
  ret := none
  discard := false
  group := 0
  lease := none
  status := 0

/-- The operation `o` at the hub, with link 0 to device 6 in the state `k`. -/
def withOut (o : FabOut) (k : LinkSt) : State :=
  { demo ctx1 with
    cfg := { cfg1 with links := [{ link := 0, role := 1, peer := 6, peerLink := 0 }] }, links := [(0, { st := k })], hub := { outs := [o] } }

/-- An operation for this device, one for device 6 with a live link and with none, and one unanswered for 50 µs. -/
theorem witness_FabricSource :
    (∀ d ∈ [5, 6], ∀ k ∈ [LinkSt.up, LinkSt.down], let s := withOut (out1 d) k
     s.hub.outs.find? (·.id == 1) = some (out1 d) ∧ s.fenced (out1 d) = false ∧ s.firstOfPair (out1 d) = true ∧
       s.mayDraw (s.sendDraws (out1 d)) = true ∧ (d = s.deviceId → s.ownPasses (out1 d) = true) ∧
       (d ≠ s.deviceId → s.gone d = false ∧ s.creditFree (out1 d) d = true ∧ s.egressTurn (out1 d) = true)) ∧
    ((withOut (out1 6) .up).pickLink 0 5 6 (out1 6).addr).isSome = true ∧ (withOut (out1 6) .down).pickLink 0 5 6 (out1 6).addr = none ∧
    (let o := { out1 6 with sent := true, sentAt := 1000000000000 - 50000 }
     let s := withOut o .up
     o.sentAt + 50000 ≤ s.up ∧ s.gone 6 = false ∧ s.copyWaits 1 6 = false ∧ o.dests.any (·.1 == 6) = true ∧
       (∀ f ∈ s.hub.outs, f.kind ≠ 7) ∧ s.hub.outs.find? (·.id == 2) = none) := by
  refine ⟨by decide +kernel, by decide +kernel, by decide +kernel, by decide +kernel⟩

def msg1 : Wire := { opcode := 1, vc := 0, src := 4, dst := 6, burgee := 1, seq := 1, size := 31 }

def entry2 (sent : Bool) (n : Nat) : CombineEntry where
  id := 3
  opcode := 1
  dst := 6
  addr := 0
  size := 32
  fmt := 0
  held := 0
  openAt := 1000000000000 - 100
  parts := (List.range n).map fun i => { src := 7 + i, burgee := 1, seq := 1, tag := 0, data := [], bad := false }
  first := msg1
  sent := sent

def combining (e : CombineEntry) (ns : Nat) : State := { demo ctx1 with hub := { combines := [e], combineNs := BitVec.ofNat _ ns } }

/-- A message that may combine and one that may not, an entry it may join and a full one, windows that run and that have closed. -/
theorem witness_RouterForwardsAndCombines :
    (msg1.dst ≠ (demo ctx1).deviceId ∧ msg1.dests = [] ∧ mayCombine msg1 = true ∧ mayCombine { msg1 with held := 2 } = false ∧
      (combining (entry2 false 2) 200).hub.combineNs ≠ 0 ∧ (∀ e ∈ (demo ctx1).hub.combines, (demo ctx1).joins msg1 e = false)) ∧
    (∀ n ∈ [1, 2, 15, 16],
      let s := takeIn (fun w => { w with watch := msg1.watch, gen := msg1.gen } == msg1) (combining (entry2 false n) 200)
      s.hub.combines.find? (s.joins msg1) = some (entry2 false n) ∧ (16 ≤ (entry2 false n).parts.length ↔ n = 16) ∧
        ((entry2 false n).parts.any fun q => q.src == msg1.src && q.burgee == msg1.burgee) = false) ∧
    (∀ n ∈ [1, 2], let s := combining (entry2 false n) 100
     (s.hub.combines.find? fun e => e.id == 3 && !e.sent) = some (entry2 false n) ∧ (entry2 false n).openAt + s.hub.combineNs.toNat ≤ s.up ∧
       (2 ≤ (entry2 false n).parts.length ↔ n = 2)) ∧
    ((combining (entry2 true 2) 100).hub.combines.find? fun e => e.id == 3 && e.sent) = some (entry2 true 2) ∧ (entry2 true 2).opcode = 1 := by
  refine ⟨by decide +kernel, by decide +kernel, by decide +kernel, by decide +kernel, rfl⟩

def sub1 : SubCmd where
  src := 6
  srcCmd := 9
  origin := (6, 9)
  board := 1
  burgee := 1
  cls := 1
  tag := 0
  desc := 0
  m := (0, 1)
  n := (0, 1)
  k := (0, 1)
  last := 0
  isRoot := true
  above := []
  squares := 1
  energyUj := 0
  boundUs := 100

/-- A sub-command that the device accepts and one that it refuses, messages in their turn, performed before and early, and the end of a remote member. -/
theorem witness_SubCommands :
    (∀ b ∈ [1, 2], let s := demo ctx1
     let sc := { sub1 with burgee := b }
     let fresh : Cmd := { id := s.sched.nextCmd, burgee := sc.burgee, opcode := 1, cls := sc.cls, board := sc.board, tag := sc.tag, energyUj := sc.energyUj
                          maxDurUs := sc.boundUs, desc := sc.desc, stage := .energy, readAt := s.up, waitedSince := s.up
                          sub := some (sc.src, sc.srcCmd), squares := sc.squares, ranges := [sc.m, sc.n, sc.k], subLast := sc.last
                          subRoot := sc.isRoot, origin := some sc.origin, above := sc.above }
     s.refusesSub sc fresh = (b == 2)) ∧
    (demo ctx1).seqAhead 6 1 1 = 0 ∧ 2 ^ 23 ≤ (demo ctx1).seqAhead 6 1 0 ∧
    (let d := { cmd1 with remotes := [{ device := 6, board := 2, base := 0, len := 1, squares := 1 }] }
     ({ demo ctx1 with sched := { cmds := [(1, d)] } }).cmd 1 = some d ∧ d.remotes.findIdx? (fun x => x.device == 6 && !x.ended) = some 0) := by
  decide +kernel

-- ───────────────────────── towers and links

/-- The first and the last symbol, and a burst of six granules. -/
theorem witness_SingleSymbolErrorsAreCorrected : (0 < 36 ∧ 35 < 36) ∧ (1 : Byte) ≠ 0 ∧
    Code.value (Code.disturb (Code.form 5 true) [(35, 0xFF)]) = (5, true) ∧ Code.value (Code.disturb (Code.form 5 false) [(0, 1)]) = (5, false) ∧
    (let gs := [some (Code.form 5 false), none, none, none, none, some (Code.form 6 true)]
     gs.length = 6 ∧ gs[0]? = some (some (Code.form 5 false)) ∧ gs[1]? = some none ∧ gs[5]? = some (some (Code.form 6 true))) := by
  decide +kernel

theorem witness_DoubleSymbolErrorsNeverPassAsCleanData : (0 < 35 ∧ 35 < 36) ∧ (1 : Byte) ≠ 0 ∧ (2 : Byte) ≠ 0 ∧
    Code.residue (Code.disturb (Code.form 5 false) [(0, 1), (35, 2)]) ≠ 0 := by decide +kernel

/-- Device time `ns` in a frame that ends at the next whole 8 µs. -/
def inFrame (ns : Nat) : State :=
  { demo ctx1 with
    time := { State.reset.time with st := .locked, acc := BitVec.ofNat 96 (ns * 2 ^ 32) }
    tow := { frameDue := (ns / 8000 + 1) * 8000, frameNo := ns / 8000 % 125
             scrubs := [{ key := 0, g := Code.disturb (Code.form 5 false) [(3, 1)], stale := false }, { key := 32, g := Code.form 0 false, stale := true }] } }

theorem witness_TowerMaintenance :
    ((demo ctx1).tow.frameDue ≤ (demo ctx1).devTime ∧ (inFrame 7750).inSlot 62 = true ∧ (inFrame 7750).tow.refreshed = false) ∧
    (let s := (inFrame 15999).setChan 1 { temp := 85 }
     s.inSlot 63 = true ∧ s.calibrates = false ∧ s.tow.calibrated = false ∧ s.hotTowers ≠ [] ∧ s.wipingTowers = false ∧
       dataChan 0 = true ∧ (s.chan 0).st = 0 ∧ (s.chan 0).nextScrub ≤ s.up) ∧
    (let s := inFrame 7999
     s.inSlot 63 = true ∧ s.calibrates = true ∧ s.tow.calibrated = false ∧ (∀ ch ∈ [0, 41], ch < 42)) ∧
    (let s := inFrame 0
     (s.square 0).gated = false ∧ 0 < 180 ∧ 31 < 32 ∧ Assoc.get (s.square 0).scrubDue 31 0 ≤ s.up ∧ s.tow.sramDue ≤ s.up ∧
       (s.tow.scrubs.find? (·.key == 0)).isSome = true ∧ ((s.tow.scrubs.find? (·.key == 32)).map (·.stale)) = some true ∧
       s.runs (chanOfKey 0).1 = true ∧ s.runs (chanOfKey 32).1 = true) ∧
    (∀ n ∈ [1, 2], let s := (demo ctx1).setChan 41 { st := 1, fails := n, since := 1000000000000 - 2000000, rate := [(31, 900, 1001, 9)] }
     (s.chan 41).st = 1 ∧ s.up ≤ (s.chan 41).since + 2000000 ∧ (if n = 1 then (s.chan 41).fails < 2 else 2 ≤ (s.chan 41).fails) ∧
       s.tow.sumDue ≤ s.up ∧ 10 ≤ (s.chan 41).hotRun 31 (s.up / 1000000000) ∧ 31 ∉ (s.chan 41).dqHot) :=
  ⟨by decide +kernel, by decide +kernel, by decide +kernel, by decide +kernel, by decide +kernel⟩

/-- A link 0 to device 6 in the state `k`, with lasers on. -/
def withLink (k : Link) : State :=
  { demo ctx1 with
    cfg := { cfg1 with links := [{ link := 0, role := 1, peer := 6, peerLink := 0 }] }, links := [(0, k)]
    pwr := { State.reset.pwr with state := .active, step := 8, lasersOff := false } }

theorem witness_LinksUpAndDown :
    (let s := withLink { st := .down, lastProbe := some (1000000000000 - 100000000000) }
     (s.link 0).st = .down ∧ s.mayLight 0 = true ∧ s.probeDue 0 = true) ∧
    (let k := (withLink { st := .probe, stateAt := 1000000000000 - 2000000 }).link 0
     k.st = .probe ∧ k.stateAt + 2000000 ≤ (demo ctx1).up) ∧
    (let k := (withLink { st := .train, stateAt := 1000000000000 - 3000000 }).link 0
     k.st = .train ∧ k.stateAt + 3000000 ≤ (demo ctx1).up) ∧
    (((withLink { st := .verify }).link 0).st = .verify ∧ (withLink { st := .verify }).linkRec 0 = some { link := 0, role := 1, peer := 6, peerLink := 0 }) ∧
    ((withLink { st := .up }).link 0).st ∈ [LinkSt.probe, .answer, .train, .verify, .up] ∧
    (let s := withLink {}
     let s := forAll [0, 1, 2] (fun l s => s.setLink l { st := .down, downAt := some (1000000000000 - 999999999) }) s
     s.pwr.spareEn = false ∧ s.engineFalls 0 = true) ∧
    (let s := withLink { st := .failed, failover := true }
     let s := { s with pwr := { s.pwr with spareEn := true, spareSel := 0 } }
     s.pwr.spareEn = true ∧ (s.link (8 * s.pwr.spareSel + 0)).failover = true ∧ (s.link (8 * s.pwr.spareSel + 0)).st = .failed) ∧
    (let s := withLink { st := .up, biasLog := [(1000000000000 - 1000000000, [1, 2, 3, 4])], lowMargin := [(3, 1000000000000 - 60000000000)]
                         lowFec := [(3, 1000000000000 - 10000000000)] }
     let k := s.link 0
     k.st = .up ∧ Assoc.find k.lowMargin 3 = some (1000000000000 - 60000000000) ∧ Assoc.find k.lowFec 3 = some (1000000000000 - 10000000000) ∧
       (∀ e ∈ k.biasLog.head?, e.1 + 1000000000 ≤ s.up) ∧
       (let log := (s.up, [2, 2, 2, 2]) :: k.biasLog.filter fun e => decide (s.up ≤ e.1 + days30)
        let q := slope (log.map fun p => (p.1, p.2.getD 1 0))
        q.2 ≠ 0 ∧ -32768 ≤ q.1 / q.2 ∧ q.1 / q.2 < 32767)) :=
  ⟨by decide +kernel, by decide +kernel, by decide +kernel, by decide +kernel, by decide +kernel, by decide +kernel, by decide +kernel, by decide +kernel⟩

/-- The control bytes of flit number `n` with one slot and their CRC. -/
def ctl (n : Nat) : List Byte :=
  let l := leBytes 2 n ++ [0, 0, 1] ++ List.replicate 25 (0 : Byte)
  l ++ leBytes 2 (crc16 l).toNat

def flit1 (n : Nat) : Flit := { ctl := ctl n, slots := [Code.form 7 false] }

/-- The flit due, one out of turn, one with a disturbed slot and one whose CRC is wrong; a link whose flit time has come; a NAK of the last flit. -/
theorem witness_FlitsSentAndReceived :
    (let k := (withLink { st := .up }).link 0
     (0 < 72 ∧ k.st = .up ∧ k.badSyn = []) ∧
     (∀ f ∈ [flit1 0, { flit1 0 with slots := [Code.disturb (Code.form 7 false) [(2, 9)]] }],
       BitVec.ofNat 16 (fieldAt f.ctl 30 2) = crc16 (fitTo 30 f.ctl) ∧ BitVec.ofNat 12 (fieldAt f.ctl 0 2) = k.fseq + 1) ∧
     badSlots (flit1 0) = [] ∧ badSlots { flit1 0 with slots := [Code.disturb (Code.form 7 false) [(2, 9)]] } ≠ [] ∧
     BitVec.ofNat 16 (fieldAt (ctl 1) 30 2) = crc16 (fitTo 30 (ctl 1)) ∧ ¬ BitVec.ofNat 12 (fieldAt (ctl 1) 0 2) = k.fseq + 1 ∧
     ¬ BitVec.ofNat 16 (fieldAt (List.replicate 32 (1 : Byte)) 30 2) = crc16 (fitTo 30 (List.replicate 32 (1 : Byte)))) ∧
    (let s := withLink { st := .up }
     let k := s.link 0
     k.flitDue ≤ s.up * 100 ∧ k.retryBuf.length < 512 ∧ k.retryBuf.length ≤ k.sentTo ∧ k.freed.length = 4 ∧ k.txq = []) ∧
    (let q := [{ vc := 0, dst := 6, left := [Code.form 1 false, Code.form 2 false] }, { vc := 2, dst := 6, left := [Code.form 3 false] }]
     let k : Link := { txq := q }
     k.credits.getD 2 0 ≠ 0 ∧ takeGranule 2 k.txq = some (Code.form 3 false, q.take 1) ∧ takeGranule 3 k.txq = none) ∧
    (let k : Link := { sendSeq := 2, retryBuf := [flit1 0, flit1 1], sentTo := 2 }
     (0 : BitVec 12) + 1 = k.sendSeq - BitVec.ofNat 12 k.retryBuf.length + BitVec.ofNat 12 1 ∧ 1 ≤ k.retryBuf.length ∧
       k.retryBuf[1]? = some (flit1 1)) :=
  ⟨by decide +kernel, by decide +kernel, by decide +kernel, by decide +kernel⟩

-- ───────────────────────── cells, fronthaul

def cell3 : CellRec := { id := 3, scs := 1, bwMhz := 100, tx := 4, rx := 4, split := 2, units := 1, bDie := 0, duplex := 0, board := 0 }

def cplane3 : FlowRec := { cell := 3, eaxc := 1, vid := 1, pcp := 0, port := 0, uplink := false, cplane := true, comp := 0 }

/-- Downlink C-plane and U-plane flows and an uplink flow of cell 3 on port 0. -/
def flows3 : List FlowRec := [cplane3, { cplane3 with eaxc := 2, cplane := false }, { cplane3 with eaxc := 3, uplink := true, cplane := false }]

/-- Cell 3 of the radio partition with burgee 2, whose directory lies at 0. -/
def cfgR : HoistCfg :=
  { cfg1 with
    burgees := [{ burgee1 with part := 0, burgee := 2, pasid := 8 }]
    regions := [{ region1 with part := 0, units := 1, burgee := 2 }]
    radio := some { cells := [cell3], flows := flows3 } }

/-- A tower whose directory lists cell 3 and whose entry has one message published (bytes 40 to 43 of the entry). -/
def towerR : Mem := ((({} : Mem).write cfgR.key 0 [1] false).write cfgR.key 64 [3] false).write cfgR.key 104 [1] false

/-- Cell 3 in the state `c`, at device time `ns`. -/
def demoR (c : Cell) (ns : Nat) : State :=
  { demo {} with
    cfg := cfgR, tower := towerR, radio := { cells := [(3, c)] }, burgees := [(0, { state := .active }), (2, { state := .active, en := true })]
    time := { State.reset.time with st := .locked, acc := BitVec.ofNat 96 (ns * 2 ^ 32) }
    fh := { peers := [{ cell := 3, port := 0, sub := 0, mac := 1 }], ports := [(0, { link := 1 })] } }

def cellC : Cell := { dirRead := true, st := .configured }

/-- Slot 40, the first of SFN 2, begins. -/
def t40 : Nat := slotStart 0 1 40

def extras1 : CellExtras := { fr2 := false, longCp := false, sul := false, ssbCase := 2, prach := [] }

/-- One QPSK codeword on one layer. -/
def pdu1 : DlPdu where
  id := 1
  pdsch := true
  words := [{ qm := 2, coded := 2, cInit := 0, graph := 1, zc := 2, rv := 0, nRef := none }]
  layers := 1
  dmrsType := 1
  dmrsPorts := 1
  payload := []

theorem witness_CellStates :
    (let c : Cell := {}
     let s := demoR c 0
     s.hostSeen = true ∧ s.cell 3 = some c ∧ c.dirRead = false ∧ (s.burgee 2).en = true ∧ s.cfg.partOf 2 = some 0 ∧ s.cfg.directory 0 = some 0 ∧
       ((List.range (peekDev s 0 2)).find? fun i => match s.cfg.directory (64 + 64 * i) with
         | some a => peekDev s a 2 == 3
         | none => false) = some 0 ∧ s.cfg.directory (64 + 64 * 0) = some 64 ∧ (readDev 64 64 s).1.2 = false ∧ s.burgeeOf 8 = some 2) ∧
    (let s := demoR cellC 0
     MessageReady s 3 cellC ∧ cellC.st ≠ .running ∧ s.cfg.cellRec 3 = some cell3 ∧ Tlvs.putAll [] {} = some {} ∧ extrasOk 1 100 extras1 = true ∧
       s.cfg.neuralOk {} = true ∧ s.peersOk 3 = true ∧ s.muster.st ≠ .benched ∧ s.time.st = .locked) ∧
    (let c := { cellC with st := .running, dlWrite := 1 }
     MessageReady (demoR c 0) 3 c ∧ c.st = .running) ∧
    (let c := { cellC with starting := true }
     let s := demoR c t40
     slotStart s.time.alpha 1 40 ≤ s.devTime ∧ 40 % slotsPerFrame 1 = 0 ∧ sfnOf 1 40 % 2 = 0 ∧ c.st = .configured ∧ c.starting = true) ∧
    (let x : TxPdu := { id := 1, bytes := [1], pointer := none, poison := false }
     let c := { cellC with st := .running, slotNow := some 39, dl := [(40, [pdu1])], tx := [(40, [x])] }
     slotStart (demoR c t40).time.alpha 1 40 ≤ (demoR c t40).devTime ∧ (c.slotNow.all fun m => decide (m < 40)) = true ∧ c.stopSlot = none ∧
       c.stopping = false ∧ { c with stopping := true }.allocs = [] ∧ Assoc.get c.dl 40 [] = [pdu1] ∧ Assoc.get c.dci 40 [] = [] ∧
       pdschOk pdu1 = true ∧ Assoc.get c.tx 40 [] = [x]) :=
  ⟨by decide +kernel, by decide +kernel, by decide +kernel, by decide +kernel, by decide +kernel⟩

def alloc1 : UlAlloc where
  id := 1
  kind := .pusch
  ue := 0
  harq := 0
  newData := true
  blocks := 2
  needs := []
  qm := 2
  layers := 1
  dfts := false
  format := 0
  ports := 1
  comb := 2
  prach := .long 0
  ncb := 64
  rows := 4
  zc := 2
  firstSym := 0
  lastSym := 13

/-- The first slot that is not late, the last that is, allocations inside and outside the limits, and a slot after the one at which the cell stops. -/
theorem witness_SlotMessages :
    (let c := { cellC with st := .running, dlWrite := 1, slotNow := some 38 }
     MessageReady (demoR c 0) 3 c ∧ c.st = .running ∧ c.stopSlot = none ∧ c.slotNow.getD 0 + 2 ≤ 40 ∧ 39 < c.slotNow.getD 0 + 2 ∧
       c.stopping = false ∧ 39 ∉ c.lateSlots ∧ allocOk 4 alloc1 = true ∧ allocOk 4 { alloc1 with layers := 5 } = false ∧
       (∀ k ∈ [AllocKind.pusch, .pucch, .srs, .prach], ∀ n ∈ engineLimit k, (demoR c 0).engineLoad cell3 40 k < n)) ∧
    (let c := { cellC with dlWrite := 1, stopped := some 38 }
     MessageReady (demoR c 0) 3 c ∧ c.stopAt = some 38) :=
  ⟨by decide +kernel, by decide +kernel⟩

def block1 : Block := { id := 9, cell := 3, slot := 40, alloc := 1, number := 0, rows := 4, zc := 2, limit := 8, capped := false, due := t40 + 20000000 }

theorem witness_UplinkChain :
    ∀ full ∈ [true, false],
    let r : AllocRun := { slot := 40, alloc := alloc1 }
    let buf : HarqBuf := { off := 0, len := 0, filled := full }
    let c := { cellC with st := .running, allocs := [r, { r with alloc := { alloc1 with kind := .srs } }], harq := [(harqKey alloc1 0, buf)] }
    let s := demoR c (t40 + 10000000)
    let s := { s with radio := { s.radio with queues := [(0, [block1])] } }
    s.cell 3 = some c ∧ s.cfg.cellRec 3 = some cell3 ∧
      symbolStart s.time.alpha 1 40 14 + c.tlv.ulWindow * 1000 ≤ s.devTime ∧ 0 < (s.cfg.ulFlows 3).length ∧ r ∈ c.allocs ∧
      r.alloc.firstSym ≤ 13 ∧ 13 ≤ r.alloc.lastSym ∧ Assoc.find r.arrived (13 * 256 + 0) = none ∧
      ((Assoc.get s.radio.queues 0 []).take 8).find? (·.id == 9) = some block1 ∧ s.devTime < block1.due ∧ r.noStore = false ∧
      (c.allocs.find? fun r => r.slot == 40 && r.alloc.id == 1) = some r ∧ Assoc.find c.harq (harqKey r.alloc 0) = some buf ∧
      (full = true → (s.harqLlrs 3 buf).2 = false) ∧
      r.done + 1 < r.alloc.blocks ∧ (c.allocs.any fun r => r.slot == 40 && r.alloc.kind == .srs) = true ∧ c.stopSlot = none ∧
      r ∈ s.lateAllocs c cell3 40 ∧ c.dirRead = true ∧
      (let early := demoR c t40
       ((early.lateAllocs c cell3 40).any fun r => r.slot == 40 && r.alloc.kind == .srs) = false) := by
  decide +kernel

theorem witness_FronthaulMessages :
    (let c := { cellC with st := .running }
     let s := demoR c (t40 - 300000)
     s.cell 3 = some c ∧ s.cfg.cellRec 3 = some cell3 ∧ s.cfg.flows[0]? = some cplane3 ∧ (s.fhPeer 3 0).isSome = true ∧
       s.before_ 1 40 0 250000 350000 = true ∧ s.subUp 0 0 = true ∧ s.devTime + 250000 ≤ t40 - 10000 - c.tlv.paLead ∧
       (s.cfg.flows.findIdx? fun f => f.cell == 3 && f.cplane && !f.uplink) = some 0 ∧ cell3.split = 2) ∧
    (let s := demoR { cellC with st := .running } (t40 - 100000)
     s.before_ 1 40 0 100000 150000 = true ∧ (s.cfg.flows[1]?.map (·.cplane)) = some false ∧ (s.cfg.flows[1]?.map (·.uplink)) = some false ∧
       0 < (s.port 0).prbsPerMessage 0) ∧
    (∀ ns ∈ [t40 - 1, t40, t40 + 1000000], let c := { cellC with st := .running }
     let s := demoR c ns
     (s.cfg.flows.findIdx? fun w => w.port == 0 && w.eaxc == 3 && w.vid == 1 && w.pcp == 0 && w.uplink == true && w.uplink && !w.cplane &&
       ((s.cell w.cell).map fun c => c.st == .running) == some true) = some 2 ∧ (s.cfg.ulFlows 3).findIdx? (· == { cplane3 with eaxc := 3, uplink := true, cplane := false }) = some 0) ∧
    (∀ w ∈ (demoR {} 0).cfg.flows, w.port ≠ 0 ∨ w.eaxc ≠ 9) :=
  ⟨by decide +kernel, by decide +kernel, by decide +kernel, by decide +kernel⟩

/-- The buffer of an FH_CONFIG request with one peer. -/
theorem witness_FronthaulPorts :
    (let s := demoR {} 0
     s.subUp 0 0 = true ∧ s.cfg.flows.any (·.port == 0) = true ∧ s.isSub 1 0 = true ∧ s.subUp 1 0 = false ∧ s.time.esmcDue ≤ s.up ∧ ∀ q ∈ [0, 7], s.portBusy q = false) ∧
    (let s := demoR {} 0
     let s := { s with time := { s.time with doms := [(0, { en := true, master := 1 })] } }
     s.masterPort 0 0 = true) ∧
    (let s := { demoR {} 0 with mbox := { buf := putCells [] 0 (leBytes 8 0 ++ leBytes 2 1 ++ leBytes 22 0) } }
     MailboxFree s 0x0003 ∧ fieldAt (cellsAt s.mbox.buf 0 (16 + 16 * 1)) 8 2 = 1) :=
  ⟨by decide +kernel, by decide +kernel, by decide +kernel⟩

-- ───────────────────────── device time

def withTime (f : TimeUnit → TimeUnit) (s : State) : State := { s with time := f s.time }

/-- With every cell stopped in FREERUN and in LOCKED, with a running cell, and in ACQUIRING with 16 s of estimates within 1 µs. -/
theorem witness_RelockAndTimeSet :
    (ManagerServed (demo {}) ∧ (demo {}).radioRunning = false ∧ (demo {}).time.st = .freerun) ∧
    (let s := demoR {} 0
     ManagerServed s ∧ s.radioRunning = false ∧ s.time.st ≠ .freerun) ∧
    (let s := demoR { cellC with st := .running } 0
     ManagerServed s ∧ s.radioRunning = true) ∧
    (let up := 1000000000000
     let d : Domain := { en := true, parent := some (6, 0), lastAnn := up, valid := 16, estimates := [(up, 0), (up - 16000000000, 999)] }
     let s := withTime (fun t => { t with st := .acquiring, doms := [(0, d)] }) (demo {})
     s.time.st = .acquiring ∧ s.qualified s.time.active = true ∧ (s.dom s.time.active).settled s.up = true) :=
  ⟨by decide +kernel, by decide +kernel, by decide +kernel, by decide +kernel⟩

theorem witness_TimeNowReads : ManagerServed (demo {}) := by decide +kernel

theorem witness_TimeStates :
    (let d : Domain := { en := true, slave := 1, parent := some (6, 0), lastAnn := 1000000000000 - 375000001 }
     let s := withTime (fun t => { t with doms := [(0, d)], st := .holdover }) (demoR {} 0)
     let sync := withTime (fun t => { t with doms := [(0, { d with lastSync := some 5 })] }) s
     s.subUp 0 0 = true ∧ s.slaveDomain 24 0 0 = some 0 ∧ ([0, 1].find? fun d => (s.dom d).en && (s.dom d).num == 24) = some 0 ∧
       (s.dom 0).lastSync = none ∧ (sync.dom 0).lastSync = some 5 ∧ (∀ d < 2, (s.dom d).en = true → (s.dom d).num ≠ 25) ∧
       (s.dom 0).parent ≠ none ∧ (s.dom 0).lastAnn + 375000000 < s.up ∧
       ManagerServed s ∧ s.qualified 0 = false ∧ s.radioRunning = false ∧ bits (BitVec.ofNat 64 9999999).toNat 23 0 ≤ 9999999) ∧
    (let s := withTime (fun t => { t with st := .holdover, doms := [(0, { en := true, parent := some (6, 0), lastAnn := 3600000000000, valid := 16 })] })
       { demoR {} 0 with up := 3600000000000 }
     s.time.st = .holdover ∧ s.time.holdoverAt + 3600000000000 ≤ s.up ∧ s.qualified 0 = true) ∧
    (demoR { cellC with st := .running } 0).radioRunning = true :=
  ⟨by decide +kernel, by decide +kernel, by decide +kernel⟩

theorem witness_PulsesCapturesAndSyncE :
    (ManagerServed (demo {}) ∧ 3 < 4 ∧ bits (BitVec.ofNat 64 1).toNat 1 0 ≠ 3 ∧ (BitVec.ofNat 64 1).toNat / 2 ^ 32 < ((demo {}).pulse 3).period ∧
      bits (BitVec.ofNat 64 3).toNat 1 0 = 3 ∧ ((demo {}).pulse 0).period ≤ (BitVec.ofNat 64 (1000000000 * 2 ^ 32)).toNat / 2 ^ 32) ∧
    (let s := withTime (fun t => { t with outs := [(0, { armed := true })], acc := BitVec.ofNat 96 (2000000000 * 2 ^ 32) }) (demo {})
     (s.pulse 0).armed = true ∧ (s.pulse 0).aT.toNat ≤ s.devTime) ∧
    (let s := withTime (fun t => { t with outs := [(0, { run := some (false, 1000000000, 100, 0) })], acc := BitVec.ofNat 96 (2000000000 * 2 ^ 32) }) (demo {})
     (s.pulse 0).run = some (false, 1000000000, 100, 0) ∧ (s.pulse 0).last < lastEdge s.devTime 1000000000 0) ∧
    (let s := demo {}
     let full := withTime (fun t => { t with caps := [(0, List.replicate 16 1)] }) s
     1 < 2 ∧ bit s.time.inCfg.toNat 1 = false ∧ (Assoc.get s.time.caps 1 []).length < 16 ∧ 16 ≤ (Assoc.get full.time.caps 0 []).length ∧
       Assoc.get full.time.caps 0 [] = 1 :: List.replicate 15 1 ∧ Assoc.get s.time.caps 0 [] = [] ∧ ManagerServed full) ∧
    (let s := withTime (fun t => { t with synceEn := true, synceLock := true, holdUntil := some 5 }) (demo {})
     s.time.synceEn = true ∧ s.time.synceLock = true ∧ s.time.holdUntil = some 5 ∧ 5 ≤ s.up) :=
  ⟨by decide +kernel, by decide +kernel, by decide +kernel, by decide +kernel, by decide +kernel⟩

-- ───────────────────────── burgees, scheduling

/-- A device whose burgee 1 is `g`. -/
def withB (g : Burgee) : State := { demo {} with burgees := [(0, { state := .active }), (1, g)], sched := {} }

theorem witness_BurgeeOperations :
    (∀ st ∈ [BState.free, .active, .draining, .quiet, .disabled, .wiped], let s := withB { state := st }
     ManagerServed s ∧ (s.cfg.burgee 1).isSome = true ∧ (s.burgee 1).opPending = false ∧ s.cfg.partOf 1 ≠ some 0 ∧ (s.burgee 1).state = st) ∧
    (let s := withB { state := .draining }
     (s.burgee 1).forcing = false ∧ (∀ c ∈ s.sched.cmds, c.2.burgee = 1 → c.2.stage ≠ .launched ∧ c.2.stage ≠ .copying ∧ c.2.stage ≠ .ended) ∧
       s.squareTags 1 = false ∧ (∀ o ∈ s.hub.outs, o.burgee ≠ 1) ∧ s.messagePending 1 = false) ∧
    ((withB { state := .draining, forcing := true, opPending := true }).burgee 1).forcing = true ∧
    ((withB { state := .disabled, wiping := true, opPending := true }).burgee 1).wiping = true :=
  ⟨by decide +kernel, by decide +kernel, by decide +kernel, by decide +kernel⟩

def launchTurn : Turn := { slot := 0, action := 1, kernelSlot := 0xFFFF, held := 4 }

def table1 : TurnTable := { board := 1, align := 0, guardUs := 0, turns := [launchTurn, { launchTurn with action := 0, kernelSlot := 0, held := 0 }] }

/-- The table of board 1 with the run `r`, and the commands `l` waiting. -/
def withTurn (r : TurnRun) (l : List (Nat × Cmd)) : State :=
  { demo {} with cfg := { cfg1 with turntables := [table1], boards := [{ board1 with tempo := true }] }, sched := { cmds := l, turns := [(1, r)] } }

def waitingCmd : Cmd := { cmd1 with stage := .eligible, members := [] }

def demoS (sched : Sched) : State := { demo {} with sched := sched }

/-- An idle turn before a launch turn, a turn whose debt takes all of it, one that a running command delays, an empty one and one that launches. -/
theorem witness_Turns :
    (let s := withTurn { pos := 1 } []
     s.cfg.turntable 1 = some table1 ∧ table1.board = 1 ∧ (table1.turns[(s.turnRun 1).pos]?.map (·.action)) = some 0 ∧
       table1.turns[((s.turnRun 1).pos + 1) % max 1 2]? = some launchTurn ∧ (s.turnRun 1).owner = none ∧ s.tempoSquares 1 ≠ 0 ∧
       (s.turnRun 1).due ≤ s.up ∧ s.sched.stopped = false ∧ s.pwr.issueStop = false) ∧
    (let s := withTurn { debts := [(0, 8)] } []
     (s.turnRun 1).owner = none ∧ 4 * turnNs ≤ Assoc.get (s.turnRun 1).debts 0 0 * 1000) ∧
    (let s := withTurn { cmd := some 1 } [(1, cmd1)]
     s.turnBusy (s.turnRun 1) = true) ∧
    (let s := withTurn {} []
     s.turnBusy (s.turnRun 1) = false ∧ ∀ c ∈ s.sched.cmds, s.eligible c.2 = false) ∧
    (let s := withTurn {} [(1, waitingCmd)]
     let r := s.turnRun 1
     let s0 := governStart 1 table1 r s
     let s2 := (s0.setTurn 1 ((s0.turnRun 1).next 2)).setTurn 1 { (s0.turnRun 1).next 2 with debts := Assoc.set r.debts 0 0 }
     s.turnBusy r = false ∧ s2.turnCmd table1 launchTurn = some waitingCmd ∧ s2.clear waitingCmd = true) :=
  ⟨by decide +kernel, by decide +kernel, by decide +kernel, by decide +kernel, by decide +kernel⟩

/-- The state and its fallback board of the deadline clauses. -/
def demoF : State :=
  { demo {} with
    cfg := { cfg1 with flagfalls := [{ board := 1, defaultUs := 10, minUs := 5, entries := [(0, 0), (0, 128)] }] }
    sched := { cmds := [(1, { waitingCmd with deadline := some 0 }), (2, { waitingCmd with deadline := some 0, fallback := 1 })] } }

/-- Slices that start with debts below and at 1,000 µs and one that ends; a forced command; fall points; a promotion, a miss, an overrun; a floor missed. -/
theorem witness_TurnsAndSlices :
    (∀ debt ∈ [999, 1000], let s := demoS { cmds := [(1, waitingCmd)], debts := [(debtKey 1 1, debt)] }
     Assoc.get s.sched.debts (debtKey 1 1) 0 = debt ∧ s.pickPair s.pairs [] = some waitingCmd) ∧
    (let x : Slice := { board := 1, burgee := 1, opened := 0, length := 1000000, paused := 0, pausedAt := none, taken := none }
     let s := demoS { slices := [x] }
     (s.sched.slices.find? fun x => x.board == 1 && x.pausedAt.isNone && !s.sliceRuns x && (s.sliceOver x || (s.nextIn x.board x.burgee).isNone)) = some x) ∧
    (let d := { waitingCmd with forced := true }
     let s := demoS { cmds := [(1, d)] }
     s.cmd 1 = some d ∧ s.eligible d = true ∧ s.atBoundary d = true ∧ s.cfg.turntable d.board = none ∧ s.clear d = true) ∧
    (let d := { waitingCmd with deadline := some 0 }
     demoF.cmd 1 = some d ∧ d.deadline = some 0 ∧ (demoF.fallEntry d).map (·.2) = some 0 ∧ d.isFallback = false ∧ d.status = none ∧ d.stage = .eligible) ∧
    (let d := { waitingCmd with deadline := some 0, fallback := 1 }
     demoF.cmd 2 = some d ∧ (demoF.fallEntry d).map (·.2) = some 128) ∧
    (let s := demoS { cmds := [(1, waitingCmd)] }
     s.latencyUs waitingCmd ≠ 0 ∧ waitingCmd.promoted = false ∧ waitingCmd.missed = false ∧ waitingCmd.waitedSince + s.latencyUs waitingCmd * 1000 ≤ s.up) ∧
    (cmd1.stage = .launched ∧ cmd1.status = none ∧ cmd1.launchAt + cmd1.boundUs * 1000 < (demo ctx1).up ∧ (cmd1.members.any fun m => m.started && !m.ended) = true) ∧
    (let s := demoS {}
     let r : Regulator := { part := 1, towerFloor := 1000, towerCeil := 1000, fabricFloor := 10, fabricCeil := 10, hostFloor := 10, hostCeil := 10, channels := 1, slots := 1 }
     let s := { s with cfg := { s.cfg with regulators := [r] } }
     s.sched.nextFloor ≤ s.devTime ∧ s.sched.nextMs ≤ s.devTime ∧
       ∀ p ∈ [64, 67], s.floorShort { part := 1, point := p, bytes := 1, byRadio := false, waiting := [1] } = true) :=
  ⟨by decide +kernel, by decide +kernel, by decide +kernel, by decide +kernel, by decide +kernel, by decide +kernel, by decide +kernel, by decide +kernel⟩

/-- Good rings of 64 entries at 0 and at 8192, bad ones at one place, a doorbell at the ring's last entry and one behind. -/
theorem witness_RingRegisters :
    (let g : Burgee := { state := .active, cplBase := 256 }
     let s := withB g
     let v : BitVec 64 := BitVec.ofNat 64 (2 ^ 31 + 6 * 2 ^ 16 + 6)
     s.hostSeen = true ∧ s.burgeeOf 7 = some 1 ∧ (s.burgee 1).en = false ∧ bit v.toNat 31 = true ∧
       s.ringsOk 1 { g with cplLog2 := 6, cmdLog2 := 6 } 6 6 = true ∧ s.ringsOk 1 { g with cplLog2 := 6, cmdLog2 := 6, cplBase := 0 } 6 6 = false) ∧
    (let g : Burgee := { state := .active, en := true, cmdLog2 := 6, doorbell := 64, cplWrite := 3 }
     let s := withB g
     (s.burgee 1).en = true ∧ bit (0 : BitVec 64).toNat 31 = false ∧ (64 - g.cmdRead).toNat ≤ 2 ^ g.cmdLog2.toNat ∧
       (g.doorbell - g.cmdRead).toNat ≤ (64 - g.cmdRead).toNat ∧ 2 ^ g.cmdLog2.toNat < (65 - g.cmdRead).toNat ∧ (63 - g.cmdRead).toNat < (g.doorbell - g.cmdRead).toNat ∧
       (3 - g.cplRead).toNat ≤ (g.cplWrite - g.cplRead).toNat ∧ (g.cplWrite - g.cplRead).toNat < (4 - g.cplRead).toNat) := by
  decide +kernel

/-- A command of each stage. -/
def demoC (d : Cmd) : State := demoS { cmds := [(1, d)], nextCmd := 2 }

theorem witness_CommandPath :
    (let s := withB { state := .active, en := true, cmdLog2 := 6, cplLog2 := 6, doorbell := 1 }
     s.mayRead 1 = true ∧ s.hubServes 0 64 false = true) ∧
    (let d := { waitingCmd with stage := .read, cls := 1 }
     let s := demoC d
     s.cmd 1 = some d ∧ s.badFlagFall d = false ∧ (s.noRights d || s.noBoardRights d) = false ∧ s.sched.lost.any (·.1 == d.board) = false ∧
       s.badFlagFall { d with fallback := 1 } = true ∧ s.noRights { d with cls := 0 } = true ∧ [(1, 6)].any (·.1 == d.board) = true) ∧
    (let d := { waitingCmd with stage := .waiting }
     let s := demoC d
     (s.tower.read s.cfg.key d.waitAddr 8).2 = false ∧
       semHolds (bits d.flags 2 1) (BitVec.ofNat 64 (leNat (s.tower.read s.cfg.key d.waitAddr 8).1)) d.waitValue = true ∧
       s.passesFor hubRequester d.burgee d.waitAddr 8 false = true) ∧
    (let d := { waitingCmd with stage := .energy, cls := 1, energyUj := 10 ^ 9 }
     let s := demoC d
     s.neverHeld d = false ∧ s.sched.stopped = false ∧ s.pwr.issueStop = false ∧
       ((s.spreadCharge (s.localCharge d) (d.maxDurUs * 1000)).any fun e => decide (s.claimLimit 1 < e.2)) = true) ∧
    (let d := { waitingCmd with stage := .energy, cls := 1 }
     let s := demoC d
     s.localCharge d = 0 ∧ ∀ e ∈ s.spreadCharge (s.localCharge d) (d.maxDurUs * 1000), e.2 ≤ s.claimLimit 1) ∧
    (let s := demoC waitingCmd
     s.inState 1 [.active] = true ∧ (s.burgee 1).cutHold = false ∧ s.sched.stopped = false) ∧
    (let d := { waitingCmd with stage := .copying, opcode := 2, copyBusy := 32, copyLen := 64 }
     let s := demoC d
     d.copyBusy ≠ 0 ∧ s.hostSeen = true ∧ (∀ o ∈ s.hub.outs, ¬ (o.kind = 4 ∧ o.cmd = 1 ∧ o.opcode = 1)) ∧ [Code.form 0 false].length * 32 = d.copyBusy ∧
       s.cfg.leaseOf d.burgee (d.devAddr + d.copyPos) = none ∧ s.hubServes (d.devAddr + d.copyPos) d.copyBusy true = true ∧
       { d with copyOut := true }.copyOut = true) ∧
    (let d := { waitingCmd with stage := .ended }
     let s := demoC d
     s.overFor 1 d = true ∧ s.completionPasses d = true ∧ d.sub = none ∧ d.neural = none) :=
  ⟨by decide +kernel, by decide +kernel, by decide +kernel, by decide +kernel, by decide +kernel, by decide +kernel, by decide +kernel, by decide +kernel⟩

/-- Accesses that the controllers serve at once, and one behind another that waits; offsets at both ends of the mailbox buffer. -/
theorem witness_HostAccesses :
    (let s := demo {}
     s.memServed = true ∧ towerWindow - 4 + 4 ≤ towerWindow ∧ s.tow.hostWait = [] ∧ s.hostPasses (.read (towerWindow - 4) 4) = true ∧
       s.hostPasses (.write 0 [1] false) = true ∧ s.hostSeen = true ∧ 0x1FFF8 + 8 ≤ 0x20000 ∧ 0x1FFF8 % 8 = 0 ∧ ManagerServed s ∧ 255 < 256 ∧
       2047 < 2048 ∧ 0 < 8 ∧ 0x1050 + 8 ≤ barSize 4) ∧
    (let s := demo {}
     let s := { s with tow := { s.tow with hostWait := [.read 0 4] } }
     s.memServed = true ∧ s.tow.hostWait ≠ []) ∧
    (let s := { demo {} with msix := [(9, { pend := true })] }
     (Assoc.get s.msix 9 {}).pend = true) :=
  ⟨by decide +kernel, by decide +kernel, by decide +kernel⟩

theorem witness_MailboxRequests :
    (let s := demo {}
     s.hostSeen = true ∧ s.mbox.st ≠ .running ∧ s.mailboxRefuses 0x0001 = none ∧ s.mailboxRefuses 0x0110 = some mbWrongState ∧ knownRequests.contains 0x9999 = false) ∧
    (let s := { demo {} with mbox := { st := .running } }
     s.hostSeen = true ∧ s.mbox.st = .running) ∧
    (∀ code ∈ [0x0001, 0x0002, 0x0004, 0x0005, 0x0102, 0x0120, 0x0130, 0x0202, 0x0300, 0x0301, 0x0306], MailboxFree (demo {}) code) :=
  ⟨by decide +kernel, by decide +kernel, by decide +kernel⟩

-- ───────────────────────── Halyard, boot, keys, hoist, energy, the fleet

theorem mul_zero_left : ∀ b : Byte, Code.mul 0 b = 0 := by decide +kernel

theorem mul_zero_right : ∀ b : Byte, Code.mul b 0 = 0 := by decide +kernel

theorem double_zero (x y : Byte) : Code.double 0 0 x y = none := by
  simp only [Code.double, List.findSome?_eq_none_iff]
  intro j _ i _
  have z : (0 : Byte) ^^^ 0 = 0 := by decide
  unfold Code.pairAt
  simp only [mul_zero_right, z, mul_zero_left, ne_eq, not_true_eq_false, false_and, if_false]

/-- An error in three symbols of the all-zero granule that no error in two symbols explains. -/
def upset3 : Upset := [(33, 3), (34, 5), (35, 6)]

theorem upset3_uncorrectable (g : Granule) (hg : g = ⟨0, 0x06050300⟩) : Code.decode g = .uncorrectable := by
  have h1 : Code.residue g ≠ 0 := by subst hg; decide +kernel
  have h2 : Code.residue g ≠ Code.marker := by subst hg; decide +kernel
  have s0 : Code.syndrome g 0 = 0 := by subst hg; decide +kernel
  have s1 : Code.syndrome g 1 = 0 := by subst hg; decide +kernel
  have s2 : Code.syndrome g 2 = 34 := by subst hg; decide +kernel
  have s3 : Code.syndrome g 3 = 238 := by subst hg; decide +kernel
  have m0 : Code.markerSyn 0 = 5 := by decide +kernel
  have m1 : Code.markerSyn 1 = 90 := by decide +kernel
  have m2 : Code.markerSyn 2 = 87 := by decide +kernel
  have m3 : Code.markerSyn 3 = 170 := by decide +kernel
  have h3 : Code.single (0 ^^^ 5) (0 ^^^ 90) (34 ^^^ 87) (238 ^^^ 170) 36 = none := by decide +kernel
  have h4 : Code.single 0 0 34 238 36 = none := by decide +kernel
  unfold Code.decode
  simp only [h1, h2, if_false, s0, s1, s2, s3, m0, m1, m2, m3, h3, h4, double_zero]

def withHly (h : Halyard) : State := { demo {} with hly := h }

/-- A device in the boot state at `step`, with the pins high. -/
def booting (step : Nat) : State := { State.reset with pwr := { State.reset.pwr with step := step } }

/-- A feed that waits, one that is overdue and none; a timer that has run out; a page of ELOG_READ; a counted occurrence; an hour that has begun. -/
theorem witness_WatchdogAndRecorder :
    (let s := withHly { wdogEn := true, wdogMs := 1000, feedPend := some (0, 1000000) }
     s.hostSeen = true ∧ s.pwr.state = .active ∧ s.hly.wdogEn = true ∧ bit (0 : BitVec 64).toNat 32 = false ∧ bit (BitVec.ofNat 64 (2 ^ 32 + 100)).toNat 32 = true ∧
       100 ≤ bits (BitVec.ofNat 64 (2 ^ 32 + 100)).toNat 31 0 ∧ s.awake = true ∧ s.hly.wdogAt + s.hly.wdogMs * 1000000 ≤ s.up ∧
       s.hly.feedPending s.up = false ∧ s.hly.feedLate s.up = true ∧ ({ s.hly with feedPend := some (s.up, 1) }).feedPending s.up = true) ∧
    (let s := { demo {} with tow := { sramCorr := 1 } }
     s.hly.corrDue ≤ s.up ∧ s.tow.sramCorr ≠ 0) ∧
    (let s := { demo {} with elog := { write := 64, read := 32 } }
     ManagerServed s ∧ (64 - BitVec.ofNat 32 s.elog.read).toNat ≤ s.elog.write - s.elog.read ∧
       s.elog.write - s.elog.read < (65 - BitVec.ofNat 32 s.elog.read).toNat) ∧
    (let s := { demo {} with elog := { buckets := [(0x2001, { tokens := 1000000000, at_ := 0, burst := 100, rate := 50, count := 3, first := 0, last := 0 })] } }
     (s.bucketOf 0x2001).count ≠ 0 ∧ (s.bucketOf 0x2001).gained s.up = true) ∧
    (let s := { demo {} with time := { State.reset.time with acc := BitVec.ofNat 96 (hourNs * 2 ^ 32) } }
     s.devTime / hourNs ≠ s.elog.nextHour) :=
  ⟨by decide +kernel, by decide +kernel, by decide +kernel, by decide +kernel, by decide +kernel⟩

/-- The SRAM granule of the fault clause. -/
theorem witness_SramUncorrectable : (demo {}).awake = true ∧ 0 < sramSize ∧
    Code.decode (Code.disturb ((demo {}).sram.granule 0) upset3) = .uncorrectable :=
  ⟨by decide +kernel, by decide +kernel, upset3_uncorrectable _ (by decide +kernel)⟩

theorem witness_FirmwareAndLog :
    (let s := { demo {} with
       mbox := { buf := putCells [] 0 (leBytes 8 0 ++ leBytes 4 64) }, cfg := { cfg1 with regions := [{ part := 0, id := 2, mode := 0, mask := 1, harq := false, watchOk := true, exposed := true, first := 0, units := 1, burgee := 0 }] } }
     MailboxFree s 0x0100 ∧ fieldAt (cellsAt s.mbox.buf 0 16) 0 8 = 0 ∧ fieldAt (cellsAt s.mbox.buf 0 16) 8 4 = 64 ∧ s.hly.fw ≠ .writing ∧
       s.cfg.owns 0 0 64 = true ∧ (readDev 0 64 s).1.2 = false) ∧
    (MailboxFree (withHly { fw := .staged }) 0x0101 ∧ (withHly { fw := .staged }).hly.fw = .staged) ∧
    ((withHly { fw := .writing, fwLen := 1 }).hly.fw = .writing ∧ [(7 : Byte)].length = (withHly { fw := .writing, fwLen := 1 }).hly.fwLen) ∧
    (let s := { withHly { recBegun := true, recLen := 4, recGot := 0 } with pwr := { State.reset.pwr with state := .halted, recovery := true } }
     MailboxFree s 0x0110 ∧ MailboxFree s 0x0111 ∧ MailboxFree s 0x0112 ∧ s.hly.recBegun = true ∧ 17 ≤ 20 ∧ 20 ≤ 65536 ∧
       fieldAt (cellsAt s.mbox.buf 0 20) 0 4 = s.hly.recGot ∧ s.hly.recGot + ((cellsAt s.mbox.buf 0 20).drop 16).length ≤ s.hly.recLen) ∧
    (let s := { withHly { recBegun := true, recLen := 4, recGot := 1 } with pwr := { State.reset.pwr with state := .halted, recovery := true } }
     fieldAt (cellsAt s.mbox.buf 0 20) 0 4 ≠ s.hly.recGot) ∧
    (let s := { demo {} with mbox := { buf := putCells [] 0 (leBytes 4 131008 ++ leBytes 4 64) } }
     MailboxFree s 0x0121 ∧ fieldAt (cellsAt s.mbox.buf 0 8) 0 4 = 131008 ∧ fieldAt (cellsAt s.mbox.buf 0 8) 4 4 = 64 ∧ 131008 + 64 ≤ 131072 ∧
       MailboxFree s 0x0122) := by decide +kernel

def withPwr (p : Power) : State := { demo {} with pwr := p }

theorem witness_PinsAndFlush :
    (State.reset.pwr.resetN = true ∧ State.reset.pwr.state ≠ .off ∧ 999 < 1000 ∧ State.reset.elog.flush = none) ∧
    (let p := { State.reset.pwr with resetN := false, inReset := true, held := some 1 }
     (withPwr p).pwr.resetN = false ∧ (withPwr p).elog.flush = none ∧ (withPwr p).pwr.held = some 1 ∧ (withPwr p).pwr.pwrFailN = true ∧ (withPwr p).pwr.thermtripN = true) ∧
    (let p := { State.reset.pwr with pwrFailN := false, inReset := true, held := some 2 }
     (withPwr p).pwr.pwrFailN = false ∧ (withPwr p).pwr.resetN = true ∧ (withPwr p).pwr.held = some 2) ∧
    ((booting 5).pwr.pwrFailN = true ∧ (booting 5).pwr.state ≠ .off ∧ (booting 5).pwr.inReset = false ∧ 5 ≤ (booting 5).pwr.step ∧ (booting 4).pwr.step < 5) ∧
    ((demo {}).awake = true ∧ (demo {}).pwr.thermtripN = true ∧ (sensorDie 94).isSome = true ∧ (demo {}).pwr.clockLost = false ∧
      ¬ ((demo {}).pwr.state = .boot ∧ (demo {}).pwr.step ≤ 3) ∧ (withPwr { State.reset.pwr with inReset := true }).awake = false) ∧
    (let s := { booting 3 with up := 10000000000 }
     s.pwr.state = .boot ∧ s.pwr.step = 3 ∧ s.pwr.refWait + 10000000000 ≤ s.up) ∧
    ((demo {}).booted = true ∧ 3 < 4 ∧ (demo {}).pwr.disabledModules.contains 3 = false) ∧
    (let s := { demo {} with elog := { flush := some (0, 0) } }
     s.elog.flush = some (0, 0) ∧ s.pwr.held = none ∧ s.pwr.thermtripN = true) :=
  ⟨by decide +kernel, by decide +kernel, by decide +kernel, by decide +kernel, by decide +kernel, by decide +kernel, by decide +kernel, by decide +kernel⟩

/-- Each step, every channel trained, and a channel before its first and its last try. -/
theorem witness_BootSteps :
    (∀ k ∈ [1, 2, 3, 4, 5, 6, 7], (booting k).pwr.state = .boot ∧ (booting k).pwr.inReset = false ∧ (booting k).pwr.step = k) ∧
    (booting 2).norValid = true ∧ { booting 2 with hly := { norFactory := false } }.norValid = false ∧ 41 < 42 ∧
    ((booting 6).pwr.spareEn = false ∧ bit ((booting 6).mram mramO8 1) 3 = false ∧ ∀ e ∈ [0, 10], e < 11) ∧
    (let s := { booting 4 with tow := { chans := (List.range 42).map fun ch => (ch, { trained := 7 }) } }
     s.trainedAll = true) ∧
    (∀ n ∈ [0, 1, 2], let s := (booting 4).setChan 41 { trained := 6, tries := n }
     (s.chan 41).trained < 7 ∧ (if n < 2 then (s.chan 41).tries < 2 else 2 ≤ (s.chan 41).tries)) ∧
    (2 + [1, 3].length = 4 ∧ [1, 3].Nodup ∧ ∀ m ∈ [1, 3], m < 4) :=
  ⟨by decide +kernel, by decide +kernel, by decide +kernel, by decide +kernel, by decide +kernel, by decide +kernel, by decide +kernel, by decide +kernel⟩

/-- A token request with each operation code. -/
theorem witness_OwnerTokens : ∀ op ∈ [opEnroll, opRevoke, opEpoch, opDeploy, opRelease, opReturn, opScrap],
    let s := { demo {} with mbox := { buf := putCells [] 0 (leBytes 1 op) } }
    MailboxFree s 0x0200 ∧ MailboxFree s 0x0201 ∧ fieldAt (cellsAt s.mbox.buf 0 1) 0 1 = op := by decide +kernel

theorem witness_Attestation :
    ((booting 8).pwr.state ≠ .idle ∧ (booting 8).pwr.state ≠ .active) ∧
    (let s := withPwr { State.reset.pwr with state := .halted }
     s.hostSeen = true ∧ s.pwr.state ≠ .idle ∧ s.pwr.state ≠ .active) ∧
    ((demo {}).hostSeen = true ∧ (demo {}).pwr.state = .active ∧ (demo {}).sec.lc ≠ .blank ∧ (demo {}).sec.lc ≠ .scrapped) ∧
    (let s := { demo {} with sec := { lc := .blank } }
     s.hostSeen = true ∧ s.pwr.state = .active ∧ s.sec.lc = .blank) := by decide +kernel

def withHoist (h : Hoist) : State := { demo {} with hoist := h }

/-- Whether an image passes rests on its signature, which is opaque; a short one is refused. -/
theorem witness_HoistOperation :
    (let s := demo {}
     ManagerServed s ∧ s.hoistBusy = false ∧ s.sec.lc = .provisioned ∧ s.pwr.state = .active ∧ s.radioRunning = false) ∧
    ((withHoist { stat := .copying }).hoistBusy = true ∧ (withHoist { stat := .copying }).hoist.stat = .copying ∧
      ([] : List Byte).length = (withHoist { stat := .copying }).hoist.len.toNat) ∧
    ((withHoist { stat := .verifying, image := [1] }).hoist.stat = .verifying) ∧
    (let s := withHoist { stat := .staging, held := [1] }
     s.hoist.stat = .staging ∧ s.hoist.clearing = false ∧ s.hoist.switching = false ∧ s.hoist.holdSince + 1000000000 ≤ s.up ∧
       { s with sched := {} }.executing s.hoist.held = false ∧ s.hoist.toSwitch = []) ∧
    (let s := withHoist { stat := .staging, switching := true, toSwitch := [1] }
     s.hoist.switching = true ∧ s.hoist.toSwitch = [1] ∧ (s.turnRun 1).pos = 0 ∧ (s.turnRun 1).due ≤ s.up) ∧
    (let s := withHoist { stat := .staging, switching := true, toSwitch := [1, 2] }
     s.hoist.switching = true ∧ 1 ∈ s.hoist.toSwitch ∧ (s.hoist.toSwitch.any (· != 1)) = true) ∧
    ((withHoist { wiping := [(0, 1)] }).hoist.wiping ≠ []) ∧
    (∀ b ∈ (withB { state := .free }).cfg.burgees, ((withB { state := .free }).burgee b.burgee).state = .free) ∧
    (withHoist { clearing := true, stat := .staging }).hoist.clearing = true :=
  ⟨by decide +kernel, by decide +kernel, by decide +kernel, by decide +kernel, by decide +kernel, by decide +kernel, by decide +kernel, by decide +kernel, by decide +kernel⟩

theorem witness_HoistRefused : ∃ k c, (withHoist { stat := .verifying, image := [1] }).verify = .refused k c := ⟨_, _, rfl⟩

theorem witness_PowerRegistersTakeEffectAtWindows :
    ManagerServed (demo {}) ∧ (100 ≤ bits (BitVec.ofNat 64 100).toNat 15 0 ∧ bits (BitVec.ofNat 64 1500).toNat 15 0 ≤ 1500) ∧
    (bits (BitVec.ofNat 64 99).toNat 15 0 < 100 ∧ 1500 < bits (BitVec.ofNat 64 1501).toNat 15 0) ∧
    (bits (BitVec.ofNat 64 18000).toNat 31 0 ≤ 18000 ∧ 18000 < bits (BitVec.ofNat 64 18001).toNat 31 0) ∧
    (let s := { demo {} with energy := { started := true } }
     s.energy.started = true ∧ s.energy.due ≤ s.up ∧ (List.replicate 9 0).length = 9) :=
  ⟨by decide +kernel, by decide +kernel, by decide +kernel, by decide +kernel, by decide +kernel⟩

theorem witness_EnergyAndSensors :
    (let s := { demo {} with energy := { started := true } }
     s.energy.started = true ∧ s.energy.due ≤ s.up ∧ s.energy.recDue ≤ s.up ∧ s.pwr.state = .active ∧ s.awake = true ∧ s.hly.scanDue ≤ s.up ∧
       s.hly.canaryDue ≤ s.up) ∧
    ((List.replicate 96 (1050 : Int)).length = 96 ∧ (List.replicate 6 (100 : Int)).length = 6 ∧ (List.replicate 48 0).length = 48 ∧
      (List.replicate 39 0).length = 39 ∧ 8 < 9) ∧
    ((demo {}).pwr.state ≠ .boot ∧ 700 ≤ 700 ∧ 820 ≤ 820 ∧ 700 % 5 = 0 ∧ 820 % 5 = 0 ∧ (demo {}).energy.avsAt = none) :=
  ⟨by decide +kernel, by decide +kernel, by decide +kernel⟩

/-- A member of a fleet, with its link to device 6 up. -/
def fleet (m : Muster) : State := { withLink { st := .up } with muster := m }

theorem witness_MusterMembership :
    (let s := fleet { st := .member, members := [5, 6] }
     s.pwr.state = .active ∧ s.muster.hbDue ≤ s.up ∧ (takeMgmt 0x50 [1, 900, flagItem false, flagItem false] s).hasUp 6 = true ∧ s.isMember = true ∧
       6 ≠ s.deviceId ∧ 6 ∈ s.muster.members ∧ 1023 < 1024 ∧ 7 ∉ s.muster.members ∧ 7 ≠ s.deviceId) ∧
    (let s := fleet { st := .member, members := [5, 6] }
     let u := suspectOf 6 5 (takeMgmt 0x51 [6, flagItem false] s)
     quorum (u.quorumSet 6).length ≤ (u.suspectedBy 6).length) ∧
    (let s := fleet { st := .member, members := [5, 6] }
     let items := fun boot => [boot, (7 : BitVec 128).toNat, flagItem false]
     ((takeMgmt 0x54 (items 0) s).link 0).st = .up ∧ s.refusesJoin 6 0 false = true ∧ s.refusesJoin 7 0 false = false) ∧
    (let s := fleet { st := .notAdmitted }
     s.deviceId < 1024 ∧ s.isMember = false ∧ s.pwr.state = .active) ∧
    (let s := fleet { st := .member, lowSince := some 0 }
     s.muster.lowSince = some 0 ∧ 0 + 2000000 ≤ s.up ∧ s.isMember = true) ∧
    (let s := withLink { st := .off, fencedAt := some 0 }
     (s.link 0).fencedAt = some 0 ∧ 0 + 60000000000 ≤ s.up ∧ s.muster.members.contains (((s.linkRec 0).map (·.peer)).getD 1024) = false) :=
  ⟨by decide +kernel, by decide +kernel, by decide +kernel, by decide +kernel, by decide +kernel, by decide +kernel⟩

theorem witness_LeavingAndHealth :
    (let s := fleet { st := .member, members := [5, 6], leaves := [(7, 700)] }
     s.isMember = true ∧ 6 ∈ s.muster.members ∧ s.muster.ledger.length < 2 ∧ (∀ o ∈ s.muster.leaves, o.1 ≠ 6 → 700 < o.2 ∨ (o.2 = 700 ∧ 6 < o.1))) ∧
    (∀ l ∈ [[5, 6], [5, 6, 7, 8]], let s := fleet { st := .member, members := l, leaveAt := some 0 }
     s.muster.leaveAt ≠ none ∧ 6 ∈ (takeMgmt 0x57 [s.deviceId] s).quorumSet s.deviceId ∧ 0 + 10000000 ≤ s.up) ∧
    (rackOf 6 = rackOf (demo {}).deviceId ∧ rackOf 64 ≠ rackOf (demo {}).deviceId) ∧
    (let s := { demo {} with muster := { ledger := [(6, 0)] }, time := { State.reset.time with acc := BitVec.ofNat 96 (3600000000000 * 2 ^ 32) } }
     (s.muster.ledger.any fun e => decide (e.2 + 3600000000000 ≤ s.devTime)) = true) ∧
    (let s := fleet { st := .benched, health := 300 }
     s.muster.st = .benched ∧ 300 ≤ s.muster.health ∧ s.muster.since300 + 600000000000 ≤ s.up) ∧
    (let s := fleet { st := .member }
     MailboxFree s 0x0302 ∧ s.isMember = true ∧ s.muster.leaving = false ∧ s.booted = true ∧ s.halted = false ∧ s.muster.healthDue ≤ s.up) ∧
    (let s := fleet { st := .expelled }
     MailboxFree s 0x0303 ∧ s.muster.st = .expelled) ∧
    (let s := fleet { st := .member, health := 200 }
     s.nextBand = 2 ∧ s.nextBand ≠ s.muster.band) ∧
    (let s := { demo {} with energy := { started := true, common := 1 }, cfg := {}, ctxs := [] }
     let l := List.replicate 20 0
     s.cellOf l 0 = some 0 ∧ l.length = 20 ∧ s.mayTest 0 = true ∧ s.booted = true ∧ s.halted = false ∧ s.muster.telltale = none ∧
       ∀ p ∈ List.range 180, s.mayTest p = true → ∀ k ∈ s.cellOf l p, (s.tellCell 0).longer (s.tellCell k) = true) ∧
    (∀ again ∈ [true, false], let t : Telltale := { psq := 0, cell := 0, rerun := again, start := 0 }
     let s := { demo {} with muster := { telltale := some t } }
     s.muster.telltale = some t ∧ t.start + 250000 ≤ s.up ∧ s.lastDay (s.tellCell t.cell).fails = []) :=
  ⟨by decide +kernel, by decide +kernel, by decide +kernel, by decide +kernel, by decide +kernel, by decide +kernel, by decide +kernel, by decide +kernel,
    by decide +kernel, by decide +kernel⟩

def cut1 (status : Nat) (l : List Nat) : Cut := { burgee := 1, timeout := 10, devices := l, ready := [], begun := 0, status := status }

def withCut (c : Cut) : State :=
  { withB { state := .active, cutHold := true } with muster := { cuts := [(1, c)] }, mbox := { buf := putCells [] 0 (leBytes 4 1) } }

theorem witness_CheckpointCuts :
    (let s := { withB { state := .active } with mbox := { buf := putCells [] 0 (leBytes 4 1 ++ leBytes 4 1 ++ leBytes 4 60000 ++ leBytes 4 0 ++ leBytes 4 32) } }
     let body := cellsAt s.mbox.buf 0 144
     MailboxFree s 0x0304 ∧ fieldAt body 0 4 = 1 ∧ fieldAt body 4 1 = 1 ∧ fieldAt body 8 4 = 60000 ∧ s.deviceId ∈ bitList 1024 (fieldAt body 16 128) ∧
       s.muster.cuts = [] ∧ s.inState 1 [.active] = true ∧ s.cfg.partOf 1 ≠ some 0 ∧ Assoc.find s.muster.cuts 2 = none) ∧
    (let c := cut1 cutDraining [3, 5]
     let s := withCut c
     Assoc.find s.muster.cuts 1 = some c ∧ (takeMgmt 0x59 [1] s).quietNow 1 = true ∧ c.coordinator ≠ s.deviceId ∧
       c.forming = true ∧ c.begun + c.timeout * 1000000 ≤ s.up) ∧
    (let c := { cut1 cutReadySent [5, 6] with ready := [5] }
     let s := withCut c
     6 ≠ s.deviceId ∧ c.coordinator = s.deviceId ∧ c.status = cutReadySent ∧ 6 ∈ c.devices ∧ ∀ d ∈ c.devices, d = 6 ∨ d ∈ c.ready) ∧
    (let s := withCut (cut1 cutHeld [5])
     MailboxFree s 0x0305 ∧ Assoc.find s.muster.cuts (fieldAt (cellsAt s.mbox.buf 0 4) 0 4) = some (cut1 cutHeld [5]) ∧ (cut1 cutHeld [5]).status = cutHeld) :=
  ⟨by decide +kernel, by decide +kernel, by decide +kernel, by decide +kernel⟩

-- ───────────────────────── the block as a whole

/-- A queue with a command at its front, the empty one, and a state in which no link sends. -/
theorem witness_StepRunsTheFrontCommand :
    { State.reset with pending := [.esmcSend, .peakPace] }.pending = .esmcSend :: [.peakPace] ∧ State.reset.pending = [] ∧ State.reset.hub.waiting = [] ∧
    (∀ l ∈ [0, 71], (State.reset.link l).st ≠ .up) := ⟨by decide +kernel, by decide +kernel, by decide +kernel, by decide +kernel⟩

/-- The step of the reset state: the invariants' hypotheses hold of it. -/
theorem witness_MemoriesStayCanonical : State.reset.memoriesWf = true ∧ ∃ t, step State.reset = .next t := ⟨by decide +kernel, _, rfl⟩

theorem witness_CommandsLeaveTheQueueAlone : ∃ t, exec (.pwrCapWrite none 100) (demo {}) = .next t := ⟨_, rfl⟩

theorem witness_FusesOnlyAdvance : ∃ t, step { demo {} with pending := [.pwrCapWrite none 100] } = .next t := ⟨_, rfl⟩

theorem witness_RegisterCommandsTouchNoMemory : registerOnly (.pwrCapWrite none 100) = true ∧ ∃ t, exec (.pwrCapWrite none 100) (demo {}) = .next t :=
  ⟨rfl, _, rfl⟩

theorem witness_HostWritesToTowerMemory :
    (match exec (.hostMemWrite 32 (List.replicate 32 1) false) (demo {}) with
     | .next _ => true
     | _ => false) = true ∧ (demo {}).tower.wf = true ∧ 32 % 32 = 0 ∧
    (List.replicate 32 (1 : Byte)).length = 32 ∧ (demo {}).tow.hostWait = [] ∧ (demo {}).hostPasses (.write 32 (List.replicate 32 1) false) = true :=
  ⟨by decide +kernel, by decide +kernel, rfl, rfl, rfl, by decide +kernel⟩

-- ───────────────────────── terms that WellFormed refuses, one for each check

def flit16 : Flit := { ctl := ctl 0, slots := List.replicate 16 (Code.form 0 false) }

def frame1 : UplaneFrame where
  prach := false
  port := 0
  sub := 0
  fcsOk := true
  ecpri := true
  frag := false
  vid := 0
  pcp := 0
  eaxc := 0
  uplink := true
  seqId := 0
  slot := 0
  symbol := 0
  gridOk := true
  prbs := []
  poison := []
  power := 0
  whole := true

theorem test_wellFormed_accepts : wellFormed (.add r0 f0) = true ∧ wellFormed (.fabricLoad (req1 0)) = true ∧ wellFormed (.subCommand ⟨⟨1, 0⟩, sub1⟩) = true ∧
    wellFormed (.flitReceive 125 flit16 0) = true ∧ wellFormed (.requestForward msg1) = true := by
  decide +kernel

theorem test_ctxOk : wellFormed (.add ⟨160, 0⟩ f0) = false ∧ wellFormed (.add ⟨0, 8⟩ f0) = false := by decide
theorem test_deviceOk : wellFormed (.fabricLoad { req1 0 with src := 1024 }) = false := by decide
theorem test_reqOk : wellFormed (.fabricStore { req1 0 with burgee := 256 }) = false ∧ wellFormed (.cas { req1 0 with seq := 2 ^ 24 }) = false ∧
    wellFormed (.radd { req1 0 with fmt := 8 }) = false := by decide
theorem test_turnOk : wellFormed (.subCommand ⟨⟨2 ^ 24, 0⟩, sub1⟩) = false ∧ wellFormed (.subCommand ⟨⟨1, 16384⟩, sub1⟩) = false ∧
    wellFormed (.subCommandCancel ⟨6, 256, ⟨1, 0⟩⟩ 1) = false := by decide
theorem test_flitOk : wellFormed (.flitReceive 126 flit16 0) = false ∧ wellFormed (.flitReceive 0 { flit16 with slots := [] } 0) = false ∧
    wellFormed (.flitReceive 0 { flit16 with ctl := [] } 0) = false := by decide +kernel
theorem test_respOk :
    (let r : FabResp := { src := 6, tag := 1, status := 16, path := 0, aflags := 0, payload := [], combined := false, gen := none }
     wellFormed (.readData r) = false ∧ wellFormed (.atomicData { r with status := 0, aflags := 256 }) = false ∧
       wellFormed (.acknowledgment { r with status := 0, src := 1024 }) = false) := by decide
theorem test_msgOk : wellFormed (.requestForward { msg1 with dst := 1024 }) = false ∧ wellFormed (.requestForward { msg1 with vc := 4 }) = false ∧
    wellFormed (.requestForward { msg1 with held := 3 }) = false ∧ wellFormed (.requestForward { msg1 with parts := List.replicate 17 part1 }) = false := by
  decide +kernel
theorem test_accessOk : wellFormed (.registerWrite ⟨none, 1, 0, 8⟩ 0) = false ∧ wellFormed (.rcRegisterRead ⟨none, 0, 0, 12⟩) = false := by decide
theorem test_subOk : wellFormed (.subCommand ⟨⟨1, 0⟩, { sub1 with src := 1024 }⟩) = false ∧ wellFormed (.subCommand ⟨⟨1, 0⟩, { sub1 with board := 4096 }⟩) = false ∧
    wellFormed (.subCommand ⟨⟨1, 0⟩, { sub1 with burgee := 256 }⟩) = false ∧ wellFormed (.subCommand ⟨⟨1, 0⟩, { sub1 with cls := 4 }⟩) = false ∧
    wellFormed (.subCommand ⟨⟨1, 0⟩, { sub1 with above := [{ level := 0, split := 1, reduceRoot := 0, reduceRemote := false, me := 0, members := [] }] }⟩) = false := by
  decide
theorem test_upsetOk : wellFormed (.halyardSramScrub [(36, 1)]) = false ∧ wellFormed (.dataCacheLineFill r0 0 [[(36, 1)]]) = false := by decide
theorem test_prbOk : wellFormed (.downlinkUplaneSend 0 0 0 0 [{ vals := [], poison := false }]) = false := by decide
theorem test_frameOk : wellFormed (.ecpriUplaneReceive { frame1 with port := 8 }) = false ∧ wellFormed (.ecpriUplaneReceive { frame1 with sub := 4 }) = false ∧
    wellFormed (.ecpriUplaneReceive { frame1 with symbol := 14 }) = false := by decide
theorem test_numbers : wellFormed (.hoistBoardSwitch 4096) = false ∧ wellFormed (.shapeSwitch 160 0) = false ∧ wellFormed (.shapeSwitch 0 5) = false ∧
    wellFormed (.accessRequestIssue 180) = false ∧ wellFormed (.heldRequestAdmit 672) = false ∧ wellFormed (.towerPatrolScrub 42 []) = false ∧
    wellFormed (.scratchpadScrub 0 32 []) = false ∧ wellFormed (.operationWindowWrite r0 16 0 headerG) = false ∧ wellFormed (.linkProbe 72) = false ∧
    wellFormed (.engineFailover 9 true 0) = false ∧ wellFormed (.linkMargin 0 4) = false ∧ wellFormed (.codeBlockDecoded 4 0 true 1 ⟨[], []⟩) = false := by
  decide +kernel
theorem test_hostNumbers : wellFormed (.cellDoorbell none 256 0) = false ∧ wellFormed (.fhLinkDown 8 0) = false ∧ wellFormed (.select none 2) = false ∧
    wellFormed (.oneShotFire 4) = false ∧ wellFormed (.timeInEdge 2 true) = false ∧ wellFormed (.enable none 256) = false ∧ wellFormed (.turnStart 4096) = false ∧
    wellFormed (.msixUnmask none 2048) = false ∧ wellFormed (.memStatus none 65536) = false ∧ wellFormed (.ucieModuleDown 4) = false := by decide
theorem test_lengths : wellFormed (.linkMarginMeasure 0 []) = false ∧ wellFormed (.energyWindowStart []) = false ∧ wellFormed (.sensorScan [] [] []) = false ∧
    wellFormed (.canaryScan []) = false ∧ wellFormed (.railFault 9 0) = false ∧ wellFormed (.thermtrip 96) = false ∧ wellFormed (.telltaleStart 0 []) = false := by
  decide
theorem test_fleetNumbers : wellFormed (.heartbeat 1024 0 0 false false) = false ∧ wellFormed (.heartbeat 0 (2 ^ 32) 0 false false) = false ∧
    wellFormed (.heartbeat 0 0 1001 false false) = false ∧ wellFormed (.expel 0 5 0) = false ∧ wellFormed (.join 72 0 0 0 false) = false ∧
    wellFormed (.telltaleStart 0 (List.replicate 20 4)) = false ∧ wellFormed (.leave 0 1001) = false := by decide

-- ───────────────────────── single steps; expected results by hand from the rules

/-- R462: 2^63 + 2^63 wraps to zero, and the source is also the destination. -/
theorem test_add_wraps :
    (let i : Instr := .add r0 { f0 with sd := 1, sa := 1, sb := 1 }
     match exec i (coding i (demo (ctx1.setReg 1 (BitVec.ofNat 64 (2 ^ 63))))) with
     | .next t => (t.ctx 0 0).reg 1 == 0 && (t.ctx 0 0).pc == 8
     | _ => false) = true := by decide +kernel

/-- R462: SRAI keeps the sign; bits above [5:0] of the count do not matter. -/
theorem test_srai_sign :
    (let i : Instr := .srai r0 { f0 with sd := 1, sa := 1, imm := 65 }
     match exec i (coding i (demo (ctx1.setReg 1 (BitVec.ofInt 64 (-2))))) with
     | .next t => (t.ctx 0 0).reg 1 == BitVec.ofInt 64 (-1)
     | _ => false) = true := by decide +kernel

/-- R62: a word of a reserved class faults ILLEGAL whatever command stands for its turn. -/
theorem test_reserved_class :
    (let s := demo ctx1
     let s := s.setSquare 0 { s.square 0 with icache := [lineOf 0xFFFFFFFFFFFFFFFF] }
     match exec (.add r0 f0) s with
     | .next t => (t.cmd 1).any fun d => d.status.isSome
     | _ => false) = true := by decide +kernel

/-- R134: the example of the rule. -/
theorem test_checkSymbols : Code.checkOf (BitVec.ofNat 256 (2 ^ 248)) = 0x4078360F := by decide +kernel

/-- R136: the marker over clean data is poison. -/
theorem test_poison : Code.value ⟨0, 0x53494F50⟩ = (0, true) := by decide +kernel

/-- R160: a STORE of one byte takes one operand granule; one that crosses a granule takes two. -/
theorem test_operandGranules : operandGranules 0x02 0 0 = 1 ∧ operandGranules 0x02 31 1 = 2 ∧ operandGranules 0x11 0 31 = 2 ∧ operandGranules 0x30 0 0 = 0 := by
  decide

/-- R249: the half that a low read latched is what the high read returns. -/
theorem test_timeNow :
    (let s := { demo {} with time := { State.reset.time with acc := BitVec.ofNat 96 ((5 * 2 ^ 32 + 7) * 2 ^ 32) } }
     match exec (.timeNowLowRead none) s with
     | .next t => t.out.head? == some (.readValue 7) && t.time.latch == 5
     | _ => false) = true := by decide +kernel

/-- R346: PWR_CAP below 100 W is refused. -/
theorem test_pwrCap :
    (match exec (.pwrCapWrite none 99) (demo {}) with
     | .next t => t.energy.capReg == 1500 && t.energy.refused
     | _ => false) = true := by decide +kernel

/-- R162, R163: FADD of INT32 at a region's last word answers the old value and wraps. -/
theorem test_fadd :
    (let a := 2 ^ 31 - 4
     let r := { req1 a with size := 4, fmt := 1, payload := [Code.form (BitVec.ofNat 256 (2 ^ 32 - 1)) false] }
     let s := { demo ctx1 with tower := ({} : Mem).write cfg1.key a [3, 0, 0, 0] false }
     match exec (.fadd r) s with
     | .next t => leNat (t.tower.read t.cfg.key a 4).1 == 2
     | _ => false) = true := by decide +kernel

/-- R269, R271: QUIESCE of a burgee that is not ACTIVE answers WRONG_STATE. -/
theorem test_quiesce_free :
    (match exec (.quiesce none 1) (withB { state := .free }) with
     | .next t => (t.burgee 1).state == .free && t.sched.mgrStatus != 0
     | _ => false) = true := by decide +kernel

/-- R44, R302: the manager's writes of whole registers reach a device that answers; R6: none does once no UCIe module is left. -/
theorem test_no_module : ({ demo {} with pwr := { (demo {}).pwr with modules := 0 } }).hostSeen = false := by decide +kernel

/-- The empty queue passes one cycle of the clock (assumption 1). -/
theorem test_idle : (match step State.reset with
     | .next t => t.up == 1
     | _ => false) = true := by decide +kernel

end Sys2Proof.Tests
end

section
/-! SUPPORT. The frame of every command: none touches the queue of the commands that wait nor the fused identity. One lemma per function of the model says
that it hands on the sealed part of the state (`f_sealed`), and one per meaning that it answers with that part (`execF_keeps`), from any state that holds it.
The lemmas rewrite from the outside in (`simp ↓`): a function is stripped by its own lemma before `simp` looks at its operands, so a proof is the function's
case split and nothing of the states in between. A `(rfl)` in brackets keeps its lemma from `dsimp`, which cannot use it below the binder of a fold. -/

namespace Sys2Proof.Machine

-- ───────────────────────── the sealed part, and what hands it on

/-- What no command may touch: the queue of waiting commands, which only `step` serves, and the identity that the factory fuses (assumption 6). -/
structure Sealed where
  queue    : List Instr
  serial   : Word
  part     : Part
  stepping : BitVec 8

/-- The sealed part of a state. -/
def State.sealed (s : State) : Sealed := ⟨s.pending, s.ident.serial, s.ident.part, s.ident.stepping⟩

/-- Whatever state a meaning answers holds that sealed part. -/
def Keeps (k : Sealed) (r : Result) : Prop := ∀ t, r = .next t → t.sealed = k

/-- The state that the effect of an instruction hands on. -/
def Effect.state : Effect → State
  | .done s | .jump _ s | .stall _ s | .fault _ _ _ s | .ended s => s

@[simp ↓] theorem sealed_mk {pending up free ident pwr tower scratch sram cfg gen hoist squares ctxs burgees sched hub links tow radio fh
    time msix irqStat mbox elog hly sec energy muster out} :
    State.sealed ⟨pending, up, free, ident, pwr, tower, scratch, sram, cfg, gen, hoist, squares, ctxs, burgees, sched, hub, links, tow, radio, fh,
      time, msix, irqStat, mbox, elog, hly, sec, energy, muster, out⟩ = ⟨pending, ident.serial, ident.part, ident.stepping⟩ := (rfl)

@[simp] theorem sealed_fold (s : State) : (⟨s.pending, s.ident.serial, s.ident.part, s.ident.stepping⟩ : Sealed) = s.sealed := rfl

@[simp ↓] theorem sealed_ite {c : Prop} [Decidable c] {s t : State} : (if c then s else t).sealed = if c then s.sealed else t.sealed :=
  apply_ite ..

/-- A quantity that no step of a fold changes is the same after it. -/
theorem foldl_keeps {α β γ : Type} (g : β → γ) {f : β → α → β} (h : ∀ b x, g (f b x) = g b) {l : List α} {b : β} :
    g (l.foldl f b) = g b := by
  induction l generalizing b with
  | nil => rfl
  | cons x t ih => exact ih.trans (h b x)

@[simp ↓] theorem sealed_foldl {α : Type} {f : State → α → State} (h : ∀ s x, (f s x).sealed = s.sealed) {l : List α} {s : State} :
    (l.foldl f s).sealed = s.sealed := foldl_keeps State.sealed h

@[simp ↓] theorem sealed_forAll {α : Type} {f : α → State → State} (h : ∀ x s, (f x s).sealed = s.sealed) {l : List α} {s : State} :
    (forAll l f s).sealed = s.sealed := sealed_foldl fun s x => h x s

@[simp ↓] theorem sealed_foldl_snd {α β : Type} {f : β × State → α → β × State} (h : ∀ a x, (f a x).2.sealed = a.2.sealed) {l : List α}
    {a : β × State} : (l.foldl f a).2.sealed = a.2.sealed := foldl_keeps (fun a : β × State => a.2.sealed) h

@[simp ↓] theorem sealed_answer_ite {c : Prop} [Decidable c] {x y : Nat × List Byte × State} :
    (if c then x else y).2.2.sealed = if c then x.2.2.sealed else y.2.2.sealed := apply_ite (fun x : Nat × List Byte × State => x.2.2.sealed) ..

@[simp ↓] theorem keeps_next {k s} : Keeps k (.next s) ↔ s.sealed = k :=
  ⟨fun h => h s rfl, fun h _ e => by cases e; exact h⟩

@[simp ↓] theorem keeps_impossible {k why} : Keeps k (impossible why) := fun _ h => by cases h

@[simp ↓] theorem keeps_ite {k} {c : Prop} [Decidable c] {a b : Result} :
    Keeps k (if c then a else b) ↔ if c then Keeps k a else Keeps k b := by rw [apply_ite (Keeps k)]

@[simp ↓] theorem Effect.state_ite {c : Prop} [Decidable c] {a b : Effect} :
    (if c then a else b).state = if c then a.state else b.state := apply_ite ..

@[simp ↓] theorem Effect.state_done {s} : (Effect.done s).state = s := (rfl)
@[simp ↓] theorem Effect.state_jump {t s} : (Effect.jump t s).state = s := (rfl)
@[simp ↓] theorem Effect.state_stall {w s} : (Effect.stall w s).state = s := (rfl)
@[simp ↓] theorem Effect.state_fault {a b c s} : (Effect.fault a b c s).state = s := (rfl)
@[simp ↓] theorem Effect.state_ended {s} : (Effect.ended s).state = s := (rfl)

/-- A meaning that works on what another one answered keeps what that one keeps. -/
theorem keeps_then {k} {r : Result} {f : State → State} (hr : Keeps k r) (hf : ∀ t, (f t).sealed = t.sealed) :
    Keeps k (match (generalizing := false) r with
      | .next t => .next (f t)
      | o => o) := by
  split
  · simpa [hf] using hr
  · exact hr

-- ───────────────────────── Machine/Ops

@[simp ↓] theorem emit_sealed {o s} : (emit o s).sealed = s.sealed := by simp [emit]
@[simp ↓] theorem drawFree_sealed {s} : (drawFree s).2.sealed = s.sealed := (rfl)
@[simp ↓] theorem State.setSquare_sealed {p q s} : (State.setSquare p q s).sealed = s.sealed := by simp [State.setSquare]
@[simp ↓] theorem State.setCtx_sealed {p slot c s} : (State.setCtx p slot c s).sealed = s.sealed := by simp [State.setCtx]
@[simp ↓] theorem State.setBurgee_sealed {b v s} : (State.setBurgee b v s).sealed = s.sealed := by simp [State.setBurgee]
@[simp ↓] theorem State.modBurgee_sealed {b f s} : (State.modBurgee b f s).sealed = s.sealed := by simp [State.modBurgee]
@[simp ↓] theorem State.setCmd_sealed {n c s} : (State.setCmd n c s).sealed = s.sealed := by simp [State.setCmd]
@[simp ↓] theorem State.modCmd_sealed {n f s} : (State.modCmd n f s).sealed = s.sealed := by simp [State.modCmd]
@[simp ↓] theorem State.dropCmd_sealed {n s} : (State.dropCmd n s).sealed = s.sealed := by simp [State.dropCmd]
@[simp ↓] theorem State.setChan_sealed {c v s} : (State.setChan c v s).sealed = s.sealed := by simp [State.setChan]
@[simp ↓] theorem State.setLink_sealed {l v s} : (State.setLink l v s).sealed = s.sealed := by simp [State.setLink]
@[simp ↓] theorem State.setCell_sealed {c v s} : (State.setCell c v s).sealed = s.sealed := by simp [State.setCell]
@[simp ↓] theorem State.setPort_sealed {p v s} : (State.setPort p v s).sealed = s.sealed := by simp [State.setPort]
@[simp ↓] theorem State.setPeer_sealed {d v s} : (State.setPeer d v s).sealed = s.sealed := by simp [State.setPeer]
@[simp ↓] theorem State.setMram_sealed {off n v s} : (State.setMram off n v s).sealed = s.sealed := by simp [State.setMram]
@[simp ↓] theorem fire_sealed {entry s} : (fire entry s).sealed = s.sealed := by simp [fire]
@[simp ↓] theorem place_sealed {code die unit body s} : (place code die unit body s).sealed = s.sealed := by simp [place]
@[simp ↓] theorem anchor_sealed {reason s} : (anchor reason s).sealed = s.sealed := by simp [anchor]
@[simp ↓] theorem startFlush_sealed {cause s} : (startFlush cause s).sealed = s.sealed := by unfold startFlush; split <;> simp
@[simp ↓] theorem flushSuppressed_sealed {code s} : (flushSuppressed code s).sealed = s.sealed := by simp [flushSuppressed]
@[simp ↓] theorem noteHealth_sealed {code unit s} : (noteHealth code unit s).sealed = s.sealed := by simp [noteHealth]
@[simp ↓] theorem fireFor_sealed {code s} : (fireFor code s).sealed = s.sealed := by unfold fireFor; split <;> simp

@[simp ↓] theorem recordLimited_sealed {code die unit body s} : (recordLimited code die unit body s).sealed = s.sealed := by
  simp [recordLimited]

@[simp ↓] theorem enterLink_sealed {l st s} : (enterLink l st s).sealed = s.sealed := by simp [enterLink]
@[simp ↓] theorem leaveUp_sealed {l st cause s} : (leaveUp l st cause s).sealed = s.sealed := by simp [leaveUp]
@[simp ↓] theorem darken_sealed {l st cause s} : (darken l st cause s).sealed = s.sealed := by simp [darken]
@[simp ↓] theorem sendOn_sealed {l w s} : (sendOn l w s).sealed = s.sealed := by simp [sendOn]
@[simp ↓] theorem sendFlit_sealed {l s} : (sendFlit l s).sealed = s.sealed := by unfold sendFlit; split <;> simp

@[simp ↓] theorem flushManagement_sealed {l n s} : (flushManagement l n s).sealed = s.sealed := by
  induction n generalizing s with
  | zero => rfl
  | succ n ih => simp [flushManagement, ih]

@[simp ↓] theorem sendDepart_sealed {code s} : (sendDepart code s).sealed = s.sealed := by simp [sendDepart]
@[simp ↓] theorem haltWork_sealed {code s} : (haltWork code s).sealed = s.sealed := by simp [haltWork]
@[simp ↓] theorem setHalted_sealed {s} : (setHalted s).sealed = s.sealed := by simp [setHalted]
@[simp ↓] theorem fatalEnd_sealed {s} : (fatalEnd s).sealed = s.sealed := by simp [fatalEnd]
@[simp ↓] theorem cancelTelltale_sealed {p s} : (cancelTelltale p s).sealed = s.sealed := by unfold cancelTelltale; split <;> simp
@[simp ↓] theorem record_sealed {code die unit body s} : (record code die unit body s).sealed = s.sealed := by simp [record]

@[simp ↓] theorem forfeit_sealed {rung cause b d0 d1 s} : (forfeit rung cause b d0 d1 s).sealed = s.sealed := by
  unfold forfeit; dsimp only; repeat' split
  all_goals simp

-- ───────────────────────── Machine/Space

@[simp ↓] theorem countDq_sealed {c dq s} : (countDq c dq s).sealed = s.sealed := by simp [countDq]
@[simp ↓] theorem countSymbols_sealed {c fixed s} : (countSymbols c fixed s).sealed = s.sealed := by simp [countSymbols]
@[simp ↓] theorem recordUncorr_sealed {c addr src s} : (recordUncorr c addr src s).sealed = s.sealed := by simp [recordUncorr]

@[simp ↓] theorem countRead_sealed {k src g s} : (countRead k src g s).sealed = s.sealed := by
  unfold countRead; dsimp only; repeat' split
  all_goals simp

@[simp ↓] theorem noteRead_sealed {k g s} : (noteRead k g s).sealed = s.sealed := by simp [noteRead]
@[simp ↓] theorem noteSpan_sealed {key l s} : (noteSpan key l s).sealed = s.sealed := by simp [noteSpan]
@[simp ↓] theorem outdate_sealed {key l s} : (outdate key l s).sealed = s.sealed := by simp [outdate]
@[simp ↓] theorem disturbSpan_sealed {o n ups s} : (disturbSpan o n ups s).sealed = s.sealed := by simp [disturbSpan]
@[simp ↓] theorem readDev_sealed {o n s} : (readDev o n s).2.sealed = s.sealed := by simp [readDev]

@[simp ↓] theorem bumpGens_sealed {o n s} : (bumpGens o n s).sealed = s.sealed := by
  unfold bumpGens; split
  · rfl
  · exact sealed_forAll fun i s => by dsimp only; split <;> simp

@[simp ↓] theorem writeDev_sealed {o bs poison s} : (writeDev o bs poison s).sealed = s.sealed := by simp [writeDev]
@[simp ↓] theorem putDev_sealed {o gs s} : (putDev o gs s).sealed = s.sealed := by simp [putDev]
@[simp ↓] theorem wipeRegion_sealed {r s} : (wipeRegion r s).sealed = s.sealed := by simp [wipeRegion]
@[simp ↓] theorem writePad_sealed {p base a bs poison s} : (writePad p base a bs poison s).sealed = s.sealed := by simp [writePad]
@[simp ↓] theorem putPad_sealed {p base a g s} : (putPad p base a g s).sealed = s.sealed := by simp [putPad]
@[simp ↓] theorem wipePad_sealed {p base size s} : (wipePad p base size s).sealed = s.sealed := by simp [wipePad]

-- ───────────────────────── Machine/Regulators

@[simp ↓] theorem takeDraws_sealed {l s} : (takeDraws l s).sealed = s.sealed := by simp [takeDraws]
@[simp ↓] theorem takeFloorIn_sealed {part res n s} : (takeFloorIn part res n s).sealed = s.sealed := by unfold takeFloorIn; split <;> simp
@[simp ↓] theorem noteServed_sealed {res part s} : (noteServed res part s).sealed = s.sealed := by simp [noteServed]
@[simp ↓] theorem takeFloor_sealed {b res n s} : (takeFloor b res n s).sealed = s.sealed := by simp [takeFloor]
@[simp ↓] theorem spend_sealed {b res n s} : (spend b res n s).sealed = s.sealed := by simp [spend]

-- ───────────────────────── Machine/Controller

@[simp ↓] theorem State.setBank_sealed {s bank l} : (State.setBank s bank l).sealed = s.sealed := by simp [State.setBank]
@[simp ↓] theorem rotate_sealed {bank q s} : (rotate bank q s).sealed = s.sealed := by simp [rotate]

@[simp ↓] theorem chargeIn_sealed {part b o n writes merges s} : (chargeIn part b o n writes merges s).sealed = s.sealed := by
  simp [chargeIn]

@[simp ↓] theorem chargeFor_sealed {b o n writes merges s} : (chargeFor b o n writes merges s).sealed = s.sealed := by simp [chargeFor]
@[simp ↓] theorem whenServed_keeps {ok f s k} (h : Keeps k (f s)) : Keeps k (whenServed ok f s) := by simp [whenServed, h]
@[simp ↓] theorem performHost_sealed {x s} : (performHost x s).sealed = s.sealed := by unfold performHost; split <;> simp
@[simp ↓] theorem joinBank_sealed {bank e s} : (joinBank bank e s).sealed = s.sealed := by simp [joinBank]
@[simp ↓] theorem leaveBank_sealed {bank sq tag s} : (leaveBank bank sq tag s).sealed = s.sealed := by simp [leaveBank]

-- ───────────────────────── Machine/HubTags

@[simp ↓] theorem newOut_sealed {o s} : (newOut o s).2.sealed = s.sealed := (rfl)
@[simp ↓] theorem sendSub_sealed {dst burgee cmd m s} : (sendSub dst burgee cmd m s).sealed = s.sealed := by simp [sendSub]
@[simp ↓] theorem sendQuery_sealed {p slot dst page s} : (sendQuery p slot dst page s).sealed = s.sealed := by simp [sendQuery]
@[simp ↓] theorem enterHub_sealed {p t s} : (enterHub p t s).sealed = s.sealed := by simp [enterHub]
@[simp ↓] theorem advance_sealed {p slot s} : (advance p slot s).sealed = s.sealed := by simp [advance]
@[simp ↓] theorem countCycles_sealed {f p slot i s} : (countCycles f p slot i s).sealed = s.sealed := by simp [countCycles]
@[simp ↓] theorem countHeld_sealed {p slot i s} : (countHeld p slot i s).sealed = s.sealed := by simp [countHeld]
@[simp ↓] theorem countFull_sealed {p slot i s} : (countFull p slot i s).sealed = s.sealed := by simp [countFull]
@[simp ↓] theorem countEmpty_sealed {p slot i s} : (countEmpty p slot i s).sealed = s.sealed := by simp [countEmpty]

@[simp ↓] theorem admitHub_sealed {n s} : (admitHub n s).sealed = s.sealed := by
  induction n generalizing s with
  | zero => rfl
  | succ n ih => unfold admitHub; split <;> simp [ih]

@[simp ↓] theorem refillHub_sealed {s} : (refillHub s).sealed = s.sealed := by simp [refillHub]

-- ───────────────────────── Machine/Contexts

@[simp ↓] theorem wakeArray_sealed {p s} : (wakeArray p s).sealed = s.sealed := sealed_forAll fun slot s => by dsimp only; split <;> simp
@[simp ↓] theorem foldCounts_sealed {n b l s} : (foldCounts n b l s).sealed = s.sealed := by simp [foldCounts]
@[simp ↓] theorem withdrawHeld_sealed {p slot s} : (withdrawHeld p slot s).sealed = s.sealed := by simp [withdrawHeld]
@[simp ↓] theorem deadTags_sealed {p slot s} : (deadTags p slot s).sealed = s.sealed := by simp [deadTags]
@[simp ↓] theorem endReads_sealed {p slot s} : (endReads p slot s).sealed = s.sealed := by simp [endReads]
@[simp ↓] theorem dropOuts_sealed {p slot s} : (dropOuts p slot s).sealed = s.sealed := by simp [dropOuts]

@[simp ↓] theorem countBlocked_sealed {p slot s} : (countBlocked p slot s).sealed = s.sealed := sealed_forAll fun i s => by
  split <;> simp

@[simp ↓] theorem endMember_sealed {p slot s} : (endMember p slot s).sealed = s.sealed := by simp [endMember]
@[simp ↓] theorem cancelMember_sealed {p slot s} : (cancelMember p slot s).sealed = s.sealed := by simp [cancelMember]
@[simp ↓] theorem cancelMembers_sealed {n s} : (cancelMembers n s).sealed = s.sealed := by unfold cancelMembers; split <;> simp
@[simp ↓] theorem tearDown_sealed {p slot withdraw s} : (tearDown p slot withdraw s).sealed = s.sealed := by simp [tearDown]

@[simp ↓] theorem recordFault_sealed {p slot reason stream detail s} : (recordFault p slot reason stream detail s).sealed = s.sealed := by
  simp [recordFault]

@[simp ↓] theorem haltMembers_sealed {n s} : (haltMembers n s).sealed = s.sealed := by unfold haltMembers; split <;> simp

@[simp ↓] theorem contextFault_sealed {p slot reason stream detail s} : (contextFault p slot reason stream detail s).sealed = s.sealed := by
  have h : (tearDown p slot false (recordFault p slot reason stream detail s)).sealed = s.sealed := by simp
  unfold contextFault
  dsimp only
  generalize tearDown p slot false (recordFault p slot reason stream detail s) = t at h ⊢
  repeat' split
  all_goals simp [h]

@[simp ↓] theorem openToTime_sealed {p slot s} : (openToTime p slot s).sealed = s.sealed := by simp [openToTime]
@[simp ↓] theorem illegal_state {s} : (illegal s).state = s := (rfl)

-- ───────────────────────── Machine/Flags

@[simp ↓] theorem raiseFlags_sealed {n fl s} : (raiseFlags n fl s).sealed = s.sealed := by simp [raiseFlags]
@[simp ↓] theorem breakReplay_sealed {n s} : (breakReplay n s).sealed = s.sealed := by simp [breakReplay]

-- ───────────────────────── Machine/Routes

@[simp ↓] theorem waitAtHub_sealed {w s} : (waitAtHub w s).sealed = s.sealed := by simp [waitAtHub]

@[simp ↓] theorem countPick_sealed {w picked s} : (countPick w picked s).sealed = s.sealed := by
  unfold countPick; dsimp only; repeat' split
  all_goals simp

@[simp ↓] theorem noteSent_sealed {w s} : (noteSent w s).sealed = s.sealed := by simp [noteSent]
@[simp ↓] theorem dispatch_sealed {w s} : (dispatch w s).sealed = s.sealed := by unfold dispatch; split <;> simp
@[simp ↓] theorem dispatchGroup_sealed {w s} : (dispatchGroup w s).sealed = s.sealed := by simp [dispatchGroup]
@[simp ↓] theorem sendWire_sealed {w s} : (sendWire w s).sealed = s.sealed := by simp [sendWire]
@[simp ↓] theorem sendMuster_sealed {op dst l s} : (sendMuster op dst l s).sealed = s.sealed := by simp [sendMuster]
@[simp ↓] theorem sendMusterOn_sealed {k op l s} : (sendMusterOn k op l s).sealed = s.sealed := by simp [sendMusterOn]

-- ───────────────────────── Machine/FabricHome

@[simp ↓] theorem loadSpot_sealed {sp n s} : (loadSpot sp n s).2.sealed = s.sealed := by cases sp <;> simp [loadSpot]
@[simp ↓] theorem countWriteWait_sealed {p s} : (countWriteWait p s).sealed = s.sealed := by simp [countWriteWait]

@[simp ↓] theorem storeSpot_sealed {sp n l read s} : (storeSpot sp n l read s).sealed = s.sealed := by
  unfold storeSpot; dsimp only; repeat' split
  all_goals simp

@[simp ↓] theorem performOp_sealed {op r s} : (performOp op r s).2.sealed = s.sealed := by
  unfold performOp; dsimp only; repeat' split
  all_goals simp

@[simp ↓] theorem advanceSeq_sealed {src b s} : (advanceSeq src b s).sealed = s.sealed := by simp [advanceSeq]
@[simp ↓] theorem remember_sealed {src e s} : (remember src e s).sealed = s.sealed := by simp [remember]
@[simp ↓] theorem respond_sealed {op r a s} : (respond op r a s).sealed = s.sealed := by simp [respond]
@[simp ↓] theorem respondCombined_sealed {r a s} : (respondCombined r a s).sealed = s.sealed := by simp [respondCombined]
@[simp ↓] theorem takeIn_sealed {p s} : (takeIn p s).sealed = s.sealed := by unfold takeIn; split <;> simp
@[simp ↓] theorem countHub_sealed {i s} : (countHub i s).sealed = s.sealed := by simp [countHub]
@[simp ↓] theorem countTie_sealed {r s} : (countTie r s).sealed = s.sealed := by simp [countTie]

@[simp ↓] theorem performHere_sealed {op r s} : (performHere op r s).2.sealed = s.sealed := by
  unfold performHere; split <;> simp

@[simp ↓] theorem performNow_sealed {op r s} : (performNow op r s).sealed = s.sealed := by simp [performNow]
@[simp ↓] theorem performCombined_sealed {op r parts s} : (performCombined op r parts s).sealed = s.sealed := by simp [performCombined]
@[simp ↓] theorem performWaiting_sealed {h s} : (performWaiting h s).sealed = s.sealed := by simp [performWaiting]

@[simp ↓] theorem drainHome_sealed {n s} : (drainHome n s).sealed = s.sealed := by
  induction n generalizing s with
  | zero => rfl
  | succ n ih => unfold drainHome; split <;> simp [ih]

@[simp ↓] theorem answerDuplicate_sealed {op r s} : (answerDuplicate op r s).sealed = s.sealed := by
  unfold answerDuplicate; dsimp only; repeat' split
  all_goals simp

@[simp ↓] theorem waitAtHome_sealed {op r parts s} : (waitAtHome op r parts s).sealed = s.sealed := by simp [waitAtHome]
@[simp ↓] theorem homeTurn_keeps {op r s k} (h : s.sealed = k) : Keeps k (homeTurn op r s) := by simp [homeTurn, h]
@[simp ↓] theorem homeRequest_keeps {op r s k} (h : s.sealed = k) : Keeps k (homeRequest op r s) := by simp [homeRequest, h]
@[simp ↓] theorem execFabricLoad_keeps {r s k} (h : s.sealed = k) : Keeps k (execFabricLoad r s) := by simp [execFabricLoad, h]
@[simp ↓] theorem execFabricStore_keeps {r s k} (h : s.sealed = k) : Keeps k (execFabricStore r s) := by simp [execFabricStore, h]
@[simp ↓] theorem execFabricSwap_keeps {r s k} (h : s.sealed = k) : Keeps k (execFabricSwap r s) := by simp [execFabricSwap, h]
@[simp ↓] theorem execCas_keeps {r s k} (h : s.sealed = k) : Keeps k (execCas r s) := by simp [execCas, h]
@[simp ↓] theorem execFadd_keeps {r s k} (h : s.sealed = k) : Keeps k (execFadd r s) := by simp [execFadd, h]
@[simp ↓] theorem execFmin_keeps {r s k} (h : s.sealed = k) : Keeps k (execFmin r s) := by simp [execFmin, h]
@[simp ↓] theorem execFmax_keeps {r s k} (h : s.sealed = k) : Keeps k (execFmax r s) := by simp [execFmax, h]
@[simp ↓] theorem execFand_keeps {r s k} (h : s.sealed = k) : Keeps k (execFand r s) := by simp [execFand, h]
@[simp ↓] theorem execForA_keeps {r s k} (h : s.sealed = k) : Keeps k (execForA r s) := by simp [execForA, h]
@[simp ↓] theorem execFxor_keeps {r s k} (h : s.sealed = k) : Keeps k (execFxor r s) := by simp [execFxor, h]
@[simp ↓] theorem execRadd_keeps {r s k} (h : s.sealed = k) : Keeps k (execRadd r s) := by simp [execRadd, h]
@[simp ↓] theorem execRmin_keeps {r s k} (h : s.sealed = k) : Keeps k (execRmin r s) := by simp [execRmin, h]
@[simp ↓] theorem execRmax_keeps {r s k} (h : s.sealed = k) : Keeps k (execRmax r s) := by simp [execRmax, h]
@[simp ↓] theorem execRladd_keeps {r s k} (h : s.sealed = k) : Keeps k (execRladd r s) := by simp [execRladd, h]

@[simp ↓] theorem execCombinedRequest_keeps {opcode r parts s k} (h : s.sealed = k) : Keeps k (execCombinedRequest opcode r parts s) := by
  simp [execCombinedRequest, h]

@[simp ↓] theorem execGenerationQuery_keeps {src burgee tag page s k} (h : s.sealed = k) :
    Keeps k (execGenerationQuery src burgee tag page s) := by
  simp [execGenerationQuery, h]

-- ───────────────────────── Machine/Fetch

@[simp ↓] theorem fillCode_sealed {p slot addr s} : (fillCode p slot addr s).sealed = s.sealed := by simp [fillCode]
@[simp ↓] theorem fetchCode_sealed {p slot s} : (fetchCode p slot s).sealed = s.sealed := by unfold fetchCode; split <;> simp
@[simp ↓] theorem dropCode_sealed {p slot s} : (dropCode p slot s).sealed = s.sealed := by simp [dropCode]
@[simp ↓] theorem loadCode_sealed {p slot addr len s} : (loadCode p slot addr len s).sealed = s.sealed := by simp [loadCode]

@[simp ↓] theorem apply_keeps {r p e k} (h : e.state.sealed = k) : Keeps k (Effect.apply r p e) := by
  cases e <;> simpa [Effect.apply] using h

theorem inView_keeps {board f s} (h : ∀ t, Keeps t.sealed (f t)) : Keeps s.sealed (inView board f s) := by
  unfold inView
  split
  · exact h s
  · split
    · next t e => simpa using h _ t e
    · next o e => exact fun t ht => absurd ht (e t)

theorem fetched_sealed {i r p body s e} (hb : ∀ p c s, (body p c s).state.sealed = s.sealed) (h : fetched i r p body s = some e) :
    e.state.sealed = s.sealed := by
  unfold fetched at h
  split at h
  · cases h
  · split at h
    · cases h; rfl
    · split at h
      · cases h; exact hb ..
      · split at h <;> cases h
        rfl

theorem issue_keeps {i r p body s} (hb : ∀ p c s, (body p c s).state.sealed = s.sealed) : Keeps s.sealed (issue i r p body s) := by
  have hf {e} (h : fetched i r p body (fetchCode p r.slot s) = some e) : e.state.sealed = s.sealed := by simpa using fetched_sealed hb h
  unfold issue
  dsimp only
  split
  · simp
  · split
    · simp
    · next e _ => simp [hf e]
    · next e _ => simpa using hf e
    · simp

@[simp ↓] theorem runInstr_keeps {i r body s k} (hb : ∀ p c s, (body p c s).state.sealed = s.sealed) (h : s.sealed = k) :
    Keeps k (runInstr i r body s) := by
  subst h
  unfold runInstr
  split
  · simp
  · simp [inView_keeps fun _ => issue_keeps hb]

-- ───────────────────────── Machine/Cache

@[simp ↓] theorem writeBack_sealed {p l s} : (writeBack p l s).sealed = s.sealed := by simp [writeBack]
@[simp ↓] theorem writeBackAll_sealed {p slot s} : (writeBackAll p slot s).sealed = s.sealed := by simp [writeBackAll]
@[simp ↓] theorem invalidateLines_sealed {p slot s} : (invalidateLines p slot s).sealed = s.sealed := by simp [invalidateLines]

@[simp ↓] theorem fillLine_sealed {p slot addr victim upset s} : (fillLine p slot addr victim upset s).sealed = s.sealed := by
  unfold fillLine; dsimp only; split <;> simp

@[simp ↓] theorem loadScalar_sealed {p slot c i sd addr n s} : (loadScalar p slot c i sd addr n s).state.sealed = s.sealed := by
  unfold loadScalar; repeat' split
  all_goals simp

@[simp ↓] theorem storeScalar_sealed {p slot c i v addr n s} : (storeScalar p slot c i v addr n s).state.sealed = s.sealed := by
  unfold storeScalar; repeat' split
  all_goals simp

-- ───────────────────────── Machine/Settle

@[simp ↓] theorem dropFences_sealed {p slot n s} : (dropFences p slot n s).sealed = s.sealed := by
  induction n generalizing s with
  | zero => rfl
  | succ n ih => unfold dropFences; split <;> simp [ih]

@[simp ↓] theorem finishEnd_sealed {p slot s} : (finishEnd p slot s).sealed = s.sealed := by simp [finishEnd]
@[simp ↓] theorem signalLocal_sealed {addr v add s} : (signalLocal addr v add s).sealed = s.sealed := by simp [signalLocal]

@[simp ↓] theorem settle_sealed {p slot s} : (settle p slot s).sealed = s.sealed := by
  unfold settle; dsimp only; repeat' split
  all_goals simp

-- ───────────────────────── Machine/Scalar

@[simp ↓] theorem scalar_keeps {i r f useSd useSa useSb useImm body s k} (hb : ∀ p c s, (body p c s).state.sealed = s.sealed)
    (h : s.sealed = k) : Keeps k (scalar i r f useSd useSa useSb useImm body s) := by simp [scalar, hb, h]

@[simp ↓] theorem intReg_keeps {i r f op s k} (h : s.sealed = k) : Keeps k (intReg i r f op s) := by simp [intReg, h]
@[simp ↓] theorem intImm_keeps {i r f op s k} (h : s.sealed = k) : Keeps k (intImm i r f op s) := by simp [intImm, h]
@[simp ↓] theorem execNop_keeps {r f s k} (h : s.sealed = k) : Keeps k (execNop r f s) := by simp [execNop, h]
@[simp ↓] theorem execTrap_keeps {r f s k} (h : s.sealed = k) : Keeps k (execTrap r f s) := by simp [execTrap, h]

theorem steal_sealed {p slot n s t} (h : steal p slot n s = some t) : t.sealed = s.sealed := by
  unfold steal at h
  dsimp only at h
  split at h
  · cases h
  · split at h
    · cases h
    · split at h
      · cases h
      · cases h; rfl

@[simp ↓] theorem execEndK_keeps {r f units s k} (h : s.sealed = k) : Keeps k (execEndK r f units s) := by
  refine scalar_keeps (fun p c s => ?_) h
  split
  · rfl
  · split
    · next e =>
      split at e
      · cases e
      · exact steal_sealed e
    · simp

@[simp ↓] theorem execRdcsr_keeps {r f cycle s k} (h : s.sealed = k) : Keeps k (execRdcsr r f cycle s) := by
  unfold execRdcsr; split <;> simp [h]

@[simp ↓] theorem execLil_keeps {r f s k} (h : s.sealed = k) : Keeps k (execLil r f s) := by simp [execLil, h]
@[simp ↓] theorem execLih_keeps {r f s k} (h : s.sealed = k) : Keeps k (execLih r f s) := by simp [execLih, h]
@[simp ↓] theorem execLoop_keeps {r f s k} (h : s.sealed = k) : Keeps k (execLoop r f s) := by simp [execLoop, h]
@[simp ↓] theorem execAdd_keeps {r f s k} (h : s.sealed = k) : Keeps k (execAdd r f s) := by simp [execAdd, h]
@[simp ↓] theorem execSub_keeps {r f s k} (h : s.sealed = k) : Keeps k (execSub r f s) := by simp [execSub, h]
@[simp ↓] theorem execMul_keeps {r f s k} (h : s.sealed = k) : Keeps k (execMul r f s) := by simp [execMul, h]
@[simp ↓] theorem execAndR_keeps {r f s k} (h : s.sealed = k) : Keeps k (execAndR r f s) := by simp [execAndR, h]
@[simp ↓] theorem execOrR_keeps {r f s k} (h : s.sealed = k) : Keeps k (execOrR r f s) := by simp [execOrR, h]
@[simp ↓] theorem execXorR_keeps {r f s k} (h : s.sealed = k) : Keeps k (execXorR r f s) := by simp [execXorR, h]
@[simp ↓] theorem execShl_keeps {r f s k} (h : s.sealed = k) : Keeps k (execShl r f s) := by simp [execShl, h]
@[simp ↓] theorem execShr_keeps {r f s k} (h : s.sealed = k) : Keeps k (execShr r f s) := by simp [execShr, h]
@[simp ↓] theorem execSra_keeps {r f s k} (h : s.sealed = k) : Keeps k (execSra r f s) := by simp [execSra, h]
@[simp ↓] theorem execMinR_keeps {r f s k} (h : s.sealed = k) : Keeps k (execMinR r f s) := by simp [execMinR, h]
@[simp ↓] theorem execMaxR_keeps {r f s k} (h : s.sealed = k) : Keeps k (execMaxR r f s) := by simp [execMaxR, h]
@[simp ↓] theorem execSlt_keeps {r f s k} (h : s.sealed = k) : Keeps k (execSlt r f s) := by simp [execSlt, h]
@[simp ↓] theorem execAddi_keeps {r f s k} (h : s.sealed = k) : Keeps k (execAddi r f s) := by simp [execAddi, h]
@[simp ↓] theorem execSubi_keeps {r f s k} (h : s.sealed = k) : Keeps k (execSubi r f s) := by simp [execSubi, h]
@[simp ↓] theorem execMuli_keeps {r f s k} (h : s.sealed = k) : Keeps k (execMuli r f s) := by simp [execMuli, h]
@[simp ↓] theorem execAndi_keeps {r f s k} (h : s.sealed = k) : Keeps k (execAndi r f s) := by simp [execAndi, h]
@[simp ↓] theorem execOri_keeps {r f s k} (h : s.sealed = k) : Keeps k (execOri r f s) := by simp [execOri, h]
@[simp ↓] theorem execXori_keeps {r f s k} (h : s.sealed = k) : Keeps k (execXori r f s) := by simp [execXori, h]
@[simp ↓] theorem execShli_keeps {r f s k} (h : s.sealed = k) : Keeps k (execShli r f s) := by simp [execShli, h]
@[simp ↓] theorem execShri_keeps {r f s k} (h : s.sealed = k) : Keeps k (execShri r f s) := by simp [execShri, h]
@[simp ↓] theorem execSrai_keeps {r f s k} (h : s.sealed = k) : Keeps k (execSrai r f s) := by simp [execSrai, h]
@[simp ↓] theorem execMini_keeps {r f s k} (h : s.sealed = k) : Keeps k (execMini r f s) := by simp [execMini, h]
@[simp ↓] theorem execMaxi_keeps {r f s k} (h : s.sealed = k) : Keeps k (execMaxi r f s) := by simp [execMaxi, h]
@[simp ↓] theorem execSlti_keeps {r f s k} (h : s.sealed = k) : Keeps k (execSlti r f s) := by simp [execSlti, h]
@[simp ↓] theorem loadInstr_keeps {i r f n s k} (h : s.sealed = k) : Keeps k (loadInstr i r f n s) := by simp [loadInstr, h]
@[simp ↓] theorem storeInstr_keeps {i r f n s k} (h : s.sealed = k) : Keeps k (storeInstr i r f n s) := by simp [storeInstr, h]
@[simp ↓] theorem execLd8_keeps {r f s k} (h : s.sealed = k) : Keeps k (execLd8 r f s) := by simp [execLd8, h]
@[simp ↓] theorem execLd16_keeps {r f s k} (h : s.sealed = k) : Keeps k (execLd16 r f s) := by simp [execLd16, h]
@[simp ↓] theorem execLd32_keeps {r f s k} (h : s.sealed = k) : Keeps k (execLd32 r f s) := by simp [execLd32, h]
@[simp ↓] theorem execLd64_keeps {r f s k} (h : s.sealed = k) : Keeps k (execLd64 r f s) := by simp [execLd64, h]
@[simp ↓] theorem execSt8_keeps {r f s k} (h : s.sealed = k) : Keeps k (execSt8 r f s) := by simp [execSt8, h]
@[simp ↓] theorem execSt16_keeps {r f s k} (h : s.sealed = k) : Keeps k (execSt16 r f s) := by simp [execSt16, h]
@[simp ↓] theorem execSt32_keeps {r f s k} (h : s.sealed = k) : Keeps k (execSt32 r f s) := by simp [execSt32, h]
@[simp ↓] theorem execSt64_keeps {r f s k} (h : s.sealed = k) : Keeps k (execSt64 r f s) := by simp [execSt64, h]

@[simp ↓] theorem retryLine_keeps {i s k} (h : s.sealed = k) : Keeps k (retryLine i s) := by
  cases i <;> (unfold retryLine; simp [h])

@[simp ↓] theorem execDataCacheLineFill_keeps {r victim upset s k} (h : s.sealed = k) :
    Keeps k (execDataCacheLineFill r victim upset s) := by
  unfold execDataCacheLineFill; dsimp only; repeat' split
  all_goals simp [h]

@[simp ↓] theorem goTo_state {c f s} : (goTo c f s).state = s := by unfold goTo; split <;> rfl
@[simp ↓] theorem branch_keeps {i r f cond s k} (h : s.sealed = k) : Keeps k (branch i r f cond s) := by simp [branch, h]
@[simp ↓] theorem execBeq_keeps {r f s k} (h : s.sealed = k) : Keeps k (execBeq r f s) := by simp [execBeq, h]
@[simp ↓] theorem execBne_keeps {r f s k} (h : s.sealed = k) : Keeps k (execBne r f s) := by simp [execBne, h]
@[simp ↓] theorem execBlt_keeps {r f s k} (h : s.sealed = k) : Keeps k (execBlt r f s) := by simp [execBlt, h]
@[simp ↓] theorem execBge_keeps {r f s k} (h : s.sealed = k) : Keeps k (execBge r f s) := by simp [execBge, h]
@[simp ↓] theorem execJump_keeps {r f s k} (h : s.sealed = k) : Keeps k (execJump r f s) := by simp [execJump, h]
@[simp ↓] theorem execCall_keeps {r f s k} (h : s.sealed = k) : Keeps k (execCall r f s) := by simp [execCall, h]

@[simp ↓] theorem execRet_keeps {r f s k} (h : s.sealed = k) : Keeps k (execRet r f s) := by
  refine scalar_keeps (fun p c s => ?_) h
  split <;> simp

-- ───────────────────────── Machine/Vector

@[simp ↓] theorem vector_keeps {r f i fmts imm srcs writes body s k} (h : s.sealed = k) : Keeps k (vector r f i fmts imm srcs writes body s) := by
  refine runInstr_keeps (fun p c s => ?_) h
  dsimp only
  repeat' split
  all_goals simp

@[simp ↓] theorem replayIf_sealed {r lost s} : (replayIf r lost s).sealed = s.sealed := by unfold replayIf; split <;> simp
@[simp ↓] theorem laneArith_keeps {r f i srcs op s k} (h : s.sealed = k) : Keeps k (laneArith r f i srcs op s) := by simp [laneArith, h]

@[simp ↓] theorem laneBitsOp_keeps {r f i fmts imm srcs op s k} (h : s.sealed = k) : Keeps k (laneBitsOp r f i fmts imm srcs op s) := by
  simp [laneBitsOp, h]

@[simp ↓] theorem execVadd_keeps {r f s k} (h : s.sealed = k) : Keeps k (execVadd r f s) := by simp [execVadd, h]
@[simp ↓] theorem execVsub_keeps {r f s k} (h : s.sealed = k) : Keeps k (execVsub r f s) := by simp [execVsub, h]
@[simp ↓] theorem execVmul_keeps {r f s k} (h : s.sealed = k) : Keeps k (execVmul r f s) := by simp [execVmul, h]
@[simp ↓] theorem execVfma_keeps {r f s k} (h : s.sealed = k) : Keeps k (execVfma r f s) := by simp [execVfma, h]
@[simp ↓] theorem execVmax_keeps {r f s k} (h : s.sealed = k) : Keeps k (execVmax r f s) := by simp [execVmax, h]
@[simp ↓] theorem execVmin_keeps {r f s k} (h : s.sealed = k) : Keeps k (execVmin r f s) := by simp [execVmin, h]
@[simp ↓] theorem execVabs_keeps {r f s k} (h : s.sealed = k) : Keeps k (execVabs r f s) := by simp [execVabs, h]
@[simp ↓] theorem execVneg_keeps {r f s k} (h : s.sealed = k) : Keeps k (execVneg r f s) := by simp [execVneg, h]
@[simp ↓] theorem execVcvt_keeps {r f s k} (h : s.sealed = k) : Keeps k (execVcvt r f s) := by simp [execVcvt, h]
@[simp ↓] theorem execVcmp_keeps {r f s k} (h : s.sealed = k) : Keeps k (execVcmp r f s) := by simp [execVcmp, h]
@[simp ↓] theorem execVsel_keeps {r f s k} (h : s.sealed = k) : Keeps k (execVsel r f s) := by simp [execVsel, h]
@[simp ↓] theorem tableInstr_keeps {r f i op s k} (h : s.sealed = k) : Keeps k (tableInstr r f i op s) := by simp [tableInstr, h]
@[simp ↓] theorem execVexp_keeps {r f s k} (h : s.sealed = k) : Keeps k (execVexp r f s) := by simp [execVexp, h]
@[simp ↓] theorem execVlog_keeps {r f s k} (h : s.sealed = k) : Keeps k (execVlog r f s) := by simp [execVlog, h]
@[simp ↓] theorem execVrcp_keeps {r f s k} (h : s.sealed = k) : Keeps k (execVrcp r f s) := by simp [execVrcp, h]
@[simp ↓] theorem execVrsq_keeps {r f s k} (h : s.sealed = k) : Keeps k (execVrsq r f s) := by simp [execVrsq, h]
@[simp ↓] theorem execVtanh_keeps {r f s k} (h : s.sealed = k) : Keeps k (execVtanh r f s) := by simp [execVtanh, h]
@[simp ↓] theorem execVsig_keeps {r f s k} (h : s.sealed = k) : Keeps k (execVsig r f s) := by simp [execVsig, h]
@[simp ↓] theorem execVrsum_keeps {r f s k} (h : s.sealed = k) : Keeps k (execVrsum r f s) := by simp [execVrsum, h]
@[simp ↓] theorem execVrmax_keeps {r f s k} (h : s.sealed = k) : Keeps k (execVrmax r f s) := by simp [execVrmax, h]
@[simp ↓] theorem execVperm_keeps {r f s k} (h : s.sealed = k) : Keeps k (execVperm r f s) := by simp [execVperm, h]

@[simp ↓] theorem execVld_keeps {r f s k} (h : s.sealed = k) : Keeps k (execVld r f s) := by
  refine runInstr_keeps (fun p c s => ?_) h
  dsimp only; repeat' split
  all_goals simp

@[simp ↓] theorem execVst_keeps {r f s k} (h : s.sealed = k) : Keeps k (execVst r f s) := by
  refine runInstr_keeps (fun p c s => ?_) h
  dsimp only; repeat' split
  all_goals simp

@[simp ↓] theorem execVshift_keeps {r f s k} (h : s.sealed = k) : Keeps k (execVshift r f s) := by simp [execVshift, h]
@[simp ↓] theorem execVlogic_keeps {r f s k} (h : s.sealed = k) : Keeps k (execVlogic r f s) := by simp [execVlogic, h]

-- ───────────────────────── Machine/Queue

@[simp ↓] theorem queueInstr_keeps {i r f useSd useSa body s k} (hb : ∀ p c q n s, (body p c q n s).state.sealed = s.sealed)
    (h : s.sealed = k) : Keeps k (queueInstr i r f useSd useSa body s) := by simp [queueInstr, hb, h]

@[simp ↓] theorem execQwait_keeps {r f s k} (h : s.sealed = k) : Keeps k (execQwait r f s) := by simp [execQwait, h]
@[simp ↓] theorem execQdrop_keeps {r f s k} (h : s.sealed = k) : Keeps k (execQdrop r f s) := by simp [execQdrop, h]
@[simp ↓] theorem execQstat_keeps {r f s k} (h : s.sealed = k) : Keeps k (execQstat r f s) := by simp [execQstat, h]

@[simp ↓] theorem execQpush_keeps {r f s k} (h : s.sealed = k) : Keeps k (execQpush r f s) := by
  refine queueInstr_keeps (fun p c q n s => ?_) h
  dsimp only; repeat' split
  all_goals simp

@[simp ↓] theorem execQpop_keeps {r f s k} (h : s.sealed = k) : Keeps k (execQpop r f s) := by
  refine queueInstr_keeps (fun p c q n s => ?_) h
  dsimp only; repeat' split
  all_goals simp

@[simp ↓] theorem countStall_sealed {p slot i cycles s} : (countStall p slot i cycles s).sealed = s.sealed := by
  unfold countStall; dsimp only; repeat' split
  all_goals simp

@[simp ↓] theorem retryQueue_keeps {i s k} (h : s.sealed = k) : Keeps k (retryQueue i s) := by
  cases i <;> (unfold retryQueue; simp [h])

@[simp ↓] theorem execQueueStallResume_keeps {r cycles s k} (h : s.sealed = k) : Keeps k (execQueueStallResume r cycles s) := by
  subst h
  unfold execQueueStallResume
  split
  · simp
  · next p _ =>
    dsimp only
    split
    · next i _ =>
      have hr : Keeps s.sealed (retryQueue i (countStall p r.slot i cycles (s.setCtx p r.slot { s.ctx p r.slot with wait := .none }))) := by simp
      split
      · next t e => simp [hr t e]
      · exact hr
    · simp

-- ───────────────────────── Machine/Matrix

@[simp ↓] theorem tameInt_sealed {cls a s} : (tameInt cls a s).2.sealed = s.sealed := by unfold tameInt; split <;> simp

@[simp ↓] theorem sumTile_sealed {s p base op set bank} : (sumTile s p base op set bank).st.sealed = s.sealed :=
  foldl_keeps (fun t : TileOut => t.st.sealed) fun _ _ => foldl_keeps (fun t : TileOut => t.st.sealed) fun _ _ => tameInt_sealed

@[simp ↓] theorem flushTile_sealed {p base op t sr seeds} : (flushTile p base op t sr seeds).st.sealed = t.st.sealed :=
  foldl_keeps (fun t : TileOut => t.st.sealed) fun _ _ => by dsimp only; split <;> simp

@[simp ↓] theorem opOver_sealed {p slot holds s} : (opOver p slot holds s).sealed = s.sealed := by simp [opOver]
@[simp ↓] theorem putOp_sealed {p slot n s} : (putOp p slot n s).sealed = s.sealed := by simp [putOp]

@[simp ↓] theorem countWaits_sealed {p slot op s} : (countWaits p slot op s).sealed = s.sealed := by
  unfold countWaits; dsimp only; repeat' split
  all_goals simp

@[simp ↓] theorem feedArray_sealed {p slot s} : (feedArray p slot s).sealed = s.sealed := by unfold feedArray; split <;> simp
@[simp ↓] theorem refeedArray_sealed {p slot s} : (refeedArray p slot s).sealed = s.sealed := by unfold refeedArray; split <;> simp
@[simp ↓] theorem issueOp_sealed {p slot op i a s} : (issueOp p slot op i a s).state.sealed = s.sealed := by simp [issueOp]
@[simp ↓] theorem replayMat_sealed {c cls rnd long s} : (replayMat c cls rnd long s).sealed = s.sealed := by simp [replayMat]

@[simp ↓] theorem execMmt_keeps {r f s k} (h : s.sealed = k) : Keeps k (execMmt r f s) := by
  refine runInstr_keeps (fun p c s => ?_) h
  dsimp only; repeat' split
  all_goals simp

@[simp ↓] theorem execMmp_keeps {r f s k} (h : s.sealed = k) : Keeps k (execMmp r f s) := by
  refine runInstr_keeps (fun p c s => ?_) h
  dsimp only; repeat' split
  all_goals simp

@[simp ↓] theorem execLoadw_keeps {r f s k} (h : s.sealed = k) : Keeps k (execLoadw r f s) := by
  refine runInstr_keeps (fun p c s => ?_) h
  dsimp only; repeat' split
  all_goals simp

@[simp ↓] theorem execSwap_keeps {r f s k} (h : s.sealed = k) : Keeps k (execSwap r f s) := by
  refine runInstr_keeps (fun p c s => ?_) h
  dsimp only; repeat' split
  all_goals simp

@[simp ↓] theorem execMmpTileComplete_keeps {r s k} (h : s.sealed = k) : Keeps k (execMmpTileComplete r s) := by
  unfold execMmpTileComplete
  split
  · simp
  split
  · simp
  extract_lets
  repeat' split
  all_goals simp +zetaDelta [apply_ite TileOut.st, h]

@[simp ↓] theorem execShapeSwitch_keeps {sq shape s k} (h : s.sealed = k) : Keeps k (execShapeSwitch sq shape s) := by
  unfold execShapeSwitch; split <;> simp [h]

-- ───────────────────────── Machine/HostAccess

@[simp ↓] theorem bindError_sealed {q s} : (bindError q s).sealed = s.sealed := by simp [bindError]

@[simp ↓] theorem fromManager_keeps {p f s k} (hf : Keeps k (f s)) (h : s.sealed = k) : Keeps k (fromManager p f s) := by
  unfold fromManager; split
  · simp
  · split <;> simp [hf, h]

@[simp ↓] theorem fromPage_keeps {p b f s k} (hf : Keeps k (f s)) (h : s.sealed = k) : Keeps k (fromPage p b f s) := by
  unfold fromPage; split
  · simp
  · split <;> simp [hf, h]

@[simp ↓] theorem managerWrite_keeps {p f s k} (hf : Keeps k (f s)) (h : s.sealed = k) : Keeps k (managerWrite p f s) := by
  simp [managerWrite, hf, h]

@[simp ↓] theorem answer_sealed {status resp s} : (answer status resp s).sealed = s.sealed := by simp [answer]

@[simp ↓] theorem mailboxTo_keeps {p code len okLen f s k} (hf : ∀ l, (f l s).sealed = s.sealed) (h : s.sealed = k) :
    Keeps k (mailboxTo p code len okLen f s) := by
  refine fromManager_keeps ?_ h
  split
  · simp [h]
  · split <;> simp [hf, h]

@[simp ↓] theorem mailbox_keeps {p code len okLen f s k} (hf : ∀ l, (f l s).2.2.sealed = s.sealed) (h : s.sealed = k) :
    Keeps k (mailbox p code len okLen f s) := by simp [mailbox, hf, h]

@[simp ↓] theorem mailboxRead_keeps {p code len resp s k} (h : s.sealed = k) : Keeps k (mailboxRead p code len resp s) := by simp [mailboxRead, h]

@[simp ↓] theorem execMailboxRequestDone_keeps {s k} (h : s.sealed = k) : Keeps k (execMailboxRequestDone s) := by
  simp [execMailboxRequestDone, h]

@[simp ↓] theorem execUnknownRequest_keeps {p code _len s k} (h : s.sealed = k) : Keeps k (execUnknownRequest p code _len s) := by
  simp [execUnknownRequest, h]

-- ───────────────────────── Machine/Towers

@[simp ↓] theorem startRetrain_sealed {ch s} : (startRetrain ch s).sealed = s.sealed := by simp [startRetrain]
@[simp ↓] theorem alignError_sealed {ch repeats s} : (alignError ch repeats s).sealed = s.sealed := by simp [alignError]
@[simp ↓] theorem loseSlots_sealed {cause d0 slots s} : (loseSlots cause d0 slots s).sealed = s.sealed := by simp [loseSlots]
@[simp ↓] theorem reportLost_sealed {ch s} : (reportLost ch s).sealed = s.sealed := by simp [reportLost]
@[simp ↓] theorem reportAllLost_sealed {s} : (reportAllLost s).sealed = s.sealed := by simp [reportAllLost]

@[simp ↓] theorem execChannelFrameStart_keeps {s k} (h : s.sealed = k) : Keeps k (execChannelFrameStart s) := by
  simp [execChannelFrameStart, h]

@[simp ↓] theorem refresh_sealed {l s} : (refresh l s).sealed = s.sealed := by simp [refresh]
@[simp ↓] theorem execRefreshSlot_keeps {s k} (h : s.sealed = k) : Keeps k (execRefreshSlot s) := by simp [execRefreshSlot, h]

@[simp ↓] theorem execCalibrationSlot_keeps {lost s k} (h : s.sealed = k) : Keeps k (execCalibrationSlot lost s) := by
  simp [execCalibrationSlot, h]

@[simp ↓] theorem scrubBack_sealed {k g s} : (scrubBack k g s).sealed = s.sealed := by simp [scrubBack]
@[simp ↓] theorem restartScrub_sealed {s} : (restartScrub s).sealed = s.sealed := by simp [restartScrub]

@[simp ↓] theorem execTowerPatrolScrub_keeps {ch upset s k} (h : s.sealed = k) : Keeps k (execTowerPatrolScrub ch upset s) := by
  simp [execTowerPatrolScrub, h]

@[simp ↓] theorem execScratchpadScrub_keeps {psq bank upset s k} (h : s.sealed = k) : Keeps k (execScratchpadScrub psq bank upset s) := by
  simp [execScratchpadScrub, h]

@[simp ↓] theorem sramUncorr_sealed {off s} : (sramUncorr off s).sealed = s.sealed := by simp [sramUncorr]

@[simp ↓] theorem execHalyardSramScrub_keeps {upset s k} (h : s.sealed = k) : Keeps k (execHalyardSramScrub upset s) := by
  unfold execHalyardSramScrub; dsimp only; repeat' split
  all_goals simp [h]

@[simp ↓] theorem execDemandScrub_keeps {ch granule upset s k} (h : s.sealed = k) : Keeps k (execDemandScrub ch granule upset s) := by
  unfold execDemandScrub; dsimp only; split <;> simp [h]

@[simp ↓] theorem execChannelRetrainDone_keeps {ch ok step s k} (h : s.sealed = k) : Keeps k (execChannelRetrainDone ch ok step s) := by
  simp [execChannelRetrainDone, h]

@[simp ↓] theorem execMemCorrSummary_keeps {s k} (h : s.sealed = k) : Keeps k (execMemCorrSummary s) := by simp [execMemCorrSummary, h]

@[simp ↓] theorem execMemDqDegraded_keeps {ch dq s k} (h : s.sealed = k) : Keeps k (execMemDqDegraded ch dq s) := by
  simp [execMemDqDegraded, h]

@[simp ↓] theorem execMemStatus_keeps {p len s k} (h : s.sealed = k) : Keeps k (execMemStatus p len s) := by simp [execMemStatus, h]

-- ───────────────────────── Machine/Streams

@[simp ↓] theorem stopGather_sealed {p slot i s} : (stopGather p slot i s).sealed = s.sealed := by
  unfold stopGather; dsimp only; repeat' split
  all_goals simp

@[simp ↓] theorem sweepN_sealed {p slot n s} : (sweepN p slot n s).sealed = s.sealed := by
  induction n generalizing s with
  | zero => rfl
  | succ n ih =>
    unfold sweepN; dsimp only; split
    · rfl
    · rw [ih]; split <;> simp

@[simp ↓] theorem sweep_sealed {p slot s} : (sweep p slot s).sealed = s.sealed := by simp [sweep]
@[simp ↓] theorem freeTag_sealed {p id s} : (freeTag p id s).sealed = s.sealed := by simp [freeTag]

@[simp ↓] theorem pushReady_sealed {p slot i n s} : (pushReady p slot i n s).sealed = s.sealed := by
  induction n generalizing s with
  | zero => rfl
  | succ n ih =>
    unfold pushReady; dsimp only; repeat' split
    all_goals simp [ih]

@[simp ↓] theorem arrive_sealed {p g gs s} : (arrive p g gs s).sealed = s.sealed := by unfold arrive; dsimp only; split <;> simp
@[simp ↓] theorem wrote_sealed {p g s} : (wrote p g s).sealed = s.sealed := by simp [wrote]

-- ───────────────────────── Machine/FabricSource

@[simp ↓] theorem chargeSend_sealed {o s} : (chargeSend o s).sealed = s.sealed := by simp [chargeSend]
@[simp ↓] theorem takeSeq_sealed {d b s} : (takeSeq d b s).2.sealed = s.sealed := (rfl)
@[simp ↓] theorem putOut_sealed {o s} : (putOut o s).sealed = s.sealed := by simp [putOut]
@[simp ↓] theorem dropOut_sealed {id s} : (dropOut id s).sealed = s.sealed := by simp [dropOut]
@[simp ↓] theorem loseLease_sealed {k s} : (loseLease k s).sealed = s.sealed := by simp [loseLease]

@[simp ↓] theorem deliver_sealed {o r s} : (deliver o r s).sealed = s.sealed := by
  unfold deliver; dsimp only; repeat' split
  all_goals simp

@[simp ↓] theorem answerOut_sealed {o r s} : (answerOut o r s).sealed = s.sealed := by
  unfold answerOut; dsimp only; repeat' split
  all_goals simp

@[simp ↓] theorem destAnswer_sealed {id src r s} : (destAnswer id src r s).sealed = s.sealed := by unfold destAnswer; split <;> simp
@[simp ↓] theorem performOwn_sealed {o s} : (performOwn o s).sealed = s.sealed := by unfold performOwn; split <;> simp
@[simp ↓] theorem sendOut_sealed {o s} : (sendOut o s).sealed = s.sealed := by simp [sendOut]

@[simp ↓] theorem execFabricRequestSend_keeps {id s k} (h : s.sealed = k) : Keeps k (execFabricRequestSend id s) := by
  unfold execFabricRequestSend; split <;> simp [h]

@[simp ↓] theorem response_keeps {code ok r s k} (h : s.sealed = k) : Keeps k (response code ok r s) := by
  unfold response; dsimp only; split <;> simp [h]

@[simp ↓] theorem execReadData_keeps {r s k} (h : s.sealed = k) : Keeps k (execReadData r s) := by simp [execReadData, h]
@[simp ↓] theorem execAtomicData_keeps {r s k} (h : s.sealed = k) : Keeps k (execAtomicData r s) := by simp [execAtomicData, h]
@[simp ↓] theorem execAcknowledgment_keeps {r s k} (h : s.sealed = k) : Keeps k (execAcknowledgment r s) := by simp [execAcknowledgment, h]

@[simp ↓] theorem execRequestRetransmit_keeps {id s k} (h : s.sealed = k) : Keeps k (execRequestRetransmit id s) := by
  unfold execRequestRetransmit; split <;> simp [h]

@[simp ↓] theorem placeFence_sealed {p slot stalls upTo s} : (placeFence p slot stalls upTo s).sealed = s.sealed := by simp [placeFence]

@[simp ↓] theorem execOperationWindowWrite_keeps {r i addr g s k} (h : s.sealed = k) : Keeps k (execOperationWindowWrite r i addr g s) := by
  unfold execOperationWindowWrite; dsimp only; repeat' split
  all_goals simp [h]

@[simp ↓] theorem openEntry_sealed {m s} : (openEntry m s).sealed = s.sealed := by simp [openEntry]

@[simp ↓] theorem execRequestForward_keeps {m s k} (h : s.sealed = k) : Keeps k (execRequestForward m s) := by
  unfold execRequestForward; dsimp only; repeat' split
  all_goals simp [h]

@[simp ↓] theorem execCombineWindowClose_keeps {entry s k} (h : s.sealed = k) : Keeps k (execCombineWindowClose entry s) := by
  unfold execCombineWindowClose; split <;> simp [h]

@[simp ↓] theorem execCombinedData_keeps {entry r s k} (h : s.sealed = k) : Keeps k (execCombinedData entry r s) := by
  unfold execCombinedData; dsimp only; split <;> simp [h]

@[simp ↓] theorem execMstore_keeps {r dests s k} (h : s.sealed = k) : Keeps k (execMstore r dests s) := by
  unfold execMstore; dsimp only; split <;> simp [h]

-- ───────────────────────── Machine/Access

@[simp ↓] theorem chargeIssue_sealed {b t kind dests a n s} : (chargeIssue b t kind dests a n s).sealed = s.sealed := by simp [chargeIssue]
@[simp ↓] theorem markStream_sealed {p slot i s} : (markStream p slot i s).sealed = s.sealed := by unfold markStream; split <;> simp
@[simp ↓] theorem markStreams_sealed {p s} : (markStreams p s).sealed = s.sealed := by simp [markStreams]
@[simp ↓] theorem enterBank_sealed {p id s} : (enterBank p id s).sealed = s.sealed := by unfold enterBank; split <;> simp

@[simp ↓] theorem issueRequest_sealed {p slot i idx kind dests addrs ends s} :
    (issueRequest p slot i idx kind dests addrs ends s).sealed = s.sealed := by
  unfold issueRequest; extract_lets; repeat' split
  all_goals simp +zetaDelta

@[simp ↓] theorem execAccessRequestIssue_keeps {psq s k} (h : s.sealed = k) : Keeps k (execAccessRequestIssue psq s) := by
  unfold execAccessRequestIssue; dsimp only; repeat' split
  all_goals simp [h]

@[simp ↓] theorem towerGranules_sealed {t upset s} : (towerGranules t upset s).2.sealed = s.sealed := by simp [towerGranules]

@[simp ↓] theorem execStreamReadReply_keeps {psq tag upset timing s k} (h : s.sealed = k) :
    Keeps k (execStreamReadReply psq tag upset timing s) := by
  unfold execStreamReadReply; split <;> simp [h]

@[simp ↓] theorem execStreamWriteAck_keeps {psq burst s k} (h : s.sealed = k) : Keeps k (execStreamWriteAck psq burst s) := by
  unfold execStreamWriteAck; dsimp only; split <;> simp [h]

theorem serveHeld_sealed {bank q s t} (h : serveHeld bank q s = some t) : t.sealed = s.sealed := by
  unfold serveHeld at h
  split at h
  · split at h
    · cases h; simp
    · obtain ⟨k, -, rfl⟩ := Option.map_eq_some_iff.mp h; simp
  · split at h
    · cases h; simp
    · split at h
      · split at h
        · cases h; simp
        · cases h
      · cases h

@[simp ↓] theorem execHeldRequestAdmit_keeps {bank s k} (h : s.sealed = k) : Keeps k (execHeldRequestAdmit bank s) := by
  unfold execHeldRequestAdmit
  split
  · next e =>
    obtain ⟨q, -, e⟩ := List.exists_of_findSome?_eq_some e
    obtain ⟨u, hu, rfl⟩ := Option.map_eq_some_iff.mp e
    simp [serveHeld_sealed hu, h]
  · simp

-- ───────────────────────── Machine/EnergyPools

@[simp ↓] theorem drawPools_sealed {p amount s} : (drawPools p amount s).sealed = s.sealed := by simp [drawPools]
@[simp ↓] theorem takeClaims_sealed {n p l s} : (takeClaims n p l s).sealed = s.sealed := by simp [takeClaims]
@[simp ↓] theorem returnClaims_sealed {n s} : (returnClaims n s).sealed = s.sealed := by unfold returnClaims; split <;> simp

-- ───────────────────────── Machine/Sync

@[simp ↓] theorem sync_keeps {i r f maxMode useSa useSb useLevel useId body s k} (hb : ∀ p c s, (body p c s).state.sealed = s.sealed)
    (h : s.sealed = k) : Keeps k (sync i r f maxMode useSa useSb useLevel useId body s) := by simp [sync, hb, h]

@[simp ↓] theorem execWaitsem_keeps {r f s k} (h : s.sealed = k) : Keeps k (execWaitsem r f s) := by
  unfold execWaitsem
  exact keeps_then (sync_keeps (fun p c s => by dsimp only; split <;> simp) h) fun t => refillHub_sealed

@[simp ↓] theorem execWaitsemSatisfied_keeps {r s k} (h : s.sealed = k) : Keeps k (execWaitsemSatisfied r s) := by
  unfold execWaitsemSatisfied; dsimp only; repeat' split
  all_goals simp [h]

@[simp ↓] theorem execSignalsem_keeps {r f s k} (h : s.sealed = k) : Keeps k (execSignalsem r f s) := by
  unfold execSignalsem
  split
  · simp
  · exact keeps_then (sync_keeps (fun p c s => by dsimp only; split <;> simp) h) fun t => settle_sealed

@[simp ↓] theorem execBarrier_keeps {r f s k} (h : s.sealed = k) : Keeps k (execBarrier r f s) := by simp [execBarrier, h]

@[simp ↓] theorem execBarrierComplete_keeps {m s k} (h : s.sealed = k) : Keeps k (execBarrierComplete m s) := by
  unfold execBarrierComplete; dsimp only; repeat' split
  all_goals simp [h]

@[simp ↓] theorem execFence_keeps {r f s k} (h : s.sealed = k) : Keeps k (execFence r f s) := by
  unfold execFence
  split
  · simp
  · exact keeps_then (sync_keeps (fun p c s => by simp) h) fun t => settle_sealed

@[simp ↓] theorem execCheckgen_keeps {r f s k} (h : s.sealed = k) : Keeps k (execCheckgen r f s) := by
  unfold execCheckgen
  split
  · simp
  · exact keeps_then (sync_keeps (fun p c s => by simp) h) fun t => settle_sealed

@[simp ↓] theorem dropQueries_sealed {p slot s} : (dropQueries p slot s).sealed = s.sealed := by simp [dropQueries]

@[simp ↓] theorem execCheckgenResult_keeps {r remote s k} (h : s.sealed = k) : Keeps k (execCheckgenResult r remote s) := by
  unfold execCheckgenResult; dsimp only; repeat' split
  all_goals simp [h]

-- ───────────────────────── Machine/Reduce

@[simp ↓] theorem faultMismatch_sealed {p slot s} : (faultMismatch p slot s).sealed = s.sealed := by
  unfold faultMismatch; dsimp only; repeat' split
  all_goals simp

@[simp ↓] theorem reduceInstr_keeps {i opc r f s k} (h : s.sealed = k) : Keeps k (reduceInstr i opc r f s) := by
  unfold reduceInstr
  split
  · simp
  · refine keeps_then (runInstr_keeps (fun p c s => ?_) h) fun t => faultMismatch_sealed
    dsimp only; repeat' split
    all_goals simp

@[simp ↓] theorem execReduce_keeps {r f s k} (h : s.sealed = k) : Keeps k (execReduce r f s) := by simp [execReduce, h]
@[simp ↓] theorem execAllreduce_keeps {r f s k} (h : s.sealed = k) : Keeps k (execAllreduce r f s) := by simp [execAllreduce, h]
@[simp ↓] theorem execBcast_keeps {r f s k} (h : s.sealed = k) : Keeps k (execBcast r f s) := by simp [execBcast, h]

@[simp ↓] theorem pushOuts_sealed {l n s} : (pushOuts l n s).2.sealed = s.sealed := by
  induction l generalizing n s with
  | nil => rfl
  | cons o t ih => unfold pushOuts; split <;> simp [ih]

@[simp ↓] theorem reduceDone_sealed {p slot s} : (reduceDone p slot s).sealed = s.sealed := by simp [reduceDone]
@[simp ↓] theorem putTensor_sealed {p slot a l s} : (putTensor p slot a l s).sealed = s.sealed := by simp [putTensor]
@[simp ↓] theorem receiveResult_sealed {m remote a l s} : (receiveResult m remote a l s).sealed = s.sealed := by simp [receiveResult]

@[simp ↓] theorem distribute_keeps {p slot opc t remote sent dstOf own l s k} (h : s.sealed = k) :
    Keeps k (distribute p slot opc t remote sent dstOf own l s) := by
  simp [distribute, h]

@[simp ↓] theorem countStep_sealed {m s} : (countStep m s).sealed = s.sealed := by simp [countStep]

@[simp ↓] theorem sendTensor_keeps {p slot t opc op dst to_ s k} (h : s.sealed = k) : Keeps k (sendTensor p slot t opc op dst to_ s) := by
  unfold sendTensor; dsimp only; split <;> simp [h]

@[simp ↓] theorem rootStep_keeps {p slot t opc src dst have_ s k} (h : s.sealed = k) : Keeps k (rootStep p slot t opc src dst have_ s) := by
  unfold rootStep; split <;> simp [h]

@[simp ↓] theorem joinRemote_sealed {p slot t op dst s} : (joinRemote p slot t op dst s).sealed = s.sealed := by simp [joinRemote]

@[simp ↓] theorem execReduceTreeStep_keeps {x s k} (h : s.sealed = k) : Keeps k (execReduceTreeStep x s) := by
  unfold execReduceTreeStep; dsimp only; repeat' split
  all_goals simp [h]

-- ───────────────────────── Machine/Launch

theorem lockCode_sealed {p e n s t} (h : lockCode p e n s = some t) : t.sealed = s.sealed := by
  induction n generalizing s with
  | zero => cases h
  | succ n ih =>
    unfold lockCode at h
    dsimp only at h
    repeat' split at h
    · cases h; rfl
    · cases h; simp
    · simpa using ih h
    · cases h

@[simp ↓] theorem startCtx_sealed {p m h n d k s} : (startCtx p m h n d k s).sealed = s.sealed := by simp [startCtx]

@[simp ↓] theorem launchMember_keeps {r n d s k} (h : s.sealed = k) : Keeps k (launchMember r n d s) := by
  unfold launchMember
  split
  · simp
  split
  · extract_lets c mark u v q tempo w fail code table x
    have hw : w.sealed = k := by simp [w, v, u, h]
    have hx : x.sealed = k := by simp only [x, table]; split <;> simp [code, hw]
    have hf {e t} (ht : t.sealed = k) : Keeps k (fail e t) := by simp [fail, ht]
    clear_value x w fail
    split
    · simp
    split
    · simp
    split
    · exact hf hw
    split
    · exact hf hw
    split
    · exact hf hx
    split
    · exact hf hx
    next y e =>
    have hy : y.sealed = k := by
      split at e
      · exact (lockCode_sealed e).trans hx
      · cases e; exact hx
    extract_lets z ca a u
    have hz : z.sealed = k := by simp [z, hy]
    have hu : u.sealed = k := by simp [u, a, hz]
    split
    · exact hf hz
    · simp [hu]
  · simp

@[simp ↓] theorem execKernelLaunch_keeps {r n s k} (h : s.sealed = k) : Keeps k (execKernelLaunch r n s) := by
  subst h
  unfold execKernelLaunch; split
  · simp
  · exact inView_keeps fun t => launchMember_keeps rfl

-- ───────────────────────── Machine/Commands

@[simp ↓] theorem launchCommand_sealed {n desc bound s} : (launchCommand n desc bound s).sealed = s.sealed := by
  unfold launchCommand; split <;> simp

@[simp ↓] theorem endCommand_sealed {n status reason s} : (endCommand n status reason s).sealed = s.sealed := by simp [endCommand]
@[simp ↓] theorem cancelCommand_sealed {n status reason s} : (cancelCommand n status reason s).sealed = s.sealed := by simp [cancelCommand]
@[simp ↓] theorem endHold_sealed {s} : (endHold s).sealed = s.sealed := by simp [endHold]
@[simp ↓] theorem judgeDeadline_sealed {d s} : (judgeDeadline d s).sealed = s.sealed := by unfold judgeDeadline; split <;> simp
@[simp ↓] theorem writeCounters_sealed {d s} : (writeCounters d s).sealed = s.sealed := by simp [writeCounters]
@[simp ↓] theorem signalCommand_sealed {d s} : (signalCommand d s).sealed = s.sealed := by simp [signalCommand]
@[simp ↓] theorem writeCompletion_sealed {b bs s} : (writeCompletion b bs s).sealed = s.sealed := by simp [writeCompletion]

@[simp ↓] theorem raiseVector_sealed {b vector ok irq s} : (raiseVector b vector ok irq s).sealed = s.sealed := by
  unfold raiseVector; repeat' split
  all_goals simp

@[simp ↓] theorem judgeEstimate_sealed {d energy s} : (judgeEstimate d energy s).sealed = s.sealed := by simp [judgeEstimate]

@[simp ↓] theorem finishCommand_sealed {n energy s} : (finishCommand n energy s).sealed = s.sealed := by
  unfold finishCommand; dsimp only; repeat' split
  all_goals simp

-- ───────────────────────── Machine/Radio

@[simp ↓] theorem writeEntry_sealed {c off v s} : (writeEntry c off v s).sealed = s.sealed := by unfold writeEntry; split <;> simp
@[simp ↓] theorem noteField_sealed {c off n s} : (noteField c off n s).sealed = s.sealed := by unfold noteField; split <;> simp
@[simp ↓] theorem State.modCell_sealed {n f s} : (State.modCell n f s).sealed = s.sealed := by simp [State.modCell]

theorem tryPublish_sealed {cell m s t} (h : tryPublish cell m s = some t) : t.sealed = s.sealed := by
  unfold tryPublish at h
  split at h
  · cases h; rfl
  · simp only [Option.ite_none_left_eq_some, Option.some.injEq] at h
    obtain ⟨-, rfl⟩ := h
    simp

@[simp ↓] theorem dropOverdue_sealed {cell s} : (dropOverdue cell s).sealed = s.sealed := by unfold dropOverdue; split <;> simp

@[simp ↓] theorem drainUl_sealed {cell n s} : (drainUl cell n s).sealed = s.sealed := by
  induction n generalizing s with
  | zero => rfl
  | succ n ih =>
    unfold drainUl
    repeat' split
    · rfl
    · rfl
    · next e => simp [ih, tryPublish_sealed e]
    · rfl

@[simp ↓] theorem publishBy_sealed {cell m due s} : (publishBy cell m due s).sealed = s.sealed := by simp [publishBy]
@[simp ↓] theorem publish_sealed {cell m s} : (publish cell m s).sealed = s.sealed := by simp [publish]
@[simp ↓] theorem sendError_sealed {cell code mtype slot s} : (sendError cell code mtype slot s).sealed = s.sealed := by simp [sendError]
@[simp ↓] theorem enterCell_sealed {cell st s} : (enterCell cell st s).sealed = s.sealed := by unfold enterCell; split <;> simp

@[simp ↓] theorem withMessage_keeps {cell f s k} (hf : ∀ c s, (f c s).sealed = s.sealed) (h : s.sealed = k) : Keeps k (withMessage cell f s) := by
  unfold withMessage; split <;> simp [hf, h]

@[simp ↓] theorem execCellDoorbell_keeps {p page value s k} (h : s.sealed = k) : Keeps k (execCellDoorbell p page value s) := by
  unfold execCellDoorbell; split
  · simp
  · refine fromPage_keeps ?_ h
    dsimp only; repeat' split
    all_goals simp [h]

@[simp ↓] theorem execConfigRequest_keeps {cell r s k} (h : s.sealed = k) : Keeps k (execConfigRequest cell r s) := by
  refine withMessage_keeps (fun c s => ?_) h
  split
  · simp
  · split <;> simp

@[simp ↓] theorem execStartRequest_keeps {cell s k} (h : s.sealed = k) : Keeps k (execStartRequest cell s) := by simp [execStartRequest, h]
@[simp ↓] theorem execStopRequest_keeps {cell s k} (h : s.sealed = k) : Keeps k (execStopRequest cell s) := by simp [execStopRequest, h]

@[simp ↓] theorem execOtherDownlinkMessage_keeps {cell mtype s k} (h : s.sealed = k) : Keeps k (execOtherDownlinkMessage cell mtype s) := by
  simp [execOtherDownlinkMessage, h]

@[simp ↓] theorem slotMessage_keeps {cell msg slot take s k} (ht : ∀ s, (take s).sealed = s.sealed) (h : s.sealed = k) :
    Keeps k (slotMessage cell msg slot take s) := by simp [slotMessage, ht, h]

@[simp ↓] theorem execDlTtiRequest_keeps {cell slot pdus s k} (h : s.sealed = k) : Keeps k (execDlTtiRequest cell slot pdus s) := by
  simp [execDlTtiRequest, h]

@[simp ↓] theorem execUlDciRequest_keeps {cell slot dcis s k} (h : s.sealed = k) : Keeps k (execUlDciRequest cell slot dcis s) := by
  simp [execUlDciRequest, h]

@[simp ↓] theorem execTxDataRequest_keeps {cell slot pdus s k} (h : s.sealed = k) : Keeps k (execTxDataRequest cell slot pdus s) := by
  simp [execTxDataRequest, h]

@[simp ↓] theorem takeAlloc_sealed {cell slot e a s} : (takeAlloc cell slot e a s).sealed = s.sealed := by simp [takeAlloc]

@[simp ↓] theorem execUlTtiRequest_keeps {cell slot allocs s k} (h : s.sealed = k) : Keeps k (execUlTtiRequest cell slot allocs s) :=
  slotMessage_keeps (fun s => by split <;> simp) h

@[simp ↓] theorem notePayload_sealed {t s} : (notePayload t s).sealed = s.sealed := by unfold notePayload; split <;> simp
@[simp ↓] theorem runDownlink_sealed {cell slot s} : (runDownlink cell slot s).sealed = s.sealed := by unfold runDownlink; split <;> simp
@[simp ↓] theorem finishStop_sealed {cell s} : (finishStop cell s).sealed = s.sealed := by unfold finishStop; split <;> simp

@[simp ↓] theorem execSlotBoundary_keeps {cell slot s k} (h : s.sealed = k) : Keeps k (execSlotBoundary cell slot s) := by
  unfold execSlotBoundary; split <;> simp [h]

@[simp ↓] theorem noStore_sealed {cell r s} : (noStore cell r s).sealed = s.sealed := by simp [noStore]

@[simp ↓] theorem takeHarq_sealed {cell units r s} : (takeHarq cell units r s).sealed = s.sealed := by
  unfold takeHarq; dsimp only; repeat' split
  all_goals simp

@[simp ↓] theorem writeHarq_sealed {cell b llrs s} : (writeHarq cell b llrs s).sealed = s.sealed := by simp [writeHarq]

@[simp ↓] theorem queueBlock_sealed {cell e r number s} : (queueBlock cell e r number s).sealed = s.sealed := by
  unfold queueBlock; split <;> simp

@[simp ↓] theorem queueBlocks_sealed {cell r blocks s} : (queueBlocks cell r blocks s).sealed = s.sealed := by
  unfold queueBlocks; split <;> simp

@[simp ↓] theorem issueNeural_sealed {cell e r s} : (issueNeural cell e r s).sealed = s.sealed := by
  unfold issueNeural; dsimp only; repeat' split
  all_goals simp

@[simp ↓] theorem neuralEnded_sealed {d ok cause s} : (neuralEnded d ok cause s).sealed = s.sealed := by
  unfold neuralEnded; dsimp only; repeat' split
  all_goals simp

@[simp ↓] theorem symbolIn_sealed {cell slot sym ant s} : (symbolIn cell slot sym ant s).sealed = s.sealed := by
  unfold symbolIn; split <;> simp

@[simp ↓] theorem execUlWindowExpiry_keeps {cell slot symbol ant s k} (h : s.sealed = k) :
    Keeps k (execUlWindowExpiry cell slot symbol ant s) := by
  unfold execUlWindowExpiry; split <;> simp [h]

@[simp ↓] theorem finishAlloc_sealed {cell r ok s} : (finishAlloc cell r ok s).sealed = s.sealed := by simp [finishAlloc]
@[simp ↓] theorem expireSlot_sealed {cell slot s} : (expireSlot cell slot s).sealed = s.sealed := by unfold expireSlot; split <;> simp

@[simp ↓] theorem keepLlrs_sealed {cell r number llrs s} : (keepLlrs cell r number llrs s).sealed = s.sealed := by
  unfold keepLlrs; dsimp only; repeat' split
  all_goals simp

@[simp ↓] theorem execCodeBlockDecoded_keeps {die block crcOk iters bits s k} (h : s.sealed = k) :
    Keeps k (execCodeBlockDecoded die block crcOk iters bits s) := by
  unfold execCodeBlockDecoded; dsimp only; repeat' split
  all_goals simp [h]

@[simp ↓] theorem execUplinkEngineReport_keeps {cell slot die report s k} (h : s.sealed = k) :
    Keeps k (execUplinkEngineReport cell slot die report s) := by
  unfold execUplinkEngineReport; split <;> simp [h]

@[simp ↓] theorem execUplinkIndicationDeadline_keeps {cell slot s k} (h : s.sealed = k) :
    Keeps k (execUplinkIndicationDeadline cell slot s) := by
  unfold execUplinkIndicationDeadline; split <;> simp [h]

@[simp ↓] theorem execFrameEnd_keeps {cell sfn noise rssi s k} (h : s.sealed = k) : Keeps k (execFrameEnd cell sfn noise rssi s) := by
  unfold execFrameEnd; split <;> simp [h]

@[simp ↓] theorem execRadioStatus_keeps {p len s k} (h : s.sealed = k) : Keeps k (execRadioStatus p len s) := by simp [execRadioStatus, h]

-- ───────────────────────── Machine/Slices

@[simp ↓] theorem State.setTurn_sealed {board r s} : (State.setTurn board r s).sealed = s.sealed := by simp [State.setTurn]
@[simp ↓] theorem State.addPass_sealed {k n s} : (State.addPass k n s).sealed = s.sealed := by simp [State.addPass]
@[simp ↓] theorem chargePass_sealed {b used s} : (chargePass b used s).sealed = s.sealed := by simp [chargePass]

@[simp ↓] theorem raisePass_sealed {k others s} : (raisePass k others s).sealed = s.sealed := by
  unfold raisePass; dsimp only; repeat' split
  all_goals simp

@[simp ↓] theorem startWaiting_sealed {b s} : (startWaiting b s).sealed = s.sealed := by simp [startWaiting]
@[simp ↓] theorem launchIt_sealed {d s} : (launchIt d s).sealed = s.sealed := by simp [launchIt]

@[simp ↓] theorem pumpSlice_sealed {x s} : (pumpSlice x s).sealed = s.sealed := by
  unfold pumpSlice; repeat' split
  all_goals simp

@[simp ↓] theorem pumpSlices_sealed {s} : (pumpSlices s).sealed = s.sealed := by simp [pumpSlices]
@[simp ↓] theorem pauseSlices_sealed {l s} : (pauseSlices l s).sealed = s.sealed := by simp [pauseSlices]
@[simp ↓] theorem governTurn_sealed {board fill reserves s} : (governTurn board fill reserves s).sealed = s.sealed := by simp [governTurn]
@[simp ↓] theorem runTurn_sealed {t e stop s} : (runTurn t e stop s).sealed = s.sealed := by unfold runTurn; split <;> simp

@[simp ↓] theorem turnEnded_sealed {n s} : (turnEnded n s).sealed = s.sealed := sealed_forAll fun t s => by
  dsimp only; repeat' split
  all_goals simp

-- ───────────────────────── Machine/HostCmd

@[simp ↓] theorem countDbErr_sealed {b s} : (countDbErr b s).sealed = s.sealed := by simp [countDbErr]
@[simp ↓] theorem ringCfg_sealed {b value s} : (ringCfg b value s).sealed = s.sealed := by simp [ringCfg]

@[simp ↓] theorem execBgeRingCfgWrite_keeps {p page value s k} (h : s.sealed = k) : Keeps k (execBgeRingCfgWrite p page value s) := by
  simp [execBgeRingCfgWrite, h]

@[simp ↓] theorem doorbell_sealed {b value s} : (doorbell b value s).sealed = s.sealed := by simp [doorbell]

@[simp ↓] theorem execCommandDoorbell_keeps {p page value s k} (h : s.sealed = k) : Keeps k (execCommandDoorbell p page value s) := by
  simp [execCommandDoorbell, h]

@[simp ↓] theorem execBgeCplReadWrite_keeps {p page value s k} (h : s.sealed = k) : Keeps k (execBgeCplReadWrite p page value s) := by
  simp [execBgeCplReadWrite, h]

@[simp ↓] theorem checkCopy_sealed {d s} : (checkCopy d s).2.sealed = s.sealed := by
  unfold checkCopy; dsimp only; repeat' split
  all_goals simp

@[simp ↓] theorem execCommandRead_keeps {b s k} (h : s.sealed = k) : Keeps k (execCommandRead b s) := by
  subst h
  unfold execCommandRead
  extract_lets g
  split
  · simp
  · refine whenServed_keeps ?_
    extract_lets v n d e x u y w
    have hw : w.sealed = s.sealed := by simp [w, u, v]
    have hc : (checkCopy e w).2.sealed = s.sealed := checkCopy_sealed.trans hw
    clear_value w
    split
    · simp [hw]
    split
    · simp [hw]
    split
    · simp [hw]
    split
    · simp [hw]
    split
    · next h => rw [h] at hc; simpa using hc
    · next h => rw [h] at hc; simpa using hc

@[simp ↓] theorem execKernel_keeps {n s k} (h : s.sealed = k) : Keeps k (execKernel n s) := by unfold execKernel; split <;> simp [h]

@[simp ↓] theorem execCommandWaitSatisfied_keeps {n s k} (h : s.sealed = k) : Keeps k (execCommandWaitSatisfied n s) := by
  unfold execCommandWaitSatisfied; split <;> simp [h]

@[simp ↓] theorem execCommandAdmit_keeps {n s k} (h : s.sealed = k) : Keeps k (execCommandAdmit n s) := by
  unfold execCommandAdmit; dsimp only; repeat' split
  all_goals simp [h]

@[simp ↓] theorem execSync_keeps {n s k} (h : s.sealed = k) : Keeps k (execSync n s) := by unfold execSync; split <;> simp [h]
@[simp ↓] theorem spendCopy_sealed {d k s} : (spendCopy d k s).sealed = s.sealed := by simp [spendCopy]

@[simp ↓] theorem copyNext_sealed {n s} : (copyNext n s).sealed = s.sealed := by
  unfold copyNext; dsimp only; repeat' split
  all_goals simp

@[simp ↓] theorem copyStep_keeps {n out s k} (h : s.sealed = k) : Keeps k (copyStep n out s) := by unfold copyStep; split <;> simp [h]
@[simp ↓] theorem execCopyIn_keeps {n s k} (h : s.sealed = k) : Keeps k (execCopyIn n s) := by simp [execCopyIn, h]
@[simp ↓] theorem execCopyOut_keeps {n s k} (h : s.sealed = k) : Keeps k (execCopyOut n s) := by simp [execCopyOut, h]
@[simp ↓] theorem partDone_sealed {n s} : (partDone n s).sealed = s.sealed := by simp [partDone]

@[simp ↓] theorem execCopyHostCompletion_keeps {n granules failed s k} (h : s.sealed = k) : Keeps k (execCopyHostCompletion n granules failed s) := by
  unfold execCopyHostCompletion; repeat' split
  all_goals simp [h]

@[simp ↓] theorem chargePriority_sealed {d s} : (chargePriority d s).sealed = s.sealed := by simp [chargePriority]

@[simp ↓] theorem execCommandCompletion_keeps {n energyUj s k} (h : s.sealed = k) : Keeps k (execCommandCompletion n energyUj s) := by
  unfold execCommandCompletion; split <;> simp [h]

@[simp ↓] theorem subMessage_keeps {src burgee seq tag f s k} (hf : ∀ s, (f s).sealed = s.sealed) (h : s.sealed = k) :
    Keeps k (subMessage src burgee seq tag f s) := by simp [subMessage, hf, h]

@[simp ↓] theorem takeSub_sealed {c s} : (takeSub c s).sealed = s.sealed := by simp [takeSub]
@[simp ↓] theorem execSubCommand_keeps {m s k} (h : s.sealed = k) : Keeps k (execSubCommand m s) := by simp [execSubCommand, h]

@[simp ↓] theorem remoteEnded_sealed {n device r s} : (remoteEnded n device r s).sealed = s.sealed := by
  unfold remoteEnded; dsimp only; repeat' split
  all_goals simp

@[simp ↓] theorem execSubCommandEnd_keeps {n m r s k} (h : s.sealed = k) : Keeps k (execSubCommandEnd n m r s) := by
  simp [execSubCommandEnd, h]

@[simp ↓] theorem execSubCommandCancel_keeps {m cmd s k} (h : s.sealed = k) : Keeps k (execSubCommandCancel m cmd s) := by
  simp [execSubCommandCancel, h]

@[simp ↓] theorem execMsixUnmask_keeps {p entry s k} (h : s.sealed = k) : Keeps k (execMsixUnmask p entry s) := by simp [execMsixUnmask, h]
@[simp ↓] theorem hostMem_sealed {x s} : (hostMem x s).sealed = s.sealed := by simp [hostMem]

@[simp ↓] theorem execHostMemRead_keeps {addr len s k} (h : s.sealed = k) : Keeps k (execHostMemRead addr len s) := by
  simp [execHostMemRead, h]

@[simp ↓] theorem execHostMemWrite_keeps {addr bytes poison s k} (h : s.sealed = k) : Keeps k (execHostMemWrite addr bytes poison s) := by
  simp [execHostMemWrite, h]

@[simp ↓] theorem execHostSnoop_keeps {_addr s k} (h : s.sealed = k) : Keeps k (execHostSnoop _addr s) := by simp [execHostSnoop, h]

-- ───────────────────────── Machine/Energy

@[simp ↓] theorem fillPools_sealed {carried s} : (fillPools carried s).sealed = s.sealed := by simp [fillPools]
@[simp ↓] theorem openWindow_sealed {w s} : (openWindow w s).sealed = s.sealed := by simp [openWindow]
@[simp ↓] theorem crossWindow_sealed {d s} : (crossWindow d s).sealed = s.sealed := by simp [crossWindow]

@[simp ↓] theorem execEnergyWindowStart_keeps {measured s k} (h : s.sealed = k) : Keeps k (execEnergyWindowStart measured s) := by
  simp [execEnergyWindowStart, h]

@[simp ↓] theorem reconcileOne_sealed {n uj s} : (reconcileOne n uj s).sealed = s.sealed := by unfold reconcileOne; split <;> simp

@[simp ↓] theorem execEnergyReconcile_keeps {draws device baseband s k} (h : s.sealed = k) :
    Keeps k (execEnergyReconcile draws device baseband s) := by
  simp [execEnergyReconcile, h]

@[simp ↓] theorem execPwrCapWrite_keeps {p value s k} (h : s.sealed = k) : Keeps k (execPwrCapWrite p value s) := by
  simp [execPwrCapWrite, h]

@[simp ↓] theorem execPwrAllowanceWrite_keeps {p value s k} (h : s.sealed = k) : Keeps k (execPwrAllowanceWrite p value s) := by
  simp [execPwrAllowanceWrite, h]

@[simp ↓] theorem execPeakPace_keeps {s k} (h : s.sealed = k) : Keeps k (execPeakPace s) := by simp [execPeakPace, h]
@[simp ↓] theorem recordCrossings_sealed {die old new s} : (recordCrossings die old new s).sealed = s.sealed := by simp [recordCrossings]
@[simp ↓] theorem thermalForfeit_sealed {sensor b s} : (thermalForfeit sensor b s).sealed = s.sealed := by simp [thermalForfeit]
@[simp ↓] theorem heatTower_sealed {t c s} : (heatTower t c s).sealed = s.sealed := by simp [heatTower]

@[simp ↓] theorem execSensorScan_keeps {temps towers volts s k} (h : s.sealed = k) : Keeps k (execSensorScan temps towers volts s) := by
  unfold execSensorScan; dsimp only; repeat' split
  all_goals simp [h]

@[simp ↓] theorem execCanaryScan_keeps {minima s k} (h : s.sealed = k) : Keeps k (execCanaryScan minima s) := by simp [execCanaryScan, h]
@[simp ↓] theorem execRailFault_keeps {rail mv s k} (h : s.sealed = k) : Keeps k (execRailFault rail mv s) := by simp [execRailFault, h]
@[simp ↓] theorem execAvsUpdate_keeps {target s k} (h : s.sealed = k) : Keeps k (execAvsUpdate target s) := by simp [execAvsUpdate, h]

-- ───────────────────────── Machine/Power

@[simp ↓] theorem State.dropped_sealed {s} : (State.dropped s).sealed = s.sealed := by simp [State.dropped]
@[simp ↓] theorem boot_sealed {cause s} : (boot cause s).sealed = s.sealed := by simp [boot]
@[simp ↓] theorem reset_sealed {s} : (reset s).sealed = s.sealed := by unfold reset; split <;> simp
@[simp ↓] theorem resetAfterFlush_sealed {s} : (resetAfterFlush s).sealed = s.sealed := by simp [resetAfterFlush]
@[simp ↓] theorem endFlush_sealed {cause pos s} : (endFlush cause pos s).sealed = s.sealed := by simp [endFlush]

@[simp ↓] theorem execFlushComplete_keeps {s k} (h : s.sealed = k) : Keeps k (execFlushComplete s) := by
  unfold execFlushComplete; split <;> simp [h]

-- ───────────────────────── Machine/Halyard

@[simp ↓] theorem execHlyWdogFeed_keeps {p s k} (h : s.sealed = k) : Keeps k (execHlyWdogFeed p s) := by simp [execHlyWdogFeed, h]

@[simp ↓] theorem execHlyWdogCtrlWrite_keeps {p value s k} (h : s.sealed = k) : Keeps k (execHlyWdogCtrlWrite p value s) := by
  simp [execHlyWdogCtrlWrite, h]

@[simp ↓] theorem execWdogHost_keeps {s k} (h : s.sealed = k) : Keeps k (execWdogHost s) := by simp [execWdogHost, h]
@[simp ↓] theorem execWdogCore_keeps {pc s k} (h : s.sealed = k) : Keeps k (execWdogCore pc s) := by simp [execWdogCore, h]

@[simp ↓] theorem execHlySramUncorr_keeps {offset upset s k} (h : s.sealed = k) : Keeps k (execHlySramUncorr offset upset s) := by
  simp [execHlySramUncorr, h]

@[simp ↓] theorem execHlySramCorr_keeps {s k} (h : s.sealed = k) : Keeps k (execHlySramCorr s) := by simp [execHlySramCorr, h]

@[simp ↓] theorem execElogReadWrite_keeps {p value s k} (h : s.sealed = k) : Keeps k (execElogReadWrite p value s) := by
  simp [execElogReadWrite, h]

@[simp ↓] theorem execSuppressed_keeps {code s k} (h : s.sealed = k) : Keeps k (execSuppressed code s) := by simp [execSuppressed, h]
@[simp ↓] theorem execAnchor_keeps {s k} (h : s.sealed = k) : Keeps k (execAnchor s) := by simp [execAnchor, h]
@[simp ↓] theorem execFwStage_keeps {p len s k} (h : s.sealed = k) : Keeps k (execFwStage p len s) := by simp [execFwStage, h]
@[simp ↓] theorem execFwWrite_keeps {p len s k} (h : s.sealed = k) : Keeps k (execFwWrite p len s) := by simp [execFwWrite, h]

@[simp ↓] theorem execFwWriteComplete_keeps {readBack s k} (h : s.sealed = k) : Keeps k (execFwWriteComplete readBack s) := by
  simp [execFwWriteComplete, h]

@[simp ↓] theorem progress_sealed {s} : (progress s).sealed = s.sealed := by simp [progress]
@[simp ↓] theorem execFwStatus_keeps {p len s k} (h : s.sealed = k) : Keeps k (execFwStatus p len s) := by simp [execFwStatus, h]

@[simp ↓] theorem execRecoveryBegin_keeps {p len s k} (h : s.sealed = k) : Keeps k (execRecoveryBegin p len s) := by
  simp [execRecoveryBegin, h]

@[simp ↓] theorem execRecoveryChunk_keeps {p len s k} (h : s.sealed = k) : Keeps k (execRecoveryChunk p len s) := by
  simp [execRecoveryChunk, h]

@[simp ↓] theorem execRecoveryFinish_keeps {p len s k} (h : s.sealed = k) : Keeps k (execRecoveryFinish p len s) := by
  simp [execRecoveryFinish, h]

@[simp ↓] theorem execLogInfo_keeps {p len s k} (h : s.sealed = k) : Keeps k (execLogInfo p len s) := by simp [execLogInfo, h]
@[simp ↓] theorem execLogRead_keeps {p len s k} (h : s.sealed = k) : Keeps k (execLogRead p len s) := by simp [execLogRead, h]
@[simp ↓] theorem clearLog_sealed {s} : (clearLog s).sealed = s.sealed := by simp [clearLog]
@[simp ↓] theorem execLogClear_keeps {p len s k} (h : s.sealed = k) : Keeps k (execLogClear p len s) := by simp [execLogClear, h]
@[simp ↓] theorem execSensors_keeps {p len s k} (h : s.sealed = k) : Keeps k (execSensors p len s) := by simp [execSensors, h]

-- ───────────────────────── Machine/Cuts

@[simp ↓] theorem setCut_sealed {id c s} : (setCut id c s).sealed = s.sealed := by simp [setCut]
@[simp ↓] theorem unhold_sealed {b s} : (unhold b s).sealed = s.sealed := by simp [unhold]
@[simp ↓] theorem enterCut_sealed {id st c s} : (enterCut id st c s).sealed = s.sealed := by simp [enterCut]
@[simp ↓] theorem tellCut_sealed {op id c s} : (tellCut op id c s).sealed = s.sealed := by simp [tellCut]
@[simp ↓] theorem endCut_sealed {id st c s} : (endCut id st c s).sealed = s.sealed := by simp [endCut]
@[simp ↓] theorem failCuts_sealed {p s} : (failCuts p s).sealed = s.sealed := by simp [failCuts]

-- ───────────────────────── Machine/Sched

@[simp ↓] theorem governStart_sealed {board t r s} : (governStart board t r s).sealed = s.sealed := by simp [governStart]

@[simp ↓] theorem execTurnStart_keeps {board s k} (h : s.sealed = k) : Keeps k (execTurnStart board s) := by
  unfold execTurnStart; dsimp only; repeat' split
  all_goals simp [h]

@[simp ↓] theorem execSliceStart_keeps {s k} (h : s.sealed = k) : Keeps k (execSliceStart s) := by
  unfold execSliceStart; dsimp only; repeat' split
  all_goals simp [h]

@[simp ↓] theorem execSliceEnd_keeps {board s k} (h : s.sealed = k) : Keeps k (execSliceEnd board s) := by
  unfold execSliceEnd; dsimp only; repeat' split
  all_goals simp [h]

@[simp ↓] theorem execPriorityLaunch_keeps {n s k} (h : s.sealed = k) : Keeps k (execPriorityLaunch n s) := by
  unfold execPriorityLaunch; split <;> simp [h]

@[simp ↓] theorem launchFallback_sealed {n d f addr s} : (launchFallback n d f addr s).sealed = s.sealed := by simp [launchFallback]
@[simp ↓] theorem forfeitHold_sealed {d s} : (forfeitHold d s).sealed = s.sealed := by simp [forfeitHold]

@[simp ↓] theorem execFallPoint_keeps {n s k} (h : s.sealed = k) : Keeps k (execFallPoint n s) := by
  unfold execFallPoint; dsimp only; repeat' split
  all_goals simp [h]

@[simp ↓] theorem execCommandPromotion_keeps {n s k} (h : s.sealed = k) : Keeps k (execCommandPromotion n s) := by
  unfold execCommandPromotion; split <;> simp [h]

@[simp ↓] theorem execLatencyTargetMiss_keeps {n cause s k} (h : s.sealed = k) : Keeps k (execLatencyTargetMiss n cause s) := by
  unfold execLatencyTargetMiss; split <;> simp [h]

@[simp ↓] theorem execCommandOverrun_keeps {n s k} (h : s.sealed = k) : Keeps k (execCommandOverrun n s) := by
  unfold execCommandOverrun; split <;> simp [h]

@[simp ↓] theorem execFloorInterval_keeps {shortfalls s k} (h : s.sealed = k) : Keeps k (execFloorInterval shortfalls s) := by
  simp [execFloorInterval, h]

@[simp ↓] theorem execCmdRateMillisecond_keeps {s k} (h : s.sealed = k) : Keeps k (execCmdRateMillisecond s) := by
  simp [execCmdRateMillisecond, h]

@[simp ↓] theorem execShareWipeDone_keeps {r s k} (h : s.sealed = k) : Keeps k (execShareWipeDone r s) := by
  unfold execShareWipeDone; split <;> simp [h]

-- ───────────────────────── Machine/Burgees

@[simp ↓] theorem enterBurgee_sealed {b st s} : (enterBurgee b st s).sealed = s.sealed := by simp [enterBurgee]

@[simp ↓] theorem burgeeOp_keeps {p b accepts radio f s k} (hf : ∀ s, (f s).sealed = s.sealed) (h : s.sealed = k) :
    Keeps k (burgeeOp p b accepts radio f s) := by simp [burgeeOp, hf, h]

@[simp ↓] theorem execEnable_keeps {p b s k} (h : s.sealed = k) : Keeps k (execEnable p b s) := by simp [execEnable, h]
@[simp ↓] theorem execQuiesce_keeps {p b s k} (h : s.sealed = k) : Keeps k (execQuiesce p b s) := by simp [execQuiesce, h]
@[simp ↓] theorem execResume_keeps {p b s k} (h : s.sealed = k) : Keeps k (execResume p b s) := by simp [execResume, h]

@[simp ↓] theorem discardCmds_sealed {b s} : (discardCmds b s).sealed = s.sealed := sealed_forAll fun c s => by
  dsimp only; split <;> simp

@[simp ↓] theorem execDisable_keeps {p b s k} (h : s.sealed = k) : Keeps k (execDisable p b s) := by simp [execDisable, h]
@[simp ↓] theorem execBurgeeQuiet_keeps {b s k} (h : s.sealed = k) : Keeps k (execBurgeeQuiet b s) := by simp [execBurgeeQuiet, h]
@[simp ↓] theorem execForce_keeps {p b s k} (h : s.sealed = k) : Keeps k (execForce p b s) := by simp [execForce, h]
@[simp ↓] theorem execForceDone_keeps {b s k} (h : s.sealed = k) : Keeps k (execForceDone b s) := by simp [execForceDone, h]
@[simp ↓] theorem execWipe_keeps {p b s k} (h : s.sealed = k) : Keeps k (execWipe p b s) := by simp [execWipe, h]

@[simp ↓] theorem execBurgeeWipeDone_keeps {b s k} (h : s.sealed = k) : Keeps k (execBurgeeWipeDone b s) := by
  unfold execBurgeeWipeDone
  extract_lets g u v w x y
  have hu : u.sealed = s.sealed := sealed_forAll fun h s => by split <;> simp
  have hw : w.sealed = s.sealed := by simp only [w]; split <;> simp [v, hu]
  simp [y, x, hw, h]

@[simp ↓] theorem execRelease_keeps {p b s k} (h : s.sealed = k) : Keeps k (execRelease p b s) := by simp [execRelease, h]

-- ───────────────────────── Machine/Fronthaul

@[simp ↓] theorem State.modPort_sealed {p f s} : (State.modPort p f s).sealed = s.sealed := by simp [State.modPort]
@[simp ↓] theorem sendFlow_sealed {cell i f sub mk s} : (sendFlow cell i f sub mk s).sealed = s.sealed := by unfold sendFlow; split <;> simp
@[simp ↓] theorem txPoison_sealed {port s} : (txPoison port s).sealed = s.sealed := by simp [txPoison]

@[simp ↓] theorem downlink_keeps {cell slot sym i lo hi kind f s k} (hf : ∀ e r p s, (f e r p s).sealed = s.sealed) (h : s.sealed = k) :
    Keeps k (downlink cell slot sym i lo hi kind f s) := by
  unfold downlink; split
  · split
    · simp
    · split
      · simp
      · split <;> simp [hf, h]
  · simp

@[simp ↓] theorem execDownlinkCplaneSend_keeps {cell slot symbol flow weights s k} (h : s.sealed = k) :
    Keeps k (execDownlinkCplaneSend cell slot symbol flow weights s) := by
  simp [execDownlinkCplaneSend, h]

@[simp ↓] theorem execDownlinkUplaneSend_keeps {cell slot symbol flow prbs s k} (h : s.sealed = k) :
    Keeps k (execDownlinkUplaneSend cell slot symbol flow prbs s) := by
  simp [execDownlinkUplaneSend, h]

@[simp ↓] theorem execPaControlSend_keeps {cell enable antennas edgeTime s k} (h : s.sealed = k) :
    Keeps k (execPaControlSend cell enable antennas edgeTime s) := by
  unfold execPaControlSend; dsimp only; repeat' split
  all_goals simp [h]

@[simp ↓] theorem takeSymbol_sealed {f cell ant s} : (takeSymbol f cell ant s).sealed = s.sealed := by unfold takeSymbol; split <;> simp
@[simp ↓] theorem discardFrame_sealed {p s} : (discardFrame p s).sealed = s.sealed := by simp [discardFrame]

@[simp ↓] theorem execEcpriUplaneReceive_keeps {f s k} (h : s.sealed = k) : Keeps k (execEcpriUplaneReceive f s) := by
  unfold execEcpriUplaneReceive; dsimp only; repeat' split
  all_goals simp [h]

@[simp ↓] theorem execOneWayDelayMeasurement_keeps {port sub rawPs s k} (h : s.sealed = k) :
    Keeps k (execOneWayDelayMeasurement port sub rawPs s) := by
  simp [execOneWayDelayMeasurement, h]

@[simp ↓] theorem execPtpDelayReq_keeps {port sub rawPs s k} (h : s.sealed = k) : Keeps k (execPtpDelayReq port sub rawPs s) := by
  simp [execPtpDelayReq, h]

@[simp ↓] theorem execPtpMasterSend_keeps {port sub sync s k} (h : s.sealed = k) : Keeps k (execPtpMasterSend port sub sync s) := by
  simp [execPtpMasterSend, h]

@[simp ↓] theorem execEsmcReceive_keeps {port sub ql s k} (h : s.sealed = k) : Keeps k (execEsmcReceive port sub ql s) := by
  simp [execEsmcReceive, h]

@[simp ↓] theorem execEsmcSend_keeps {s k} (h : s.sealed = k) : Keeps k (execEsmcSend s) := by simp [execEsmcSend, h]

@[simp ↓] theorem execFhLinkDown_keeps {port sub s k} (h : s.sealed = k) : Keeps k (execFhLinkDown port sub s) := by
  simp [execFhLinkDown, h]

@[simp ↓] theorem execFhLinkUp_keeps {port sub s k} (h : s.sealed = k) : Keeps k (execFhLinkUp port sub s) := by simp [execFhLinkUp, h]
@[simp ↓] theorem setMode_sealed {p breakout jumbo s} : (setMode p breakout jumbo s).sealed = s.sealed := by simp [setMode]
@[simp ↓] theorem execFhConfig_keeps {p len s k} (h : s.sealed = k) : Keeps k (execFhConfig p len s) := by simp [execFhConfig, h]
@[simp ↓] theorem execFhStatus_keeps {p len s k} (h : s.sealed = k) : Keeps k (execFhStatus p len s) := by simp [execFhStatus, h]

-- ───────────────────────── Machine/TimeUnit

@[simp ↓] theorem State.setDom_sealed {d v s} : (State.setDom d v s).sealed = s.sealed := by simp [State.setDom]
@[simp ↓] theorem timeRefused_sealed {s} : (timeRefused s).sealed = s.sealed := by simp [timeRefused]
@[simp ↓] theorem setRate_sealed {r s} : (setRate r s).sealed = s.sealed := by simp [setRate]
@[simp ↓] theorem enterTime_sealed {st s} : (enterTime st s).sealed = s.sealed := by simp [enterTime]
@[simp ↓] theorem switchDomain_sealed {d s} : (switchDomain d s).sealed = s.sealed := by simp [switchDomain]
@[simp ↓] theorem enterHoldover_sealed {s} : (enterHoldover s).sealed = s.sealed := by simp [enterHoldover]
@[simp ↓] theorem requalify_sealed {s} : (requalify s).sealed = s.sealed := by unfold requalify; dsimp only; split <;> simp

@[simp ↓] theorem execPtpSync_keeps {port sub domain rawPs origin s k} (h : s.sealed = k) :
    Keeps k (execPtpSync port sub domain rawPs origin s) := by
  unfold execPtpSync; dsimp only; repeat' split
  all_goals simp [h]

@[simp ↓] theorem execPtpAnnounce_keeps {port sub domain clockClass best s k} (h : s.sealed = k) :
    Keeps k (execPtpAnnounce port sub domain clockClass best s) := by
  unfold execPtpAnnounce; dsimp only; repeat' split
  all_goals simp [h]

@[simp ↓] theorem execPtpDelayResp_keeps {domain valid sent received s k} (h : s.sealed = k) :
    Keeps k (execPtpDelayResp domain valid sent received s) := by
  unfold execPtpDelayResp; dsimp only; repeat' split
  all_goals simp [h]

@[simp ↓] theorem execDomainAnnounceTimeout_keeps {d s k} (h : s.sealed = k) : Keeps k (execDomainAnnounceTimeout d s) := by
  simp [execDomainAnnounceTimeout, h]

@[simp ↓] theorem State.setPulse_sealed {n v s} : (State.setPulse n v s).sealed = s.sealed := by simp [State.setPulse]
@[simp ↓] theorem firePulse_sealed {n late s} : (firePulse n late s).sealed = s.sealed := by simp [firePulse]
@[simp ↓] theorem armPulse_sealed {n s} : (armPulse n s).sealed = s.sealed := by simp [armPulse]

@[simp ↓] theorem execTimeOutCfgWrite_keeps {p n value s k} (h : s.sealed = k) : Keeps k (execTimeOutCfgWrite p n value s) := by
  unfold execTimeOutCfgWrite; dsimp only; repeat' split
  all_goals simp [h]

@[simp ↓] theorem execTimeOutAtWrite_keeps {p n value s k} (h : s.sealed = k) : Keeps k (execTimeOutAtWrite p n value s) := by
  simp [execTimeOutAtWrite, h]

@[simp ↓] theorem execOneShotFire_keeps {n s k} (h : s.sealed = k) : Keeps k (execOneShotFire n s) := by simp [execOneShotFire, h]

@[simp ↓] theorem execTimeOutPeriodicEdge_keeps {n s k} (h : s.sealed = k) : Keeps k (execTimeOutPeriodicEdge n s) := by
  unfold execTimeOutPeriodicEdge; dsimp only; split <;> simp [h]

@[simp ↓] theorem startCycle_sealed {t s} : (startCycle t s).sealed = s.sealed := by simp [startCycle]
@[simp ↓] theorem stepTime_sealed {new s} : (stepTime new s).sealed = s.sealed := by simp [stepTime]
@[simp ↓] theorem execTimeFirstLock_keeps {s k} (h : s.sealed = k) : Keeps k (execTimeFirstLock s) := by simp [execTimeFirstLock, h]
@[simp ↓] theorem execTimeHoldover_keeps {s k} (h : s.sealed = k) : Keeps k (execTimeHoldover s) := by simp [execTimeHoldover, h]
@[simp ↓] theorem execRelock_keeps {p s k} (h : s.sealed = k) : Keeps k (execRelock p s) := by simp [execRelock, h]
@[simp ↓] theorem execSelect_keeps {p d s k} (h : s.sealed = k) : Keeps k (execSelect p d s) := by simp [execSelect, h]
@[simp ↓] theorem execTimeSet_keeps {p value s k} (h : s.sealed = k) : Keeps k (execTimeSet p value s) := by simp [execTimeSet, h]

@[simp ↓] theorem execTimeFrameOfsWrite_keeps {p value s k} (h : s.sealed = k) : Keeps k (execTimeFrameOfsWrite p value s) := by
  simp [execTimeFrameOfsWrite, h]

@[simp ↓] theorem execTimeInEdge_keeps {n falling s k} (h : s.sealed = k) : Keeps k (execTimeInEdge n falling s) := by
  simp [execTimeInEdge, h]

@[simp ↓] theorem managerRead_keeps {p f s k} (hf : Keeps k (f s)) (h : s.sealed = k) : Keeps k (managerRead p f s) := managerWrite_keeps hf h

@[simp ↓] theorem execTimeInCapRead_keeps {p n s k} (h : s.sealed = k) : Keeps k (execTimeInCapRead p n s) := by
  unfold execTimeInCapRead; split
  · simp
  · exact managerRead_keeps (by dsimp only; split <;> simp [h]) h

@[simp ↓] theorem execTimeNowLowRead_keeps {p s k} (h : s.sealed = k) : Keeps k (execTimeNowLowRead p s) := by simp [execTimeNowLowRead, h]

@[simp ↓] theorem execTimeSynceWrite_keeps {p value s k} (h : s.sealed = k) : Keeps k (execTimeSynceWrite p value s) := by
  simp [execTimeSynceWrite, h]

@[simp ↓] theorem execSynceLockLoss_keeps {s k} (h : s.sealed = k) : Keeps k (execSynceLockLoss s) := by simp [execSynceLockLoss, h]

@[simp ↓] theorem execSynceLockRegained_keeps {s k} (h : s.sealed = k) : Keeps k (execSynceLockRegained s) := by
  simp [execSynceLockRegained, h]

@[simp ↓] theorem execSynceSourceHoldEnd_keeps {s k} (h : s.sealed = k) : Keeps k (execSynceSourceHoldEnd s) := by
  unfold execSynceSourceHoldEnd; split <;> simp [h]

-- ───────────────────────── Machine/Links

@[simp ↓] theorem refuseFlit_sealed {l due s} : (refuseFlit l due s).sealed = s.sealed := by simp [refuseFlit]
@[simp ↓] theorem acceptFlit_sealed {l flit s} : (acceptFlit l flit s).sealed = s.sealed := by simp [acceptFlit]
@[simp ↓] theorem dieFlit_sealed {l flit s} : (dieFlit l flit s).sealed = s.sealed := by simp [dieFlit]

@[simp ↓] theorem execFlitReceive_keeps {l flit badCw s k} (h : s.sealed = k) : Keeps k (execFlitReceive l flit badCw s) := by
  simp [execFlitReceive, h]

@[simp ↓] theorem probe_sealed {l s} : (probe l s).sealed = s.sealed := by simp [probe]
@[simp ↓] theorem execLinkProbe_keeps {l s k} (h : s.sealed = k) : Keeps k (execLinkProbe l s) := by simp [execLinkProbe, h]
@[simp ↓] theorem execProbeTimeout_keeps {l s k} (h : s.sealed = k) : Keeps k (execProbeTimeout l s) := by simp [execProbeTimeout, h]
@[simp ↓] theorem execLightDetected_keeps {l s k} (h : s.sealed = k) : Keeps k (execLightDetected l s) := by simp [execLightDetected, h]
@[simp ↓] theorem execFarEndReturn_keeps {l s k} (h : s.sealed = k) : Keeps k (execFarEndReturn l s) := by simp [execFarEndReturn, h]

@[simp ↓] theorem execLinkTrainingDone_keeps {l s k} (h : s.sealed = k) : Keeps k (execLinkTrainingDone l s) := by
  simp [execLinkTrainingDone, h]

@[simp ↓] theorem endFailover_sealed {l s} : (endFailover l s).sealed = s.sealed := by unfold endFailover; dsimp only; split <;> simp

@[simp ↓] theorem execLinkTrainingFailed_keeps {l s k} (h : s.sealed = k) : Keeps k (execLinkTrainingFailed l s) := by
  simp [execLinkTrainingFailed, h]

@[simp ↓] theorem sendJoin_sealed {l s} : (sendJoin l s).sealed = s.sealed := by simp [sendJoin]

@[simp ↓] theorem execLinkIdentity_keeps {l serial device peerLink s k} (h : s.sealed = k) :
    Keeps k (execLinkIdentity l serial device peerLink s) := by
  unfold execLinkIdentity; dsimp only; repeat' split
  all_goals simp [h]

@[simp ↓] theorem execAutomaticPowerReduction_keeps {l s k} (h : s.sealed = k) : Keeps k (execAutomaticPowerReduction l s) := by
  simp [execAutomaticPowerReduction, h]

@[simp ↓] theorem execEngineFailover_keeps {engine fatal us s k} (h : s.sealed = k) : Keeps k (execEngineFailover engine fatal us s) := by
  simp [execEngineFailover, h]

@[simp ↓] theorem execSpareSelectorSettled_keeps {s k} (h : s.sealed = k) : Keeps k (execSpareSelectorSettled s) := by
  simp [execSpareSelectorSettled, h]

@[simp ↓] theorem execLinkMarginMeasure_keeps {l raw s k} (h : s.sealed = k) : Keeps k (execLinkMarginMeasure l raw s) := by
  simp [execLinkMarginMeasure, h]

@[simp ↓] theorem lowFor_keeps {l wave code ns get put s k} (h : s.sealed = k) : Keeps k (lowFor l wave code ns get put s) := by
  unfold lowFor; split <;> simp [h]

@[simp ↓] theorem execLinkMargin_keeps {l wave s k} (h : s.sealed = k) : Keeps k (execLinkMargin l wave s) := by simp [execLinkMargin, h]
@[simp ↓] theorem execLinkPreFec_keeps {l wave s k} (h : s.sealed = k) : Keeps k (execLinkPreFec l wave s) := by simp [execLinkPreFec, h]
@[simp ↓] theorem execLinkStatus_keeps {p len s k} (h : s.sealed = k) : Keeps k (execLinkStatus p len s) := by simp [execLinkStatus, h]

-- ───────────────────────── Machine/Hoist

@[simp ↓] theorem refuseHoist_sealed {index code s} : (refuseHoist index code s).sealed = s.sealed := by simp [refuseHoist]
@[simp ↓] theorem refuseBusy_sealed {s} : (refuseBusy s).sealed = s.sealed := by simp [refuseBusy]
@[simp ↓] theorem execLoad_keeps {p s k} (h : s.sealed = k) : Keeps k (execLoad p s) := by simp [execLoad, h]

@[simp ↓] theorem execHoistCopyDone_keeps {bytes poison s k} (h : s.sealed = k) : Keeps k (execHoistCopyDone bytes poison s) := by
  simp [execHoistCopyDone, h]

@[simp ↓] theorem freshSquare_sealed {p gated s} : (freshSquare p gated s).sealed = s.sealed := by simp [freshSquare]
@[simp ↓] theorem ungateFor_sealed {n s} : (ungateFor n s).sealed = s.sealed := by simp [ungateFor]

@[simp ↓] theorem switchSquare_sealed {old n p s} : (switchSquare old n p s).sealed = s.sealed := by
  unfold switchSquare; dsimp only; split
  · simp
  · split
    · rfl
    · exact sealed_forAll fun h s => by split <;> simp

@[simp ↓] theorem wipeUnits_sealed {l s} : (wipeUnits l s).sealed = s.sealed := by simp [wipeUnits]
@[simp ↓] theorem switchLink_sealed {old n full l s} : (switchLink old n full l s).sealed = s.sealed := by simp [switchLink]
@[simp ↓] theorem switchCells_sealed {old n s} : (switchCells old n s).sealed = s.sealed := by simp [switchCells]
@[simp ↓] theorem switchBucket_sealed {n code s} : (switchBucket n code s).sealed = s.sealed := by simp [switchBucket]
@[simp ↓] theorem switchBuckets_sealed {old n s} : (switchBuckets old n s).sealed = s.sealed := by simp [switchBuckets]
@[simp ↓] theorem applyCfg_sealed {full starts n s} : (applyCfg full starts n s).sealed = s.sealed := by simp [applyCfg]
@[simp ↓] theorem releaseHoist_sealed {s} : (releaseHoist s).sealed = s.sealed := by simp [releaseHoist]
@[simp ↓] theorem beginSwitch_sealed {s} : (beginSwitch s).sealed = s.sealed := by simp [beginSwitch]
@[simp ↓] theorem applyFull_sealed {s} : (applyFull s).sealed = s.sealed := by simp [applyFull]

@[simp ↓] theorem execHoistVerified_keeps {s k} (h : s.sealed = k) : Keeps k (execHoistVerified s) := by
  unfold execHoistVerified; dsimp only; repeat' split
  all_goals simp [h]

@[simp ↓] theorem execHoistHoldDrained_keeps {s k} (h : s.sealed = k) : Keeps k (execHoistHoldDrained s) := by
  simp [execHoistHoldDrained, h]

@[simp ↓] theorem execHoistBoardSwitch_keeps {board s k} (h : s.sealed = k) : Keeps k (execHoistBoardSwitch board s) := by
  simp [execHoistBoardSwitch, h]

@[simp ↓] theorem execHoistHoldTimeout_keeps {s k} (h : s.sealed = k) : Keeps k (execHoistHoldTimeout s) := by
  simp [execHoistHoldTimeout, h]

@[simp ↓] theorem execHoistRegionWipeDone_keeps {s k} (h : s.sealed = k) : Keeps k (execHoistRegionWipeDone s) := by
  simp [execHoistRegionWipeDone, h]

@[simp ↓] theorem execClear_keeps {p s k} (h : s.sealed = k) : Keeps k (execClear p s) := by simp [execClear, h]
@[simp ↓] theorem execClearWipeDone_keeps {s k} (h : s.sealed = k) : Keeps k (execClearWipeDone s) := by simp [execClearWipeDone, h]

-- ───────────────────────── Machine/HostRegs

@[simp ↓] theorem hostAccess_keeps {a write f s k} (hf : Keeps k (f s)) (h : s.sealed = k) : Keeps k (hostAccess a write f s) := by
  simp [hostAccess, hf, h]

@[simp ↓] theorem clearRc_sealed {bar off low high s} : (clearRc bar off low high s).sealed = s.sealed := by simp [clearRc]

-- ───────────────────────── Machine/Security

@[simp ↓] theorem execSecNonce_keeps {p len s k} (h : s.sealed = k) : Keeps k (execSecNonce p len s) := by simp [execSecNonce, h]
@[simp ↓] theorem tokenAnswer_sealed {v s} : (tokenAnswer v s).sealed = s.sealed := by simp [tokenAnswer]

@[simp ↓] theorem secToken_keeps {p len ops f s k} (hf : ∀ t s, (f t s).sealed = s.sealed) (h : s.sealed = k) :
    Keeps k (secToken p len ops f s) := by simp [secToken, hf, h]

@[simp ↓] theorem execEnroll_keeps {p len s k} (h : s.sealed = k) : Keeps k (execEnroll p len s) := by simp [execEnroll, h]
@[simp ↓] theorem execRevoke_keeps {p len s k} (h : s.sealed = k) : Keeps k (execRevoke p len s) := by simp [execRevoke, h]
@[simp ↓] theorem execEpochCommit_keeps {p len s k} (h : s.sealed = k) : Keeps k (execEpochCommit p len s) := by simp [execEpochCommit, h]
@[simp ↓] theorem completeTransition_sealed {s} : (completeTransition s).sealed = s.sealed := by unfold completeTransition; split <;> simp
@[simp ↓] theorem transition_sealed {new counts t s} : (transition new counts t s).sealed = s.sealed := by simp [transition]
@[simp ↓] theorem execDeploy_keeps {p len s k} (h : s.sealed = k) : Keeps k (execDeploy p len s) := by simp [execDeploy, h]

@[simp ↓] theorem execLifecycleRelease_keeps {p len s k} (h : s.sealed = k) : Keeps k (execLifecycleRelease p len s) := by
  simp [execLifecycleRelease, h]

@[simp ↓] theorem execLcReturn_keeps {p len s k} (h : s.sealed = k) : Keeps k (execLcReturn p len s) := by simp [execLcReturn, h]
@[simp ↓] theorem execScrap_keeps {p len s k} (h : s.sealed = k) : Keeps k (execScrap p len s) := by simp [execScrap, h]

@[simp ↓] theorem execSecOwnerKeys_keeps {p len s k} (h : s.sealed = k) : Keeps k (execSecOwnerKeys p len s) := by
  simp [execSecOwnerKeys, h]

@[simp ↓] theorem spdm_keeps {version f s k} (hf : ∀ s, (f s).sealed = s.sealed) (h : s.sealed = k) : Keeps k (spdm version f s) := by
  simp [spdm, hf, h]

@[simp ↓] theorem spdmPlain_sealed {code req s} : (spdmPlain code req s).sealed = s.sealed := by simp [spdmPlain]
@[simp ↓] theorem execGetVersion_keeps {req s k} (h : s.sealed = k) : Keeps k (execGetVersion req s) := by simp [execGetVersion, h]

@[simp ↓] theorem execGetCapabilities_keeps {req s k} (h : s.sealed = k) : Keeps k (execGetCapabilities req s) := by
  simp [execGetCapabilities, h]

@[simp ↓] theorem execNegotiateAlgorithms_keeps {req s k} (h : s.sealed = k) : Keeps k (execNegotiateAlgorithms req s) := by
  simp [execNegotiateAlgorithms, h]

@[simp ↓] theorem execGetDigests_keeps {req s k} (h : s.sealed = k) : Keeps k (execGetDigests req s) := by simp [execGetDigests, h]

@[simp ↓] theorem execGetCertificate_keeps {slot offset length s k} (h : s.sealed = k) :
    Keeps k (execGetCertificate slot offset length s) := by
  simp [execGetCertificate, h]

@[simp ↓] theorem execChallenge_keeps {req s k} (h : s.sealed = k) : Keeps k (execChallenge req s) := by simp [execChallenge, h]

@[simp ↓] theorem execGetMeasurements_keeps {req signed s k} (h : s.sealed = k) : Keeps k (execGetMeasurements req signed s) := by
  simp [execGetMeasurements, h]

-- ───────────────────────── Machine/Boot

@[simp ↓] theorem execPowerOn_keeps {auxRose s k} (h : s.sealed = k) : Keeps k (execPowerOn auxRose s) := by simp [execPowerOn, h]
@[simp ↓] theorem resetLow_sealed {s} : (resetLow s).sealed = s.sealed := by simp [resetLow]
@[simp ↓] theorem execResetNFall_keeps {lowNs s k} (h : s.sealed = k) : Keeps k (execResetNFall lowNs s) := by simp [execResetNFall, h]
@[simp ↓] theorem execResetNRise_keeps {railsOk s k} (h : s.sealed = k) : Keeps k (execResetNRise railsOk s) := by simp [execResetNRise, h]
@[simp ↓] theorem execPwrFailNFall_keeps {s k} (h : s.sealed = k) : Keeps k (execPwrFailNFall s) := by simp [execPwrFailNFall, h]

@[simp ↓] theorem execPwrFailNRise_keeps {railsOk s k} (h : s.sealed = k) : Keeps k (execPwrFailNRise railsOk s) := by
  simp [execPwrFailNRise, h]

@[simp ↓] theorem execThermtrip_keeps {sensor s k} (h : s.sealed = k) : Keeps k (execThermtrip sensor s) := by
  unfold execThermtrip; split <;> simp [h]

@[simp ↓] theorem execClockLoss_keeps {freq s k} (h : s.sealed = k) : Keeps k (execClockLoss freq s) := by simp [execClockLoss, h]

@[simp ↓] theorem execRefclkWaitTimeout_keeps {freq s k} (h : s.sealed = k) : Keeps k (execRefclkWaitTimeout freq s) := by
  simp [execRefclkWaitTimeout, h]

@[simp ↓] theorem execUcieModuleDown_keeps {module s k} (h : s.sealed = k) : Keeps k (execUcieModuleDown module s) := by
  simp [execUcieModuleDown, h]

@[simp ↓] theorem bootRom_sealed {s} : (bootRom s).sealed = s.sealed := by simp [bootRom]
@[simp ↓] theorem loadImage_sealed {s} : (loadImage s).sealed = s.sealed := by simp [loadImage]
@[simp ↓] theorem wipeDies_sealed {s} : (wipeDies s).sealed = s.sealed := by simp [wipeDies]
@[simp ↓] theorem wipeTowers_sealed {us s} : (wipeTowers us s).sealed = s.sealed := by simp [wipeTowers]
@[simp ↓] theorem assignO8_sealed {e s} : (assignO8 e s).sealed = s.sealed := by simp [assignO8]
@[simp ↓] theorem bringUpOptics_sealed {failed s} : (bringUpOptics failed s).sealed = s.sealed := by simp [bringUpOptics]
@[simp ↓] theorem trainUcie_sealed {failed s} : (trainUcie failed s).sealed = s.sealed := by simp [trainUcie]
@[simp ↓] theorem enterIdle_sealed {s} : (enterIdle s).sealed = s.sealed := by unfold enterIdle; dsimp only; split <;> simp
@[simp ↓] theorem nextStep_sealed {s} : (nextStep s).sealed = s.sealed := by simp [nextStep]
@[simp ↓] theorem enterRecovery_sealed {s} : (enterRecovery s).sealed = s.sealed := by simp [enterRecovery]
@[simp ↓] theorem trainStep_sealed {ch ok s} : (trainStep ch ok s).sealed = s.sealed := by simp [trainStep]

@[simp ↓] theorem execBootStepComplete_keeps {r s k} (h : s.sealed = k) : Keeps k (execBootStepComplete r s) := by
  unfold execBootStepComplete; dsimp only; repeat' split
  all_goals simp [h]

-- ───────────────────────── Machine/Muster

@[simp ↓] theorem flood_sealed {op payload s} : (flood op payload s).sealed = s.sealed := by simp [flood]
@[simp ↓] theorem takeMgmt_sealed {op items s} : (takeMgmt op items s).sealed = s.sealed := by simp [takeMgmt]
@[simp ↓] theorem State.modMuster_sealed {s f} : (State.modMuster s f).sealed = s.sealed := by simp [State.modMuster]
@[simp ↓] theorem dropWaiting_sealed {x s} : (dropWaiting x s).sealed = s.sealed := by simp [dropWaiting]
@[simp ↓] theorem answerLost_sealed {x s} : (answerLost x s).sealed = s.sealed := by simp [answerLost]
@[simp ↓] theorem loseBoards_sealed {x s} : (loseBoards x s).sealed = s.sealed := by simp [loseBoards]
@[simp ↓] theorem fence_sealed {l s} : (fence l s).sealed = s.sealed := by simp [fence]
@[simp ↓] theorem forget_sealed {x s} : (forget x s).sealed = s.sealed := by simp [forget]
@[simp ↓] theorem enterLedger_sealed {x t s} : (enterLedger x t s).sealed = s.sealed := by simp [enterLedger]
@[simp ↓] theorem applyExpel_sealed {x cause decider s} : (applyExpel x cause decider s).sealed = s.sealed := by simp [applyExpel]
@[simp ↓] theorem selfExpel_sealed {st s} : (selfExpel st s).sealed = s.sealed := by simp [selfExpel]
@[simp ↓] theorem expelNow_sealed {x cause decider s} : (expelNow x cause decider s).sealed = s.sealed := by simp [expelNow]

@[simp ↓] theorem execExpel_keeps {target cause decider s k} (h : s.sealed = k) : Keeps k (execExpel target cause decider s) := by
  simp [execExpel, h]

@[simp ↓] theorem execDepart_keeps {src code s k} (h : s.sealed = k) : Keeps k (execDepart src code s) := by simp [execDepart, h]
@[simp ↓] theorem decideOn_sealed {x s} : (decideOn x s).sealed = s.sealed := by simp [decideOn]
@[simp ↓] theorem suspectOf_sealed {x by_ s} : (suspectOf x by_ s).sealed = s.sealed := by simp [suspectOf]
@[simp ↓] theorem unsuspect_sealed {x by_ s} : (unsuspect x by_ s).sealed = s.sealed := by simp [unsuspect]
@[simp ↓] theorem sendSuspect_sealed {x withdraw s} : (sendSuspect x withdraw s).sealed = s.sealed := by simp [sendSuspect]

@[simp ↓] theorem judgePeer_sealed {x s} : (judgePeer x s).sealed = s.sealed := by
  unfold judgePeer; dsimp only; repeat' split
  all_goals simp

@[simp ↓] theorem execHeartbeatPeriod_keeps {s k} (h : s.sealed = k) : Keeps k (execHeartbeatPeriod s) := by simp [execHeartbeatPeriod, h]

@[simp ↓] theorem execHeartbeat_keeps {src bootCount health benched leaving s k} (h : s.sealed = k) :
    Keeps k (execHeartbeat src bootCount health benched leaving s) := by
  simp [execHeartbeat, h]

@[simp ↓] theorem execSuspect_keeps {src target withdraw s k} (h : s.sealed = k) : Keeps k (execSuspect src target withdraw s) := by
  simp [execSuspect, h]

@[simp ↓] theorem execIsolationTimeout_keeps {s k} (h : s.sealed = k) : Keeps k (execIsolationTimeout s) := by
  unfold execIsolationTimeout; split <;> simp [h]

@[simp ↓] theorem clearSeq_sealed {d s} : (clearSeq d s).sealed = s.sealed := by simp [clearSeq]
@[simp ↓] theorem liftFence_sealed {l s} : (liftFence l s).sealed = s.sealed := by simp [liftFence]
@[simp ↓] theorem liftFences_sealed {d s} : (liftFences d s).sealed = s.sealed := by simp [liftFences]
@[simp ↓] theorem applyAdmit_sealed {d s} : (applyAdmit d s).sealed = s.sealed := by simp [applyAdmit]
@[simp ↓] theorem admitNow_sealed {d s} : (admitNow d s).sealed = s.sealed := by simp [admitNow]
@[simp ↓] theorem execMusterAdmit_keeps {device s k} (h : s.sealed = k) : Keeps k (execMusterAdmit device s) := by simp [execMusterAdmit, h]

@[simp ↓] theorem execJoin_keeps {link src bootCount serial rejoin s k} (h : s.sealed = k) :
    Keeps k (execJoin link src bootCount serial rejoin s) := by
  simp [execJoin, h]

@[simp ↓] theorem execSeqReset_keeps {device s k} (h : s.sealed = k) : Keeps k (execSeqReset device s) := by simp [execSeqReset, h]

@[simp ↓] theorem execFenceLift_keeps {link s k} (h : s.sealed = k) : Keeps k (execFenceLift link s) := by
  unfold execFenceLift; split <;> simp [h]

@[simp ↓] theorem sendLeave_sealed {s} : (sendLeave s).sealed = s.sealed := by simp [sendLeave]
@[simp ↓] theorem execLeave_keeps {src health s k} (h : s.sealed = k) : Keeps k (execLeave src health s) := by simp [execLeave, h]
@[simp ↓] theorem execGrant_keeps {src granted s k} (h : s.sealed = k) : Keeps k (execGrant src granted s) := by simp [execGrant, h]
@[simp ↓] theorem execLedger_keeps {device time s k} (h : s.sealed = k) : Keeps k (execLedger device time s) := by simp [execLedger, h]
@[simp ↓] theorem execLedgerAgeOut_keeps {s k} (h : s.sealed = k) : Keeps k (execLedgerAgeOut s) := by simp [execLedgerAgeOut, h]

@[simp ↓] theorem execLeaveTimeout_keeps {s k} (h : s.sealed = k) : Keeps k (execLeaveTimeout s) := by
  unfold execLeaveTimeout; split <;> simp [h]

@[simp ↓] theorem execBenchRecovery_keeps {s k} (h : s.sealed = k) : Keeps k (execBenchRecovery s) := by simp [execBenchRecovery, h]
@[simp ↓] theorem execHealthScore_keeps {x s k} (h : s.sealed = k) : Keeps k (execHealthScore x s) := by simp [execHealthScore, h]
@[simp ↓] theorem execHealthBand_keeps {s k} (h : s.sealed = k) : Keeps k (execHealthBand s) := by simp [execHealthBand, h]
@[simp ↓] theorem setTellCell_sealed {k c s} : (setTellCell k c s).sealed = s.sealed := by simp [setTellCell]

@[simp ↓] theorem execTelltaleStart_keeps {psq patterns s k} (h : s.sealed = k) : Keeps k (execTelltaleStart psq patterns s) := by
  unfold execTelltaleStart; split <;> simp [h]

@[simp ↓] theorem regate_sealed {p s} : (regate p s).sealed = s.sealed := by simp [regate]
@[simp ↓] theorem retire_sealed {p s} : (retire p s).sealed = s.sealed := by simp [retire]
@[simp ↓] theorem tellPass_sealed {t s} : (tellPass t s).sealed = s.sealed := by simp [tellPass]
@[simp ↓] theorem tellFail_sealed {t sect s} : (tellFail t sect s).sealed = s.sealed := by simp [tellFail]

@[simp ↓] theorem execTelltaleDone_keeps {pass sect s k} (h : s.sealed = k) : Keeps k (execTelltaleDone pass sect s) := by
  unfold execTelltaleDone; split <;> simp [h]

@[simp ↓] theorem execCutBegin_keeps {p len s k} (h : s.sealed = k) : Keeps k (execCutBegin p len s) := by simp [execCutBegin, h]
@[simp ↓] theorem holdCut_sealed {id c s} : (holdCut id c s).sealed = s.sealed := by simp [holdCut]
@[simp ↓] theorem noteReady_sealed {id src c s} : (noteReady id src c s).sealed = s.sealed := by simp [noteReady]

@[simp ↓] theorem execCutReady_keeps {src cut s k} (h : s.sealed = k) : Keeps k (execCutReady src cut s) := by
  unfold execCutReady; dsimp only; split <;> simp [h]

@[simp ↓] theorem execCutHeld_keeps {cut s k} (h : s.sealed = k) : Keeps k (execCutHeld cut s) := by
  unfold execCutHeld; dsimp only; split <;> simp [h]

@[simp ↓] theorem execCutFail_keeps {cut s k} (h : s.sealed = k) : Keeps k (execCutFail cut s) := by
  unfold execCutFail; dsimp only; split <;> simp [h]

@[simp ↓] theorem execCutTimeout_keeps {cut s k} (h : s.sealed = k) : Keeps k (execCutTimeout cut s) := by
  unfold execCutTimeout; split <;> simp [h]

@[simp ↓] theorem execCutRelease_keeps {p len s k} (h : s.sealed = k) : Keeps k (execCutRelease p len s) :=
  mailbox_keeps (fun l => by dsimp only; split <;> simp) h

@[simp ↓] theorem execCutStatus_keeps {p len s k} (h : s.sealed = k) : Keeps k (execCutStatus p len s) := by simp [execCutStatus, h]

@[simp ↓] theorem execMusterStatus_keeps {p len s k} (h : s.sealed = k) : Keeps k (execMusterStatus p len s) := by
  simp [execMusterStatus, h]

@[simp ↓] theorem execHealthStatus_keeps {p len s k} (h : s.sealed = k) : Keeps k (execHealthStatus p len s) := by
  simp [execHealthStatus, h]

@[simp ↓] theorem execMusterLeave_keeps {p len s k} (h : s.sealed = k) : Keeps k (execMusterLeave p len s) := by simp [execMusterLeave, h]

@[simp ↓] theorem execMusterRejoin_keeps {p len s k} (h : s.sealed = k) : Keeps k (execMusterRejoin p len s) := by
  simp [execMusterRejoin, h]

-- ───────────────────────── Machine/HostWrites

@[simp ↓] theorem readCapture_keeps {n a s k} (h : s.sealed = k) : Keeps k (readCapture n a s) := by
  unfold readCapture; dsimp only; repeat' split
  all_goals simp [h]

@[simp ↓] theorem execRcRegisterRead_keeps {a s k} (h : s.sealed = k) : Keeps k (execRcRegisterRead a s) := by simp [execRcRegisterRead, h]
@[simp ↓] theorem writeBgeCtrl_keeps {v s k} (h : s.sealed = k) : Keeps k (writeBgeCtrl v s) := by unfold writeBgeCtrl; split <;> simp [h]
@[simp ↓] theorem writeMsix_keeps {a v s k} (h : s.sealed = k) : Keeps k (writeMsix a v s) := by simp [writeMsix, h]

@[simp ↓] theorem writeDoorbell_keeps {p b v s k} (h : s.sealed = k) : Keeps k (writeDoorbell p b v s) := by
  unfold writeDoorbell; split <;> simp [h]

@[simp ↓] theorem writePage_keeps {a v s k} (h : s.sealed = k) : Keeps k (writePage a v s) := by simp [writePage, h]

@[simp ↓] theorem writeRequest_keeps {p code len s k} (h : s.sealed = k) : Keeps k (writeRequest p code len s) := by
  unfold writeRequest; split <;> simp [h]

@[simp ↓] theorem writeHalyard_keeps {a v s k} (h : s.sealed = k) : Keeps k (writeHalyard a v s) := by
  unfold writeHalyard; dsimp only; split <;> simp [h]

@[simp ↓] theorem writeDomain_sealed {d off m s} : (writeDomain d off m s).sealed = s.sealed := by simp [writeDomain]
@[simp ↓] theorem writeShape_sealed {n m s} : (writeShape n m s).sealed = s.sealed := by simp [writeShape]

@[simp ↓] theorem writeTimeCtrl_keeps {p v s k} (h : s.sealed = k) : Keeps k (writeTimeCtrl p v s) := by
  have hr : Keeps k (execRelock p s) := execRelock_keeps h
  unfold writeTimeCtrl; dsimp only; split
  · simp [h]
  · split
    · next t e => simp [hr t e]
    · exact hr

@[simp ↓] theorem writeTime_keeps {a v s k} (h : s.sealed = k) : Keeps k (writeTime a v s) := by
  unfold writeTime; dsimp only; repeat' split
  all_goals simp [h]

@[simp ↓] theorem writeBlock_keeps {a v s k} (h : s.sealed = k) : Keeps k (writeBlock a v s) := by
  unfold writeBlock; dsimp only; split <;> simp [h]

@[simp ↓] theorem execRegisterWrite_keeps {a value s k} (h : s.sealed = k) : Keeps k (execRegisterWrite a value s) := by
  unfold execRegisterWrite; dsimp only; repeat' split
  all_goals simp [h]

-- ───────────────────────── Machine/Dispatch
-- MANUAL 17311 exec i s : Host.Outcome State Fault Refusal

-- ───────────────────────── every command

/-- Each command's own lemma, one command at a time. -/
theorem exec_keeps (i : Instr) (s : State) : Keeps s.sealed (exec i s) := by
  cases i <;> (unfold exec; simp)

/-- Settles O57: the queue and the fused identity are the sealed part of the state, which every command keeps. -/
theorem commandsLeaveTheQueueAlone : Obligations.CommandsLeaveTheQueueAlone := by
  intro i s t h
  have hk : t.sealed = s.sealed := exec_keeps i s t h
  exact ⟨congrArg Sealed.queue hk, congrArg Sealed.serial hk, congrArg Sealed.part hk, congrArg Sealed.stepping hk⟩

end Sys2Proof.Machine
end

section
/-! SUPPORT. Host accesses (R8, R139, R140, R266, R303 to R306, R317, R318): what the controllers count and record beside a read or a write leaves device memory
and the configuration alone, and what each access of the host comes down to. -/

namespace Sys2Proof.Machine

-- ───────────────────────── reads and records leave device memory and the configuration as they are

variable {s : State}

@[simp ↓] theorem tower_ite {c : Prop} [Decidable c] {a b : State} : (if c then a else b).tower = if c then a.tower else b.tower := apply_ite ..

@[simp ↓] theorem cfg_ite {c : Prop} [Decidable c] {a b : State} : (if c then a else b).cfg = if c then a.cfg else b.cfg := apply_ite ..

@[simp] theorem fire_memory {e} : (fire e s).tower = s.tower ∧ (fire e s).cfg = s.cfg := by
  simp [fire]

@[simp] theorem fireFor_memory {code} : (fireFor code s).tower = s.tower ∧ (fireFor code s).cfg = s.cfg := by
  unfold fireFor; split <;> simp

@[simp] theorem place_memory {code die unit body} : (place code die unit body s).tower = s.tower ∧ (place code die unit body s).cfg = s.cfg := by
  simp [place]

@[simp] theorem flushSuppressed_memory {code} : (flushSuppressed code s).tower = s.tower ∧ (flushSuppressed code s).cfg = s.cfg := by
  simp [flushSuppressed]

@[simp] theorem noteHealth_memory {code unit} : (noteHealth code unit s).tower = s.tower ∧ (noteHealth code unit s).cfg = s.cfg := by
  simp [noteHealth]

@[simp] theorem recordLimited_memory {code die unit body} :
    (recordLimited code die unit body s).tower = s.tower ∧ (recordLimited code die unit body s).cfg = s.cfg := by
  simp [recordLimited]

/-- MEM_UNCORR is no fatal record: nothing halts. -/
@[simp] theorem recordUncorr_memory {c addr src} : (recordUncorr c addr src s).tower = s.tower ∧ (recordUncorr c addr src s).cfg = s.cfg := by
  have h : unlimited 0x2400 = false := by decide
  simp [recordUncorr, record, h]

theorem forAll_memory {α : Type} {f : α → State → State} (h : ∀ x t, (f x t).tower = t.tower ∧ (f x t).cfg = t.cfg) {l : List α} :
    (forAll l f s).tower = s.tower ∧ (forAll l f s).cfg = s.cfg :=
  Prod.mk.inj (foldl_keeps (fun t : State => (t.tower, t.cfg)) fun t x => Prod.ext (h x t).1 (h x t).2)

@[simp] theorem countSymbols_memory {c fixed} : (countSymbols c fixed s).tower = s.tower ∧ (countSymbols c fixed s).cfg = s.cfg :=
  forAll_memory fun _ t => by simp [countDq]

@[simp] theorem countRead_memory {k src g} : (countRead k src g s).tower = s.tower ∧ (countRead k src g s).cfg = s.cfg := by
  unfold countRead; split
  · simp
  · dsimp only; split <;> simp

@[simp] theorem noteRead_memory {k g} : (noteRead k g s).tower = s.tower ∧ (noteRead k g s).cfg = s.cfg := by
  simp [noteRead]

@[simp] theorem noteSpan_memory {key l} : (noteSpan key l s).tower = s.tower ∧ (noteSpan key l s).cfg = s.cfg :=
  forAll_memory fun _ _ => noteRead_memory

@[simp] theorem outdate_memory {key l} : (outdate key l s).tower = s.tower ∧ (outdate key l s).cfg = s.cfg := by
  simp [outdate]

@[simp] theorem bumpGens_memory {o n} : (bumpGens o n s).tower = s.tower ∧ (bumpGens o n s).cfg = s.cfg := by
  unfold bumpGens; split
  · simp
  · refine forAll_memory fun i t => ?_
    dsimp only; repeat' split
    all_goals simp

theorem Mem.write_nil {m : Mem} {key : Nat → Nat} {a : Nat} {poison : Bool} : m.write key a [] poison = m := rfl

/-- R139: a write of device memory stores its bytes, whatever the controllers count and record beside it. -/
theorem writeDev_tower {o bs poison} : (writeDev o bs poison s).tower = s.tower.write s.cfg.key o bs poison := by
  unfold writeDev
  split
  · next h => rw [List.isEmpty_iff.mp h, Mem.write_nil]
  · simp

-- ───────────────────────── host accesses to tower memory (R139, R140, R303)

theorem execHostMemRead_served {addr len} (hs : s.memServed = true) (ha : addr + len ≤ towerWindow) :
    execHostMemRead addr len s = .next (hostMem (.read addr len) s) := by simp [execHostMemRead, hs, Nat.not_lt.mpr ha]

theorem execHostMemWrite_served {addr bytes poison} (hs : s.memServed = true) (ha : addr + bytes.length ≤ towerWindow) :
    execHostMemWrite addr bytes poison s = .next (hostMem (.write addr bytes poison) s) := by simp [execHostMemWrite, hs, Nat.not_lt.mpr ha]

theorem hostMem_performed {x} (hw : s.tow.hostWait = []) (hp : s.hostPasses x = true) : hostMem x s = performHost x s := by
  simp [hostMem, hw, hp]

theorem hostMem_waits {x} (h : s.tow.hostWait ≠ [] ∨ s.hostPasses x = false) :
    hostMem x s = { s with tow := { s.tow with hostWait := s.tow.hostWait ++ [x] } } := by
  rcases h with h | h <;> simp [hostMem, h]

-- ───────────────────────── register accesses (R266, R305, R306)

/-- An access that its requester may make, at a place and of a size that its target takes, of a device that answers there. -/
theorem hostAccess_served {a : RegAccess} {write f} (hs : s.hostSeen = true) (hb : a.offset + a.size ≤ barSize a.bar) (hz : 0 < a.size)
    (ha : allowed a write s = true) (hf : fits a = true) (hh : s.halted = false ∨ whenHalted a = true) : hostAccess a write f s = f s := by
  have : ¬ (barSize a.bar < a.offset + a.size ∨ a.size = 0) := by omega
  rcases hh with hh | hh <;> simp [hostAccess, hs, this, ha, hf, hh]

/-- R266: an access that its requester may not make. -/
theorem hostAccess_denied {a : RegAccess} {write f} {q : BitVec 20} (hs : s.hostSeen = true) (hb : a.offset + a.size ≤ barSize a.bar)
    (hz : 0 < a.size) (hp : a.pasid = some q) (ha : allowed a write s = false) : hostAccess a write f s = .next (bindError q s) := by
  have : ¬ (barSize a.bar < a.offset + a.size ∨ a.size = 0) := by omega
  simp [hostAccess, hs, this, ha, hp]

/-- R266: BAR0 and BAR4 are burgee 0's, which accesses them without a PASID. -/
theorem allowed_pasid {a : RegAccess} {write} {q : BitVec 20} (hp : a.pasid = some q) (hb : a.bar = 0 ∨ a.bar = 4) : allowed a write s = false := by
  rcases hb with hb | hb <;> simp [allowed, hb, hp]

theorem registerAccess_denied {a : RegAccess} {v} {q : BitVec 20} (hs : s.hostSeen = true) (ho : a.offset + a.size ≤ barSize a.bar)
    (hz : 0 < a.size) (hp : a.pasid = some q) (hb : a.bar = 0 ∨ a.bar = 4) :
    execRegisterWrite a v s = .next (bindError q s) ∧ execRcRegisterRead a s = .next (bindError q s) := by
  have ha (write) : allowed a write s = false := allowed_pasid hp hb
  exact ⟨hostAccess_denied hs ho hz hp (ha true), hostAccess_denied hs ho hz hp (ha false)⟩

theorem inMailbox_iff {a : RegAccess} : inMailbox a = true ↔ a.bar = 4 ∧ 0x10000 ≤ a.offset ∧ a.offset < 0x20000 := by
  simp [inMailbox, and_assoc]

/-- R305: eight aligned bytes of the mailbox buffer are accessible to the manager in any state of the device. -/
theorem hostAccess_mailbox {off write f} (hs : s.hostSeen = true) (hl : 0x10000 ≤ off) (hh : off + 8 ≤ 0x20000) (h8 : off % 8 = 0) :
    hostAccess ⟨none, 4, off, 8⟩ write f s = f s := by
  have hm : inMailbox ⟨none, 4, off, 8⟩ = true := inMailbox_iff.mpr ⟨rfl, hl, by dsimp only; omega⟩
  refine hostAccess_served hs ?_ (Nat.succ_pos 7) rfl ?_ (.inr ?_)
  · show off + 8 ≤ 0x40000
    omega
  · simp [fits, hm, h8]
  · simp [whenHalted, hm]

/-- R317: a write of MGR_IRQ_STAT clears the bits that are one. -/
theorem execRegisterWrite_irqStat {v : BitVec 512} (h : ManagerServed s) :
    execRegisterWrite ⟨none, 0, 0x038, 8⟩ v s =
      .next { s with irqStat := s.irqStat &&& ~~~ (BitVec.ofNat 8 (v.toNat % 2 ^ 64 % 2 ^ 64)) } := by
  obtain ⟨hs, hh⟩ := h
  unfold execRegisterWrite
  rw [hostAccess_served hs (by decide) (by decide) rfl (by decide) (.inl hh)]
  rfl

theorem execRegisterWrite_mailbox {off} {v : BitVec 512} (hs : s.hostSeen = true) (hl : 0x10000 ≤ off) (hh : off + 8 ≤ 0x20000)
    (h8 : off % 8 = 0) : execRegisterWrite ⟨none, 4, off, 8⟩ v s =
      .next { s with mbox := { s.mbox with buf := putCells s.mbox.buf (off - 0x10000) (leBytes 8 (v.toNat % 2 ^ 64)) } } := by
  have hm : inMailbox ⟨none, 4, off, 8⟩ = true := inMailbox_iff.mpr ⟨rfl, hl, by dsimp only; omega⟩
  simp [execRegisterWrite, hostAccess_mailbox hs hl hh h8, hm]

theorem execRcRegisterRead_mailbox {off} (hs : s.hostSeen = true) (hl : 0x10000 ≤ off) (hh : off + 8 ≤ 0x20000) (h8 : off % 8 = 0) :
    execRcRegisterRead ⟨none, 4, off, 8⟩ s = .next (emit (.memData (cellsAt s.mbox.buf (off - 0x10000) 8) false) s) := by
  have hm : inMailbox ⟨none, 4, off, 8⟩ = true := inMailbox_iff.mpr ⟨rfl, hl, by dsimp only; omega⟩
  have : ¬ off < 0x1050 := by omega
  simp [execRcRegisterRead, hostAccess_mailbox hs hl hh h8, hm, this]

/-- R8, R311: a read of a page's count of bad doorbells returns it and clears it. -/
theorem execRcRegisterRead_dbErr {b} (h : ManagerServed s) (hb : b < 256) :
    execRcRegisterRead ⟨none, 2, b * 0x1000 + 0x040, 4⟩ s =
      .next (emit (.readValue (BitVec.ofNat 64 ((s.burgee b).dbErr % 2 ^ 32))) (s.modBurgee b fun g => { g with dbErr := 0 })) := by
  obtain ⟨hs, hh⟩ := h
  have hoff : (b * 0x1000 + 0x040) / 8 * 8 = b * 0x1000 + 0x040 := by omega
  have hpage : (b * 0x1000 + 0x040) / 0x1000 = b := by omega
  have hreg : (b * 0x1000 + 0x040) % 0x1000 = 0x040 := by omega
  have hlow : (b * 0x1000 + 0x040) % 8 = 0 := by omega
  have h4 : (b * 0x1000 + 0x040) % 4 = 0 := by omega
  have hbar : b * 0x1000 + 0x040 + 4 ≤ barSize 2 := by show _ ≤ 0x100000; omega
  unfold execRcRegisterRead
  rw [hostAccess_served hs hbar (Nat.succ_pos 3) (by simp [allowed]) (by simp [fits, inMailbox, h4]) (.inl hh)]
  simp [inMailbox, hoff, State.reg, State.pageReg, clearRc, hpage, hreg, hlow]

/-- R318: an entry that is unmasked is pending no more, and one that was pending sends its message. -/
theorem execMsixUnmask_served {entry} (h : ManagerServed s) (he : entry < 2048) :
    execMsixUnmask none entry s =
      .next (let e := Assoc.get s.msix entry {}
        let t := { s with msix := Assoc.set s.msix entry { e with masked := false, pend := false } }
        if e.pend then emit (.msix entry e.addr e.data) t else t) := by
  obtain ⟨hs, hh⟩ := h
  simp [execMsixUnmask, managerWrite, fromManager, hs, hh, Nat.not_le.mpr he]

/-- Settles O40: each access is served, waits or is refused as its lemma says. -/
theorem hostAccesses : Obligations.HostAccesses := by
  intro s
  refine ⟨fun addr len hs ha hw hp => ?_, fun addr bytes poison hs ha hw hp => ?_, fun i x hi hs hw => ?_, fun addr hs => ?_,
    fun off v hs hl hh h8 => ⟨?_, execRcRegisterRead_mailbox hs hl hh h8⟩, fun v h => ⟨_, execRegisterWrite_irqStat h, rfl⟩,
    fun b h hb => execRcRegisterRead_dbErr h hb, fun a q v hs hp hb hz hsz => ?_, fun entry h he => ?_⟩
  · exact ⟨_, execHostMemRead_served hs ha, by rw [hostMem_performed hw hp]; rfl⟩
  · exact ⟨_, execHostMemWrite_served hs ha, by rw [hostMem_performed hw hp]; exact writeDev_tower⟩
  · rcases hi with ⟨addr, len, ha, rfl, rfl⟩ | ⟨addr, bytes, poison, ha, rfl, rfl⟩
    · exact (execHostMemRead_served hs ha).trans (by rw [hostMem_waits hw])
    · exact (execHostMemWrite_served hs ha).trans (by rw [hostMem_waits hw])
  · exact if_pos hs
  · exact ⟨_, execRegisterWrite_mailbox hs hl hh h8, rfl, rfl⟩
  · exact registerAccess_denied hs hsz hz hp hb
  · refine ⟨_, execMsixUnmask_served h he, ?_⟩
    dsimp only
    split <;> simp_all [emit]

end Sys2Proof.Machine
end

section
/-! SUPPORT. The way of a command from its ring to its completion record (R17, R79, R308 to R316, R351 to R356). Two views of the state carry it: `work`, the
tables of the scheduler and of the burgees, which reads, writes, records and messages hand on; and `ledger`, each ring's count of completions and each command's
issuer, which whatever else happens in the step of a command hands on until its completion record is written. As for the sealed part, one lemma per function of the
model says so. -/

namespace Sys2Proof.Machine

-- ───────────────────────── the two views

/-- What reads, writes, records and messages leave alone: the scheduler's tables and the burgees. -/
structure Work where
  sched   : Sched
  burgees : List (Nat × Burgee)

def State.work (s : State) : Work := ⟨s.sched, s.burgees⟩

/-- Each burgee's count of completions, in its ring and in all, and each command's burgee and issuer. -/
structure Ledger where
  done   : Nat → BitVec 32 × Nat
  issuer : Nat → Option (Nat × Option (Nat × Nat) × Option (Nat × Nat × Nat))

/-- The ledger of the tables that it is drawn from. -/
def ledgerOf (cmds : List (Nat × Cmd)) (burgees : List (Nat × Burgee)) : Ledger where
  done b   := let g := Assoc.get burgees b {}; (g.cplWrite, g.cmdDone)
  issuer n := (Assoc.find cmds n).map fun c => (c.burgee, c.sub, c.neural)

def Work.ledger (w : Work) : Ledger := ledgerOf w.sched.cmds w.burgees

@[simp ↓] theorem work_mk {pending up free ident pwr tower scratch sram cfg gen hoist squares ctxs burgees sched hub links tow radio fh
    time msix irqStat mbox elog hly sec energy muster out} :
    State.work ⟨pending, up, free, ident, pwr, tower, scratch, sram, cfg, gen, hoist, squares, ctxs, burgees, sched, hub, links, tow, radio, fh,
      time, msix, irqStat, mbox, elog, hly, sec, energy, muster, out⟩ = ⟨sched, burgees⟩ := (rfl)

@[simp ↓] theorem work_fold (s : State) : (⟨s.sched, s.burgees⟩ : Work) = s.work := rfl

@[simp ↓] theorem work_ite {c : Prop} [Decidable c] {s t : State} : (if c then s else t).work = if c then s.work else t.work := apply_ite ..

@[simp ↓] theorem work_forAll {α : Type} {f : α → State → State} (h : ∀ x s, (f x s).work = s.work) {l : List α} {s : State} :
    (forAll l f s).work = s.work := foldl_keeps State.work fun s x => h x s

@[simp ↓] theorem ledger_mk {sched burgees} : Work.ledger ⟨sched, burgees⟩ = ledgerOf sched.cmds burgees := (rfl)

@[simp ↓] theorem ledger_fold (s : State) : ledgerOf s.sched.cmds s.burgees = s.work.ledger := rfl

@[simp ↓] theorem ledger_ite {c : Prop} [Decidable c] {v w : Work} : (if c then v else w).ledger = if c then v.ledger else w.ledger :=
  apply_ite ..

@[simp ↓] theorem ledger_forAll {α : Type} {f : α → State → State} (h : ∀ x s, (f x s).work.ledger = s.work.ledger) {l : List α} {s : State} :
    (forAll l f s).work.ledger = s.work.ledger := foldl_keeps (fun s : State => s.work.ledger) fun s x => h x s

section
variable {s t : State}

theorem sched_of_work (h : t.work = s.work) : t.sched = s.sched := congrArg Work.sched h

theorem cmd_of_work (h : t.work = s.work) (n : Nat) : t.cmd n = s.cmd n := congrArg (fun w : Work => Assoc.find w.sched.cmds n) h

theorem burgee_of_work (h : t.work = s.work) (b : Nat) : t.burgee b = s.burgee b := congrArg (fun w : Work => Assoc.get w.burgees b {}) h

/-- A ledger is equal where completions and issuers are. -/
theorem ledger_ext (hb : ∀ b, (t.burgee b).cplWrite = (s.burgee b).cplWrite ∧ (t.burgee b).cmdDone = (s.burgee b).cmdDone)
    (hn : ∀ n, (t.cmd n).map (fun c => (c.burgee, c.sub, c.neural)) = (s.cmd n).map fun c => (c.burgee, c.sub, c.neural)) : t.work.ledger = s.work.ledger :=
  congrArg₂ Ledger.mk (funext fun b => Prod.ext (hb b).1 (hb b).2) (funext hn)

end

-- ───────────────────────── updates of the tables

section
variable {s : State}

@[simp ↓] theorem emit_work {o} : (emit o s).work = s.work := (rfl)
@[simp ↓] theorem setSquare_work {p q} : (State.setSquare p q s).work = s.work := (rfl)
@[simp ↓] theorem setCtx_work {p slot c} : (State.setCtx p slot c s).work = s.work := (rfl)
@[simp ↓] theorem setChan_work {c v} : (State.setChan c v s).work = s.work := (rfl)

/-- A burgee whose completions count as before. -/
@[simp ↓] theorem setBurgee_ledger {b v} (h : v.cplWrite = (s.burgee b).cplWrite ∧ v.cmdDone = (s.burgee b).cmdDone) :
    (State.setBurgee b v s).work.ledger = s.work.ledger :=
  ledger_ext (fun j => by
    by_cases hj : j = b
    · subst hj; simp [h]
    · simp [State.burgee_setBurgee_ne hj]) fun _ => rfl

@[simp ↓] theorem modBurgee_ledger {b f} (h : ∀ g : Burgee, (f g).cplWrite = g.cplWrite ∧ (f g).cmdDone = g.cmdDone) :
    (State.modBurgee b f s).work.ledger = s.work.ledger := setBurgee_ledger (h _)

@[simp ↓] theorem modCmd_ledger {n f} (h : ∀ c : Cmd, (f c).burgee = c.burgee ∧ (f c).sub = c.sub ∧ (f c).neural = c.neural) :
    (State.modCmd n f s).work.ledger = s.work.ledger :=
  ledger_ext (fun _ => ⟨rfl, rfl⟩) fun j => by
    by_cases hj : j = n
    · subst hj; simp [h, Function.comp_def]
    · rw [State.cmd_modCmd_ne hj]

/-- A command that is rewritten under its burgee and issuer. -/
theorem setCmd_ledger {n c d} (hc : s.cmd n = some c) (h : (d.burgee, d.sub, d.neural) = (c.burgee, c.sub, c.neural)) :
    (State.setCmd n d s).work.ledger = s.work.ledger :=
  ledger_ext (fun _ => ⟨rfl, rfl⟩) fun j => by
    by_cases hj : j = n
    · subst hj; simp [hc, h]
    · rw [State.cmd_setCmd_ne hj]

end

-- ───────────────────────── what leaves the scheduler and the burgees alone

section
variable {s : State}

@[simp ↓] theorem fire_work {e} : (fire e s).work = s.work := by simp [fire]
@[simp ↓] theorem fireFor_work {code} : (fireFor code s).work = s.work := by unfold fireFor; split <;> simp
@[simp ↓] theorem place_work {code die unit body} : (place code die unit body s).work = s.work := by simp [place]
@[simp ↓] theorem flushSuppressed_work {code} : (flushSuppressed code s).work = s.work := by simp [flushSuppressed]
@[simp ↓] theorem noteHealth_work {code unit} : (noteHealth code unit s).work = s.work := by simp [noteHealth]
@[simp ↓] theorem recordLimited_work {code die unit body} : (recordLimited code die unit body s).work = s.work := by simp [recordLimited]

/-- A record that is not fatal: nothing halts. -/
theorem record_work {code die unit body} (h : unlimited code = false) : (record code die unit body s).work = s.work := by simp [record, h]

@[simp ↓] theorem countDq_work {c dq} : (countDq c dq s).work = s.work := by simp [countDq]
@[simp ↓] theorem countSymbols_work {c fixed} : (countSymbols c fixed s).work = s.work := by simp [countSymbols]
@[simp ↓] theorem recordUncorr_work {c addr src} : (recordUncorr c addr src s).work = s.work := record_work (by decide)

@[simp ↓] theorem countRead_work {k src g} : (countRead k src g s).work = s.work := by
  unfold countRead; dsimp only; repeat' split
  all_goals simp

@[simp ↓] theorem noteRead_work {k g} : (noteRead k g s).work = s.work := by simp [noteRead]
@[simp ↓] theorem noteSpan_work {key l} : (noteSpan key l s).work = s.work := by simp [noteSpan]
@[simp ↓] theorem outdate_work {key l} : (outdate key l s).work = s.work := by simp [outdate]
@[simp ↓] theorem readDev_work {o n} : (readDev o n s).2.work = s.work := by simp [readDev]

@[simp ↓] theorem bumpGens_work {o n} : (bumpGens o n s).work = s.work := by
  unfold bumpGens; split
  · rfl
  · exact work_forAll fun i s => by dsimp only; split <;> simp

@[simp ↓] theorem writeDev_work {o bs poison} : (writeDev o bs poison s).work = s.work := by simp [writeDev]
@[simp ↓] theorem putDev_work {o gs} : (putDev o gs s).work = s.work := by simp [putDev]

@[simp ↓] theorem newOut_work {o} : (newOut o s).2.work = s.work := (rfl)
@[simp ↓] theorem sendSub_work {dst burgee cmd m} : (sendSub dst burgee cmd m s).work = s.work := by simp [sendSub]
@[simp ↓] theorem enterHub_work {p t} : (enterHub p t s).work = s.work := by simp [enterHub]
@[simp ↓] theorem advance_work {p slot} : (advance p slot s).work = s.work := by simp [advance]
@[simp ↓] theorem drawFree_work : (drawFree s).2.work = s.work := (rfl)
@[simp ↓] theorem countCycles_work {f p slot i} : (countCycles f p slot i s).work = s.work := by simp [countCycles]
@[simp ↓] theorem countHeld_work {p slot i} : (countHeld p slot i s).work = s.work := by simp [countHeld]
@[simp ↓] theorem countFull_work {p slot i} : (countFull p slot i s).work = s.work := by simp [countFull]

end

@[simp ↓] theorem admitHub_work {n} {s : State} : (admitHub n s).work = s.work := by
  induction n generalizing s with
  | zero => rfl
  | succ n ih => unfold admitHub; split <;> simp [ih]

section
variable {s : State}

@[simp ↓] theorem refillHub_work : (refillHub s).work = s.work := by simp [refillHub]
@[simp ↓] theorem wakeArray_work {p} : (wakeArray p s).work = s.work := work_forAll fun slot s => by dsimp only; split <;> simp
@[simp ↓] theorem withdrawHeld_work {p slot} : (withdrawHeld p slot s).work = s.work := by simp [withdrawHeld]
@[simp ↓] theorem deadTags_work {p slot} : (deadTags p slot s).work = s.work := by simp [deadTags]
@[simp ↓] theorem dropOuts_work {p slot} : (dropOuts p slot s).work = s.work := by simp [dropOuts]
@[simp ↓] theorem countBlocked_work {p slot} : (countBlocked p slot s).work = s.work := work_forAll fun i s => by split <;> simp
@[simp ↓] theorem signalLocal_work {addr v add} : (signalLocal addr v add s).work = s.work := by simp [signalLocal]
@[simp ↓] theorem writeCounters_work {d} : (writeCounters d s).work = s.work := by simp [writeCounters]

@[simp ↓] theorem raiseVector_work {b vector ok irq} : (raiseVector b vector ok irq s).work = s.work := by
  unfold raiseVector; repeat' split
  all_goals simp

@[simp ↓] theorem checkCopy_work {d} : (checkCopy d s).2.work = s.work := by
  unfold checkCopy; dsimp only; repeat' split
  all_goals simp

end

-- ───────────────────────── what keeps the ledger

section
variable {s : State}

@[simp ↓] theorem takeDraws_ledger {l} : (takeDraws l s).work.ledger = s.work.ledger := by simp [takeDraws]
@[simp ↓] theorem takeFloorIn_ledger {part res n} : (takeFloorIn part res n s).work.ledger = s.work.ledger := by
  unfold takeFloorIn; split <;> simp

@[simp ↓] theorem noteServed_ledger {res part} : (noteServed res part s).work.ledger = s.work.ledger := by simp [noteServed]
@[simp ↓] theorem chargeFor_ledger {b o n writes merges} : (chargeFor b o n writes merges s).work.ledger = s.work.ledger := by
  simp [chargeFor, chargeIn]

/-- FORFEIT is no fatal record: nothing halts. -/
@[simp ↓] theorem forfeit_ledger {rung cause b d0 d1} : (forfeit rung cause b d0 d1 s).work.ledger = s.work.ledger := by
  unfold forfeit; dsimp only
  split
  · split <;> simp
  · rfl
  · split
    · rfl
    · rw [record_work (by decide), setBurgee_ledger]
      constructor <;> repeat' split
      all_goals rfl

@[simp ↓] theorem foldCounts_ledger {n b l} : (foldCounts n b l s).work.ledger = s.work.ledger := by simp [foldCounts]
@[simp ↓] theorem endMember_ledger {p slot} : (endMember p slot s).work.ledger = s.work.ledger := by simp [endMember, Cmd.endMember]
@[simp ↓] theorem cancelMember_ledger {p slot} : (cancelMember p slot s).work.ledger = s.work.ledger := by simp [cancelMember]
@[simp ↓] theorem cancelMembers_ledger {n} : (cancelMembers n s).work.ledger = s.work.ledger := by unfold cancelMembers; split <;> simp
@[simp ↓] theorem judgeDeadline_ledger {d} : (judgeDeadline d s).work.ledger = s.work.ledger := by unfold judgeDeadline; split <;> simp
@[simp ↓] theorem signalCommand_ledger {d} : (signalCommand d s).work.ledger = s.work.ledger := by simp [signalCommand]

/-- ENERGY_PENALTY is no fatal record: nothing halts. -/
@[simp ↓] theorem judgeEstimate_ledger {d energy} : (judgeEstimate d energy s).work.ledger = s.work.ledger := by
  have h : unlimited 0x5001 = false := by decide
  simp [judgeEstimate, record_work h]

@[simp ↓] theorem drawPools_work {p amount} : (drawPools p amount s).work = s.work := (rfl)

@[simp ↓] theorem takeClaims_ledger {n p l} : (takeClaims n p l s).work.ledger = s.work.ledger := by
  change (State.modCmd n _ (drawPools p _ s)).work.ledger = _
  simp

@[simp ↓] theorem returnClaims_ledger {n} : (returnClaims n s).work.ledger = s.work.ledger := by unfold returnClaims; split <;> simp
@[simp ↓] theorem addPass_ledger {k n} : (State.addPass k n s).work.ledger = s.work.ledger := by simp [State.addPass]
@[simp ↓] theorem chargePass_ledger {b used} : (chargePass b used s).work.ledger = s.work.ledger := by simp [chargePass]

@[simp ↓] theorem raisePass_ledger {k others} : (raisePass k others s).work.ledger = s.work.ledger := by
  unfold raisePass; repeat' split
  all_goals simp

@[simp ↓] theorem startWaiting_ledger {b} : (startWaiting b s).work.ledger = s.work.ledger := by simp [startWaiting]
@[simp ↓] theorem chargePriority_ledger {d} : (chargePriority d s).work.ledger = s.work.ledger := by simp [chargePriority]

/-- A launch counts in its burgee's millisecond and marks its command as launched; what it sends leaves the tables alone. -/
theorem launchCommand_work {n desc bound d} (h : s.cmd n = some d) :
    ∃ c, c.stage = .launched ∧ (c.burgee, c.sub, c.neural) = (d.burgee, d.sub, d.neural) ∧
      (launchCommand n desc bound s).work = (State.setCmd n c (s.modBurgee d.burgee fun g => { g with msLaunches := g.msLaunches + 1 })).work := by
  unfold launchCommand
  rw [h]
  refine ⟨_, ?_, ?_, work_forAll fun _ _ => sendSub_work⟩ <;> rfl

theorem launchCommand_none {n desc bound} (h : s.cmd n = none) : launchCommand n desc bound s = s := by simp [launchCommand, h]

@[simp ↓] theorem launchCommand_ledger {n desc bound} : (launchCommand n desc bound s).work.ledger = s.work.ledger := by
  cases h : s.cmd n with
  | none => rw [launchCommand_none h]
  | some d =>
    obtain ⟨c, -, hi, hw⟩ := launchCommand_work (desc := desc) (bound := bound) h
    rw [hw, setCmd_ledger (c := d) (by simpa using h) hi]
    simp

@[simp ↓] theorem setTurn_ledger {board r} : (State.setTurn board r s).work.ledger = s.work.ledger := by simp [State.setTurn]
@[simp ↓] theorem launchIt_ledger {d} : (launchIt d s).work.ledger = s.work.ledger := by simp [launchIt]

@[simp ↓] theorem pumpSlice_ledger {x} : (pumpSlice x s).work.ledger = s.work.ledger := by
  unfold pumpSlice; repeat' split
  all_goals simp

@[simp ↓] theorem pumpSlices_ledger : (pumpSlices s).work.ledger = s.work.ledger := by simp [pumpSlices]
@[simp ↓] theorem pauseSlices_ledger {l} : (pauseSlices l s).work.ledger = s.work.ledger := by simp [pauseSlices]
@[simp ↓] theorem governTurn_ledger {board fill reserves} : (governTurn board fill reserves s).work.ledger = s.work.ledger := by simp [governTurn]
@[simp ↓] theorem runTurn_ledger {t e stop} : (runTurn t e stop s).work.ledger = s.work.ledger := by unfold runTurn; split <;> simp

@[simp ↓] theorem turnEnded_ledger {n} : (turnEnded n s).work.ledger = s.work.ledger := ledger_forAll fun t s => by
  dsimp only; repeat' split
  all_goals simp

end

-- ───────────────────────── what the ledger says

section
variable {s t : State} {n : Nat}

/-- A command is still there, under its burgee and issuer. -/
theorem cmd_of_ledger {d} (h : t.work.ledger = s.work.ledger) (hd : s.cmd n = some d) :
    ∃ c, t.cmd n = some c ∧ (c.burgee, c.sub, c.neural) = (d.burgee, d.sub, d.neural) := by
  have hn : (t.cmd n).map (fun c => (c.burgee, c.sub, c.neural)) = (s.cmd n).map fun c => (c.burgee, c.sub, c.neural) :=
    congrArg (fun l : Ledger => l.issuer n) h
  simpa [hd] using hn

-- ───────────────────────── reading, checking and waiting (R310, R314)

/-- A copy's descriptor tells nothing of its command's ring. -/
theorem checkCopy_ok {d c} (h : checkCopy d s = (.ok c, t)) : c.burgee = d.burgee ∧ c.index = d.index := by
  unfold checkCopy at h
  dsimp only at h
  split at h
  · cases h
  · split at h <;> cases h
    exact ⟨rfl, rfl⟩

/-- A ring's next command has been read: CMD_READ and the numbers have moved on, and the command stands under its number, burgee and index. -/
def HasRead (s : State) (b : Nat) (t : State) : Prop :=
  (t.burgee b).cmdRead = (s.burgee b).cmdRead + 1 ∧ t.sched.nextCmd = s.sched.nextCmd + 1 ∧
    (t.cmd s.sched.nextCmd).map (fun c => (c.burgee, c.index)) = some (b, (s.burgee b).cmdRead.toNat)

theorem HasRead.modCmd {b u f} (h : HasRead s b u) (hf : ∀ c : Cmd, (f c).burgee = c.burgee ∧ (f c).index = c.index) :
    HasRead s b (State.modCmd s.sched.nextCmd f u) := by
  obtain ⟨hr, hn, hc⟩ := h
  exact ⟨hr, hn, by simpa [Function.comp_def, hf] using hc⟩

theorem HasRead.setCmd {b u} {c : Cmd} (h : HasRead s b u) (hb : c.burgee = b) (hi : c.index = (s.burgee b).cmdRead.toNat) :
    HasRead s b (State.setCmd s.sched.nextCmd c u) := by
  obtain ⟨hr, hn, -⟩ := h
  exact ⟨hr, hn, by simp [hb, hi]⟩

theorem HasRead.of_work {b u v} (h : HasRead s b u) (hw : v.work = u.work) : HasRead s b v := by
  rwa [HasRead, burgee_of_work hw, sched_of_work hw, cmd_of_work hw]

theorem HasRead.endCommand {b u status reason} (h : HasRead s b u) : HasRead s b (endCommand s.sched.nextCmd status reason u) :=
  h.modCmd fun _ => ⟨rfl, rfl⟩

/-- R310: whatever the checks make of it, the next command is read and numbered; poisoned granules end it with MALFORMED. -/
theorem execCommandRead_read {b} (hm : s.mayRead b = true) (hs : s.hubServes (s.burgee b).nextCmdAt 64 false = true) :
    ∃ t, execCommandRead b s = .next t ∧ HasRead s b t ∧
      ((readDev (s.burgee b).nextCmdAt 64 s).1.2 = true → (t.cmd s.sched.nextCmd).map (·.status) = some (some stMalformed)) := by
  unfold execCommandRead whenServed
  dsimp -zeta only
  rw [hm, if_neg (by simp), if_pos hs]
  extract_lets v n c d g x y w
  have hx : x.burgee b = { g with cmdRead := (s.burgee b).cmdRead + 1 } := State.burgee_setBurgee ..
  clear_value x
  have hwx : w.burgee b = x.burgee b := rfl
  have hd : w.cmd n = some d := State.cmd_setCmd ..
  have hw : HasRead s b w := ⟨by rw [hwx, hx], rfl, by rw [hd]; rfl⟩
  have hk : (checkCopy d w).2.work = w.work := checkCopy_work
  have hi : d.burgee = b ∧ d.index = (s.burgee b).cmdRead.toNat ∧ d.status = none := ⟨rfl, rfl, rfl⟩
  obtain ⟨hb, hi, hst⟩ := hi
  clear_value w d
  split
  · exact ⟨_, rfl, hw.endCommand, fun _ => by simp [endCommand, n, hd, hst]⟩
  · next hok =>
    have hok : v.1.2 ≠ true := fun h => hok (by simp [h])
    split
    · exact ⟨_, rfl, hw, fun h => absurd h hok⟩
    split
    · exact ⟨_, rfl, hw.endCommand, fun h => absurd h hok⟩
    split
    · exact ⟨_, rfl, hw.setCmd hb hi, fun h => absurd h hok⟩
    split
    · next h =>
      rw [h] at hk
      exact ⟨_, rfl, (hw.of_work hk).endCommand, fun h => absurd h hok⟩
    · next h =>
      rw [h] at hk
      obtain ⟨cb, ci⟩ := checkCopy_ok h
      exact ⟨_, rfl, (hw.of_work hk).setCmd (cb.trans hb) (ci.trans hi), fun h => absurd h hok⟩

/-- R72, R268, R284, R310: a KERNEL command that breaks none of its checks waits for its semaphore or for energy. -/
theorem execKernel_passes {d} (hc : s.cmd n = some d) (hs : d.stage = .read) (ho : d.opcode = 1) (hf : s.badFlagFall d = false)
    (hr : (s.noRights d || s.noBoardRights d) = false) (hl : s.sched.lost.any (·.1 == d.board) = false) :
    ∃ t, execKernel n s = .next t ∧ (t.cmd n).map (·.stage) = some (if d.flag 0 then .waiting else .energy) ∧
      (t.cmd n).map (·.waitedSince) = some s.up := by
  have hp (c : Cmd) (h : c.flag 0 = d.flag 0) :
      ((s.setCmd n (c.passed s.up)).cmd n).map (·.stage) = some (if d.flag 0 then .waiting else .energy) ∧
        ((s.setCmd n (c.passed s.up)).cmd n).map (·.waitedSince) = some s.up := by simp [Cmd.passed, h]
  unfold execKernel
  rw [hc]
  dsimp only
  rw [if_neg (by simp [hs, ho]), hf, hr, hl]
  exact ⟨_, rfl, hp _ (by split <;> rfl)⟩

/-- R310: a KERNEL command's checks in their order: flag-fall, rights, lost members. -/
theorem execKernel_refused {d} (hc : s.cmd n = some d) (hs : d.stage = .read) (ho : d.opcode = 1) :
    (s.badFlagFall d = true → execKernel n s = .next (endCommand n stMalformed 0 s)) ∧
    (s.badFlagFall d = false → (s.noRights d || s.noBoardRights d) = true → execKernel n s = .next (endCommand n stNoRights 0 s)) ∧
    (s.badFlagFall d = false → (s.noRights d || s.noBoardRights d) = false → s.sched.lost.any (·.1 == d.board) = true →
      execKernel n s = .next (endCommand n stMemberLost 0 s)) := by
  refine ⟨fun h => ?_, fun h h' => ?_, fun h h' h'' => ?_⟩ <;> simp [execKernel, *]

@[simp] theorem takeFloorIn_memory {part res k} : (takeFloorIn part res k s).tower = s.tower ∧ (takeFloorIn part res k s).cfg = s.cfg := by
  unfold takeFloorIn; split <;> simp

@[simp] theorem takeDraws_memory {l} : (takeDraws l s).tower = s.tower ∧ (takeDraws l s).cfg = s.cfg := by
  unfold takeDraws; exact forAll_memory fun _ _ => by simp

@[simp] theorem chargeFor_memory {b o k writes merges} :
    (chargeFor b o k writes merges s).tower = s.tower ∧ (chargeFor b o k writes merges s).cfg = s.cfg := by
  refine (forAll_memory fun _ _ => ?_).imp (·.trans takeDraws_memory.1) (·.trans takeDraws_memory.2)
  simp [noteServed]

/-- R314: a semaphore that compares true passes its command to energy, and reading it leaves device memory as it was. -/
theorem execCommandWaitSatisfied_true {d} (hc : s.cmd n = some d) (hs : d.stage = .waiting) (hp : (s.tower.read s.cfg.key d.waitAddr 8).2 = false)
    (hv : semHolds (bits d.flags 2 1) (BitVec.ofNat 64 (leNat (s.tower.read s.cfg.key d.waitAddr 8).1)) d.waitValue = true)
    (hw : s.passesFor hubRequester d.burgee d.waitAddr 8 false = true) :
    ∃ t, execCommandWaitSatisfied n s = .next t ∧ t.cmd n = some { d with stage := .energy, waitedSince := s.up } ∧ t.tower = s.tower := by
  simp [execCommandWaitSatisfied, whenServed, readDev, hc, hs, hp, hv, hw]

-- ───────────────────────── energy (R351 to R356)

/-- A command that may launch or has launched. -/
def MayRun (n : Nat) (s : State) : Prop := ∃ c, s.cmd n = some c ∧ (c.stage = .eligible ∨ c.stage = .launched)

/-- A command that has been made eligible, whatever else the step did under the ledger. -/
theorem MayRun.of_ledger {d f} (h : t.work.ledger = s.work.ledger) (hd : s.cmd n = some d) (hf : ∀ c : Cmd, (f c).stage = .eligible) :
    MayRun n (State.modCmd n f t) := by
  obtain ⟨c, hc, -⟩ := cmd_of_ledger h hd
  exact ⟨f c, by simp [hc], .inl (hf c)⟩

/-- A launch changes no command but its own, which has launched then. -/
theorem MayRun.launchCommand {k desc bound} (h : MayRun n s) : MayRun n (launchCommand k desc bound s) := by
  cases hk : s.cmd k with
  | none => rwa [launchCommand_none hk]
  | some d =>
    obtain ⟨c, hs, -, hw⟩ := launchCommand_work (desc := desc) (bound := bound) hk
    rw [MayRun, cmd_of_work hw]
    by_cases hn : n = k
    · subst hn; exact ⟨c, State.cmd_setCmd .., .inr hs⟩
    · rwa [State.cmd_setCmd_ne hn]

theorem MayRun.pumpSlice {x} (h : MayRun n s) : MayRun n (pumpSlice x s) := by
  unfold Machine.pumpSlice
  split
  · exact h
  · split
    · split
      · exact h.launchCommand
      · exact h
    · exact h

theorem MayRun.pumpSlices (h : MayRun n s) : MayRun n (pumpSlices s) :=
  List.foldlRecOn _ _ (motive := MayRun n) h fun _ h _ _ => h.pumpSlice

/-- R356: a claim that no budget could admit ends its command with ENERGY. -/
theorem execCommandAdmit_beyond {d} (hc : s.cmd n = some d) (hs : d.stage = .energy) (hp : s.sched.stopped = false) (hi : s.pwr.issueStop = false)
    (hn : s.neverHeld d = false)
    (hl : ∃ e ∈ s.spreadCharge (s.localCharge d) (d.maxDurUs * 1000), s.claimLimit ((s.cfg.partOf d.burgee).getD 0) < e.2) :
    execCommandAdmit n s = .next (endCommand n stEnergy 0 s) := by
  have h : (s.spreadCharge (s.localCharge d) (d.maxDurUs * 1000)).any (fun e => decide (s.claimLimit ((s.cfg.partOf d.burgee).getD 0) < e.2)) = true := by
    simpa using hl
  simp [execCommandAdmit, hc, hs, hp, hi, hn, h]

/-- R351 to R355: a command whose claim fits, or that is never held, becomes eligible; an open slice may launch it at once. -/
theorem execCommandAdmit_fits {d} (hc : s.cmd n = some d) (hs : d.stage = .energy) (hp : s.sched.stopped = false) (hi : s.pwr.issueStop = false)
    (h : s.neverHeld d = true ∨
      ((∀ e ∈ s.spreadCharge (s.localCharge d) (d.maxDurUs * 1000), e.2 ≤ s.claimLimit ((s.cfg.partOf d.burgee).getD 0)) ∧
        (s.localCharge d = 0 ∨ (s.energyHead n d = true ∧
          s.claimFits ((s.cfg.partOf d.burgee).getD 0) (s.spreadCharge (s.localCharge d) (d.maxDurUs * 1000)) = true)))) :
    ∃ t, execCommandAdmit n s = .next t ∧ MayRun n t := by
  have hb : (!s.neverHeld d && (s.spreadCharge (s.localCharge d) (d.maxDurUs * 1000)).any
      fun e => decide (s.claimLimit ((s.cfg.partOf d.burgee).getD 0) < e.2)) = false := by
    rcases h with h | ⟨h, -⟩
    · simp [h]
    · simpa using fun _ => h
  have ha : (s.neverHeld d || s.localCharge d == 0 || (s.energyHead n d &&
      s.claimFits ((s.cfg.partOf d.burgee).getD 0) (s.spreadCharge (s.localCharge d) (d.maxDurUs * 1000)))) = true := by
    simp only [Bool.or_eq_true, Bool.and_eq_true, beq_iff_eq]
    tauto
  unfold execCommandAdmit
  dsimp only
  rw [hc]
  dsimp only
  rw [if_neg (by simp [hs, hp, hi]), hb, if_neg (by simp), if_pos ha]
  refine ⟨_, rfl, (MayRun.of_ledger ?_ hc fun _ => rfl).pumpSlices⟩
  cases d.heldSince <;> simp

-- ───────────────────────── copies and SYNC (R296, R309, R315)

/-- A copy's next part goes out, or the copy takes a lease's fault; its stage and what it has moved stay as they are. -/
theorem copyNext_cmd {d} (hd : s.cmd n = some d) : ∃ c, (copyNext n s).cmd n = some c ∧ c.stage = d.stage ∧ c.copyPos = d.copyPos := by
  have busy {k u} {v : State} (hv : v.work = (State.setCmd n { d with copyBusy := k } u).work) :
      ∃ c, v.cmd n = some c ∧ c.stage = d.stage ∧ c.copyPos = d.copyPos :=
    ⟨_, (cmd_of_work hv n).trans (State.cmd_setCmd ..), rfl, rfl⟩
  unfold copyNext
  rw [hd]
  dsimp only
  split
  · exact ⟨d, hd, rfl, rfl⟩
  split
  · split
    · exact ⟨_, (State.cmd_modCmd ..).trans (congrArg _ hd), rfl, rfl⟩
    split
    · exact ⟨d, hd, rfl, rfl⟩
    split
    · exact busy newOut_work
    · exact busy emit_work
  · split
    · exact busy (work_forAll fun _ _ => by simp)
    · exact busy emit_work

/-- A part that has moved counts in what its copy has moved. -/
theorem partDone_copyPos {d} (hd : s.cmd n = some d) : ((partDone n s).cmd n).map (·.copyPos) = some (d.copyPos + d.copyBusy) := by
  have hm : (State.modCmd n (fun c => { c with copyPos := c.copyPos + c.copyBusy, copyBusy := 0 }) s).cmd n =
      some { d with copyPos := d.copyPos + d.copyBusy, copyBusy := 0 } := by simp [hd]
  obtain ⟨c, hc, -, hp⟩ := copyNext_cmd hm
  exact (congrArg _ hc).trans (congrArg some hp)

/-- R309: a copy of either direction starts on an active burgee. -/
theorem copyStep_starts {d out} (hc : s.cmd n = some d) (hs : d.stage = .eligible) (ho : d.opcode = if out then 3 else 2)
    (ha : s.inState d.burgee [.active] = true) (hh : (s.burgee d.burgee).cutHold = false) (hp : s.sched.stopped = false)
    (hi : s.pwr.issueStop = false) : ∃ t, copyStep n out s = .next t ∧ (t.cmd n).map (·.stage) = some .copying := by
  obtain ⟨c, ht, hg, -⟩ := copyNext_cmd (State.cmd_setCmd n
    { d with stage := .copying, launchAt := s.up, startStamp := s.stamp, boundUs := d.maxDurUs } s)
  refine ⟨_, ?_, (congrArg _ ht).trans (congrArg some hg)⟩
  simp [copyStep, hc, hs, ho, ha, hh, hp, hi]

/-- R315: a SYNC that is due ends. -/
theorem execSync_ends {d} (hc : s.cmd n = some d) (hs : d.stage = .eligible) (ho : d.opcode = 4)
    (ha : s.inState d.burgee [.active] = true) (hh : (s.burgee d.burgee).cutHold = false) :
    execSync n s = .next (s.setCmd n { d with stage := .ended, launchAt := s.up, startStamp := s.stamp }) := by
  simp [execSync, hc, hs, ho, ha, hh]

section
variable {d : Cmd} (hc : s.cmd n = some d) (hs : d.stage = .copying) (hb : d.copyBusy ≠ 0) (hh : s.hostSeen = true)
include hc hs hb hh

/-- R316: a failed host request ends its copy, with HOST_ERROR unless it has a status already. -/
theorem execCopyHostCompletion_failed {gs} (ho : ∀ o ∈ s.hub.outs, ¬ (o.kind = 4 ∧ o.cmd = n ∧ o.opcode = 1)) :
    ∃ t, execCopyHostCompletion n gs true s = .next t ∧ (t.cmd n).map (·.status) = some (some (d.status.getD stHostError)) ∧
      (t.cmd n).map (·.copyBusy) = some 0 := by
  have ho : (s.hub.outs.any fun o => o.kind == 4 && o.cmd == n && o.opcode == 1) = false := by simpa [and_assoc] using ho
  simp [execCopyHostCompletion, hc, hs, hb, hh, ho]

/-- R309: the granules of a COPY_IN's part are stored and the copy moves on. -/
theorem execCopyHostCompletion_in {gs : List Granule} (hi : d.copyOut = false) (hl : gs.length * 32 = d.copyBusy)
    (hr : s.cfg.leaseOf d.burgee (d.devAddr + d.copyPos) = none) (hw : s.hubServes (d.devAddr + d.copyPos) d.copyBusy true = true) :
    ∃ t, execCopyHostCompletion n gs false s = .next t ∧ (t.cmd n).map (·.copyPos) = some (d.copyPos + d.copyBusy) := by
  refine ⟨partDone n (putDev (d.devAddr + d.copyPos) gs s), ?_, partDone_copyPos ((cmd_of_work putDev_work n).trans hc)⟩
  simp [execCopyHostCompletion, whenServed, hc, hs, hb, hh, hi, hl, hr, hw]

/-- R309: the host has taken a COPY_OUT's part and the copy moves on. -/
theorem execCopyHostCompletion_out (ho : d.copyOut = true) (hn : ∀ o ∈ s.hub.outs, ¬ (o.kind = 4 ∧ o.cmd = n ∧ o.opcode = 1)) :
    ∃ t, execCopyHostCompletion n [] false s = .next t ∧ (t.cmd n).map (·.copyPos) = some (d.copyPos + d.copyBusy) := by
  have hn : (s.hub.outs.any fun o => o.kind == 4 && o.cmd == n && o.opcode == 1) = false := by simpa [and_assoc] using hn
  refine ⟨partDone n s, ?_, partDone_copyPos hc⟩
  simp [execCopyHostCompletion, hc, hs, hb, hh, ho, hn]

end

-- ───────────────────────── completion (R315, R316)

@[simp ↓] theorem neuralEnded_none {d ok cause} (h : d.neural = none) : neuralEnded d ok cause s = s := by simp [neuralEnded, h]

theorem dropCmd_done {n} : (State.dropCmd n s).work.ledger.done = s.work.ledger.done := rfl

/-- A completion record counts in its burgee's ring and in its BGE_CMD_DONE. -/
theorem writeCompletion_done {b bs} : (writeCompletion b bs s).work.ledger.done b =
    ((s.work.ledger.done b).1 + 1, satAdd 64 (s.work.ledger.done b).2 1) := by
  have h {t : State} {b} : t.work.ledger.done b = ((t.burgee b).cplWrite, (t.burgee b).cmdDone) := rfl
  unfold writeCompletion
  dsimp only
  split <;> simp [h, burgee_of_work writeDev_work]

/-- A command of a ring that is finished has its one completion record; what else finishing does leaves the rings' counts alone. -/
theorem finishCommand_done {d uj} (hc : s.cmd n = some d) (hs : d.sub = none) (hn : d.neural = none) :
    (finishCommand n uj s).work.ledger.done d.burgee =
      ((s.work.ledger.done d.burgee).1 + 1, satAdd 64 (s.work.ledger.done d.burgee).2 1) := by
  simp [finishCommand, hc, hs, hn, dropCmd_done, writeCompletion_done]

/-- R315: cancelling, judging and charging a command keep the ledger, so what completes adds its one record to its own ring. -/
theorem execCommandCompletion_done {d uj} (hc : s.cmd n = some d) (ho : s.overFor n d = true) (hp : s.completionPasses d = true)
    (hs : d.sub = none) (hn : d.neural = none) (hu : uj = 0 ∨ (d.opcode ≠ 4 ∧ d.launchAt ≠ 0)) :
    ∃ t, execCommandCompletion n uj s = .next t ∧ (t.burgee d.burgee).cplWrite = (s.burgee d.burgee).cplWrite + 1 ∧
      (t.burgee d.burgee).cmdDone = satAdd 64 (s.burgee d.burgee).cmdDone 1 := by
  have hu : ¬ (uj ≠ 0 ∧ (d.opcode = 4 ∨ d.launchAt = 0)) := by tauto
  unfold execCommandCompletion
  rw [hc]
  dsimp only
  rw [ho, hp, if_neg (by simp), if_neg (by simp), if_neg hu, neuralEnded_none hn]
  refine ⟨_, rfl, ?_⟩
  generalize hv : chargePriority d _ = v
  have hv : v.work.ledger = s.work.ledger := by rw [← hv]; simp
  obtain ⟨c, hvc, hi⟩ := cmd_of_ledger hv hc
  obtain ⟨hb, hcs, hcn⟩ : c.burgee = d.burgee ∧ c.sub = none ∧ c.neural = none := by simpa [hs, hn] using hi
  have hf := finishCommand_done (uj := uj) hvc hcs hcn
  rw [hb, hv] at hf
  have he : (pumpSlices (turnEnded n (finishCommand n uj v))).work.ledger = (finishCommand n uj v).work.ledger := by simp
  exact Prod.mk.inj ((congrArg (fun l : Ledger => l.done d.burgee) he).trans hf)

end

/-- Settles O39: each stage of a command's way does what its lemma says. -/
theorem commandPath : Obligations.CommandPath := by
  refine ⟨fun s b => ?_, fun s n d hc => ⟨fun hs ho => ?_, fun hs hp hv hw => execCommandWaitSatisfied_true hc hs hp hv hw,
    fun hs hp hi => ?_, fun hs ha hh => ?_, fun hs hb hh => ?_, fun uj ho hp hs hn hu => execCommandCompletion_done hc ho hp hs hn hu⟩⟩
  · intro a hm hs
    obtain ⟨t, he, ⟨hr, hn, hc⟩, hst⟩ := execCommandRead_read hm hs
    obtain ⟨c, ht, hb, hi⟩ : ∃ c, t.cmd s.sched.nextCmd = some c ∧ c.burgee = b ∧ c.index = (s.burgee b).cmdRead.toNat := by simpa using hc
    exact ⟨t, he, hr, hn, by simp [ht, hb], by simp [ht, hi], hst⟩
  · obtain ⟨hf, hr, hl⟩ := execKernel_refused hc hs ho
    exact ⟨hf, hr, hl, fun h1 h2 h3 => execKernel_passes hc hs ho h1 h2 h3⟩
  · refine ⟨fun hn hl => execCommandAdmit_beyond hc hs hp hi hn hl, fun h => ?_⟩
    obtain ⟨t, he, c, ht, hg⟩ := execCommandAdmit_fits hc hs hp hi h
    exact ⟨t, c, he, ht, hg⟩
  · exact ⟨fun ho => execSync_ends hc hs ho ha hh, fun hp hi =>
      ⟨fun ho => copyStep_starts hc hs ho ha hh hp hi, fun ho => copyStep_starts hc hs ho ha hh hp hi⟩⟩
  · exact ⟨fun gs ho => execCopyHostCompletion_failed hc hs hb hh ho,
      fun gs ho hl hr hw => execCopyHostCompletion_in hc hs hb hh ho hl hr hw, fun ho hn => execCopyHostCompletion_out hc hs hb hh ho hn⟩

end Sys2Proof.Machine
end

section
/-! SUPPORT. The hoist operation (R39 to R53, R406, R447). Two views of the state carry it: `core`, the power state, the memories, the configuration and the hoist,
which records, interrupts, messages, links and launches hand on; and `helm`, the core without its memories, which whatever a switch wipes or starts anew hands on as
well. As for the sealed part, one lemma per function of the model says so. -/

namespace Sys2Proof.Machine

-- ───────────────────────── the two views

/-- What records, interrupts, messages, links and launches leave alone. -/
structure Core where
  pwr     : Power
  tower   : Mem
  scratch : Mem
  cfg     : HoistCfg
  gen     : Word
  hoist   : Hoist

def State.core (s : State) : Core := ⟨s.pwr, s.tower, s.scratch, s.cfg, s.gen, s.hoist⟩

/-- What decides over the configuration: the power state, the configuration in force with its generation, and the hoist. -/
structure Helm where
  pwr   : Power
  cfg   : HoistCfg
  gen   : Word
  hoist : Hoist

def Core.helm (c : Core) : Helm := ⟨c.pwr, c.cfg, c.gen, c.hoist⟩

@[simp ↓] theorem core_mk {pending up free ident pwr tower scratch sram cfg gen hoist squares ctxs burgees sched hub links tow radio fh
    time msix irqStat mbox elog hly sec energy muster out} :
    State.core ⟨pending, up, free, ident, pwr, tower, scratch, sram, cfg, gen, hoist, squares, ctxs, burgees, sched, hub, links, tow, radio, fh,
      time, msix, irqStat, mbox, elog, hly, sec, energy, muster, out⟩ = ⟨pwr, tower, scratch, cfg, gen, hoist⟩ := (rfl)

@[simp ↓] theorem core_fold (s : State) : (⟨s.pwr, s.tower, s.scratch, s.cfg, s.gen, s.hoist⟩ : Core) = s.core := rfl

@[simp ↓] theorem helm_mk {pwr tower scratch cfg gen hoist} : Core.helm ⟨pwr, tower, scratch, cfg, gen, hoist⟩ = ⟨pwr, cfg, gen, hoist⟩ := (rfl)

@[simp ↓] theorem helm_fold (s : State) : (⟨s.pwr, s.cfg, s.gen, s.hoist⟩ : Helm) = s.core.helm := rfl

@[simp ↓] theorem core_ite {c : Prop} [Decidable c] {s t : State} : (if c then s else t).core = if c then s.core else t.core := apply_ite ..

@[simp ↓] theorem helm_ite {c : Prop} [Decidable c] {a b : Core} : (if c then a else b).helm = if c then a.helm else b.helm := apply_ite ..

@[simp ↓] theorem core_forAll {α : Type} {f : α → State → State} (h : ∀ x s, (f x s).core = s.core) {l : List α} {s : State} :
    (forAll l f s).core = s.core := foldl_keeps State.core fun s x => h x s

@[simp ↓] theorem helm_forAll {α : Type} {f : α → State → State} (h : ∀ x s, (f x s).core.helm = s.core.helm) {l : List α} {s : State} :
    (forAll l f s).core.helm = s.core.helm := foldl_keeps (fun s : State => s.core.helm) fun s x => h x s

/-- A helm that is written out, field by field. -/
theorem helm_eq_iff {s : State} {p : Power} {c : HoistCfg} {g : Word} {h : Hoist} :
    s.core.helm = ⟨p, c, g, h⟩ ↔ s.pwr = p ∧ s.cfg = c ∧ s.gen = g ∧ s.hoist = h := Helm.mk.injEq .. ▸ Iff.rfl

/-- A core that is written out, field by field. -/
theorem core_eq_iff {s : State} {p : Power} {m k : Mem} {c : HoistCfg} {g : Word} {h : Hoist} :
    s.core = ⟨p, m, k, c, g, h⟩ ↔ s.pwr = p ∧ s.tower = m ∧ s.scratch = k ∧ s.cfg = c ∧ s.gen = g ∧ s.hoist = h := Core.mk.injEq .. ▸ Iff.rfl

-- ───────────────────────── what leaves the core alone

section
variable {s : State}

@[simp ↓] theorem emit_core {o} : (emit o s).core = s.core := (rfl)
@[simp ↓] theorem setLink_core {l k} : (State.setLink l k s).core = s.core := (rfl)
@[simp ↓] theorem setCell_core {c v} : (State.setCell c v s).core = s.core := (rfl)
@[simp ↓] theorem setCmd_core {n c} : (State.setCmd n c s).core = s.core := (rfl)
@[simp ↓] theorem modBurgee_core {b f} : (State.modBurgee b f s).core = s.core := (rfl)
@[simp ↓] theorem setTurn_core {b r} : (State.setTurn b r s).core = s.core := (rfl)
@[simp ↓] theorem fire_core {e} : (fire e s).core = s.core := by unfold fire; simp
@[simp ↓] theorem fireFor_core {code} : (fireFor code s).core = s.core := by unfold fireFor; split <;> simp
@[simp ↓] theorem place_core {code die unit body} : (place code die unit body s).core = s.core := by simp [place]
@[simp ↓] theorem flushSuppressed_core {code} : (flushSuppressed code s).core = s.core := by unfold flushSuppressed; simp
@[simp ↓] theorem noteHealth_core {code unit} : (noteHealth code unit s).core = s.core := by simp [noteHealth]
@[simp ↓] theorem recordLimited_core {code die unit body} : (recordLimited code die unit body s).core = s.core := by
  unfold recordLimited; simp

/-- A record that is not fatal: nothing halts. -/
theorem record_core {code die unit body} (h : unlimited code = false) : (record code die unit body s).core = s.core := by simp [record, h]

@[simp ↓] theorem cancelTelltale_core {p} : (cancelTelltale p s).core = s.core := by unfold cancelTelltale; split <;> simp
@[simp ↓] theorem enterLink_core {l st} : (enterLink l st s).core = s.core := (rfl)
@[simp ↓] theorem leaveUp_core {l st cause} : (leaveUp l st cause s).core = s.core := by simp [leaveUp]
@[simp ↓] theorem darken_core {l st cause} : (darken l st cause s).core = s.core := by simp [darken]
@[simp ↓] theorem probe_core {l} : (probe l s).core = s.core := (rfl)

@[simp ↓] theorem switchLink_core {old n full l} : (switchLink old n full l s).core = s.core := by simp [switchLink]
@[simp ↓] theorem switchCells_core {old n} : (switchCells old n s).core = s.core := by
  have h : unlimited 0x3000 = false := by decide
  simp [switchCells, record_core h]
@[simp ↓] theorem switchBucket_core {n code} : (switchBucket n code s).core = s.core := (rfl)
@[simp ↓] theorem switchBuckets_core {old n} : (switchBuckets old n s).core = s.core := by simp [switchBuckets]
@[simp ↓] theorem startCycle_core {t} : (startCycle t s).core = s.core := (rfl)
@[simp ↓] theorem restartScrub_core : (restartScrub s).core = s.core := (rfl)
@[simp ↓] theorem fillPools_core {carried} : (fillPools carried s).core = s.core := (rfl)
@[simp ↓] theorem endHold_core : (endHold s).core = s.core := (rfl)

@[simp ↓] theorem sendSub_core {dst burgee cmd m} : (sendSub dst burgee cmd m s).core = s.core := (rfl)

@[simp ↓] theorem launchCommand_core {n desc bound} : (launchCommand n desc bound s).core = s.core := by
  unfold launchCommand; split <;> simp

@[simp ↓] theorem pumpSlice_core {x} : (pumpSlice x s).core = s.core := by
  unfold pumpSlice; repeat' split
  all_goals simp [launchIt]

@[simp ↓] theorem pumpSlices_core : (pumpSlices s).core = s.core := by simp [pumpSlices]

end

-- ───────────────────────── what leaves the helm alone: wiping, and squares that start anew

section
variable {s : State}

@[simp ↓] theorem wipePad_helm {p base size} : (wipePad p base size s).core.helm = s.core.helm := (rfl)
@[simp ↓] theorem wipeUnits_helm {l} : (wipeUnits l s).core.helm = s.core.helm := (rfl)
@[simp ↓] theorem freshSquare_helm {p gated} : (freshSquare p gated s).core.helm = s.core.helm := (rfl)

@[simp ↓] theorem switchSquare_helm {old n p} : (switchSquare old n p s).core.helm = s.core.helm := by
  unfold switchSquare; dsimp only; split
  · simp
  · split
    · rfl
    · exact helm_forAll fun h s => by split <;> simp

end

-- ───────────────────────── a configuration takes effect (R43, R45, R47, R406)

/-- The hoist after a change of configuration: the units that a region gives up are to be wiped. -/
def Hoist.freeing (old n : HoistCfg) (h : Hoist) : Hoist := { h with wiping := h.wiping ++ (freedUnits old n).map fun w => (w / 72, w % 72) }

/-- The hoist once every board has switched. -/
def Hoist.released (old : HoistCfg) (h : Hoist) : Hoist :=
  { h.freeing old h.staged with
    stat := .done, code := 0, index := 0, held := [], toSwitch := [], switched := [], switching := false, prior := {}, ungated := [] }

section
variable {s : State}

@[simp] theorem endHold_hoist : (endHold s).hoist = s.hoist := rfl

/-- A change of configuration decides on the configuration and on what is wiped, and on nothing else of the helm. -/
@[simp ↓] theorem applyCfg_helm {full starts n} :
    (applyCfg full starts n s).core.helm = ⟨s.pwr, n, s.gen, s.hoist.freeing s.cfg n⟩ := by
  unfold applyCfg
  dsimp only
  generalize hu : wipeUnits (freedUnits s.cfg n) _ = u
  have h : u.core.helm = ⟨s.pwr, n, s.gen, s.hoist⟩ := by rw [← hu]; simp
  obtain ⟨hp, hc, hg, hh⟩ := helm_eq_iff.mp h
  simp [hp, hc, hg, hh, Hoist.freeing]

/-- Every board has switched: the staged configuration and its generation are in force. -/
@[simp ↓] theorem releaseHoist_helm : (releaseHoist s).core.helm = ⟨s.pwr, s.hoist.staged, s.hoist.newGen, s.hoist.released s.cfg⟩ := by
  have hr : unlimited 0x1010 = false := by decide
  unfold releaseHoist
  dsimp only
  generalize hu : applyCfg _ _ _ (endHold s) = u
  have h : u.core.helm = ⟨s.pwr, s.hoist.staged, s.gen, s.hoist.freeing s.cfg s.hoist.staged⟩ := hu ▸ applyCfg_helm
  obtain ⟨hp, hc, -, hh⟩ := helm_eq_iff.mp h
  rw [pumpSlices_core, fire_core, record_core hr]
  simp [hp, hc, hh, Hoist.released]

end

-- ───────────────────────── refusals, the hold and the switch (R47, R49, R53, R447)

section
variable {s : State}

@[simp ↓] theorem refuseHoist_core {index code} : (refuseHoist index code s).core =
    ⟨s.pwr, s.tower, s.scratch, s.cfg, s.gen, { s.hoist with stat := .refused, code := code, index := index }⟩ := by
  have hr : unlimited 0x1011 = false := by decide
  simp [refuseHoist, record_core hr]

@[simp ↓] theorem refuseBusy_core : (refuseBusy s).core =
    ⟨s.pwr, s.tower, s.scratch, s.cfg, s.gen, { s.hoist with busySeen := true }⟩ := by
  have hr : unlimited 0x1011 = false := by decide
  simp [refuseBusy, record_core hr]

theorem releaseHoist_done :
    (releaseHoist s).cfg = s.hoist.staged ∧ (releaseHoist s).gen = s.hoist.newGen ∧ (releaseHoist s).hoist.stat = .done := by
  obtain ⟨-, hc, hg, hh⟩ := helm_eq_iff.mp (releaseHoist_helm (s := s))
  simp [hc, hg, hh, Hoist.released]

/-- A full hoist takes effect and makes the device ACTIVE. -/
theorem applyFull_helm : (applyFull s).core.helm =
    ⟨{ s.pwr with state := .active, lasersOff := false }, s.hoist.staged, s.hoist.newGen, s.hoist.released s.cfg⟩ := by
  unfold applyFull
  simp

theorem beginSwitch_now (h : s.hoist.toSwitch = []) : beginSwitch s = releaseHoist s := by simp [beginSwitch, h]

theorem beginSwitch_waits (h : s.hoist.toSwitch ≠ []) : beginSwitch s = { s with hoist := { s.hoist with switching := true } } := by
  simp [beginSwitch, h]

/-- R47: boards without a turn table alone switch at once; others wait for the cycle boundary of each that has one. -/
theorem beginSwitch_switches :
    (s.hoist.toSwitch = [] → (beginSwitch s).cfg = s.hoist.staged ∧ (beginSwitch s).gen = s.hoist.newGen ∧ (beginSwitch s).hoist.stat = .done) ∧
    (s.hoist.toSwitch ≠ [] → (beginSwitch s).hoist.switching = true ∧ (beginSwitch s).cfg = s.cfg) := by
  refine ⟨fun h => ?_, fun h => ?_⟩
  · rw [beginSwitch_now h]; exact releaseHoist_done
  · simp [beginSwitch_waits h]

/-- Powering up squares decides on nothing but which squares would be gated again. -/
theorem ungateFor_helm {n} : (ungateFor n s).core.helm = ⟨s.pwr, s.cfg, s.gen, { s.hoist with ungated := s.toUngate n }⟩ := by
  unfold ungateFor
  dsimp only
  generalize hu : forAll (s.toUngate n) _ s = u
  have h : u.core.helm = ⟨s.pwr, s.cfg, s.gen, s.hoist⟩ := by rw [← hu]; simp
  obtain ⟨hp, hc, hg, hh⟩ := helm_eq_iff.mp h
  simp [hp, hc, hg, hh]

@[simp ↓] theorem cancelTelltale_work {p} : (cancelTelltale p s).work = s.work := by unfold cancelTelltale; split <;> simp
@[simp ↓] theorem freshSquare_work {p gated} : (freshSquare p gated s).work = s.work := (rfl)
@[simp ↓] theorem ungateFor_work {n} : (ungateFor n s).work = s.work := by simp [ungateFor]

theorem affected_congr {t : State} {n l} (hc : t.cfg = s.cfg) (hi : t.sealed = s.sealed) : t.affected n l = s.affected n l := by
  have hp : t.ident.part = s.ident.part := congrArg Sealed.part hi
  simp [State.affected, State.remapped, State.numSquares, hc, hp]

theorem executing_of_work {t : State} {l} (h : t.work = s.work) : t.executing l = s.executing l := by
  simp [State.executing, sched_of_work h]

/-- A list of boards has a command executing where one of them has. -/
theorem executing_of_mem {b : Nat} {l : List Nat} (hb : b ∈ l) (h : s.executing [b] = true) : s.executing l = true := by
  obtain ⟨c, hc, he⟩ := List.any_eq_true.mp h
  obtain ⟨hl, rfl⟩ : c.2.stage = .launched ∧ c.2.board = b := by simpa using he
  exact List.any_eq_true.mpr ⟨c, hc, by simp [hl, hb]⟩

-- ───────────────────────── what each command of the operation comes down to

theorem managerWrite_served {k : State → Result} (h : ManagerServed s) : managerWrite none k s = k s := by
  simp [managerWrite, fromManager, h.1, h.2]

theorem execLoad_starts (h : ManagerServed s) (hb : s.hoistBusy = false) (hl : s.sec.lc = .provisioned ∨ s.sec.lc = .deployed) :
    execLoad none s = .next { s with hoist := { s.hoist with stat := .copying, code := 0, index := 0, image := [], bufPoison := false } } := by
  rw [execLoad, managerWrite_served h, if_neg (by simp [hb]), if_neg (by tauto)]

/-- R52: during another operation LOAD and CLEAR are refused alike. -/
theorem execLoad_execClear_busy (h : ManagerServed s) (hb : s.hoistBusy = true) :
    execLoad none s = .next (refuseBusy s) ∧ execClear none s = .next (refuseBusy s) := by
  simp only [execLoad, execClear, managerWrite_served h, if_pos hb, and_self]

theorem execHoistCopyDone_verifies {bytes poison} (hs : s.hoist.stat = .copying) (hl : bytes.length = s.hoist.len.toNat) :
    execHoistCopyDone bytes poison s =
      .next { s with hoist := { s.hoist with stat := .verifying, image := bytes, bufPoison := !poison.isEmpty, allow := s.energy.allowReg } } :=
  if_neg (by simp [hs, hl])

theorem execHoistVerified_refused {k c} (hs : s.hoist.stat = .verifying) (hv : s.verify = .refused k c) :
    execHoistVerified s = .next (refuseHoist k c s) := by
  simp [execHoistVerified, hs, hv]

theorem execHoistVerified_full {n g l} (hs : s.hoist.stat = .verifying) (hv : s.verify = .passed true n g l) :
    ∃ u, execHoistVerified s = .next (applyFull u) ∧ u.hoist.staged = n ∧ u.hoist.newGen = BitVec.ofNat 64 g := by
  rw [execHoistVerified, if_neg (by simp [hs])]
  simp only [hv, if_true]
  exact ⟨_, rfl, rfl, rfl⟩

/-- R47: a partial hoist holds the affected boards that have no turn table; while one of them has a command executing, nothing else happens. -/
theorem execHoistVerified_partial {n g l} (hs : s.hoist.stat = .verifying) (hv : s.verify = .passed false n g l) :
    ∃ u, execHoistVerified s = .next (if u.executing u.hoist.held then u else beginSwitch u) ∧ u.work = s.work ∧ u.hoist.stat = .staging ∧
      u.hoist.staged = n ∧ u.cfg = s.cfg ∧ u.hoist.held = (s.affected n l).filter fun b => (s.cfg.turntable b).isNone := by
  obtain ⟨-, hc, -, -⟩ := helm_eq_iff.mp (ungateFor_helm (s := s) (n := n))
  have ha : (ungateFor n s).affected n l = s.affected n l := affected_congr hc ungateFor_sealed
  rw [execHoistVerified, if_neg (by simp [hs])]
  simp only [hv]
  refine ⟨_, rfl, ungateFor_work, rfl, rfl, hc, ?_⟩
  simp only [ha, hc]

theorem execHoistHoldDrained_switches (hs : s.hoist.stat = .staging) (hc : s.hoist.clearing = false) (hw : s.hoist.switching = false)
    (he : s.executing s.hoist.held = false) : execHoistHoldDrained s = .next (beginSwitch s) := by
  simp [execHoistHoldDrained, hs, hc, hw, he]

section
variable {board : Nat} (hw : s.hoist.switching = true) (hb : board ∈ s.hoist.toSwitch) (hp : (s.turnRun board).pos = 0)
  (hd : (s.turnRun board).due ≤ s.up)
include hw hb hp hd

/-- The last board at its cycle boundary releases the hoist. -/
theorem execHoistBoardSwitch_last (hl : s.hoist.toSwitch.filter (· != board) = []) :
    execHoistBoardSwitch board s = .next (releaseHoist s) := by
  simp [execHoistBoardSwitch, hw, hb, hp, Nat.not_lt.mpr hd, hl]

/-- Another one switches alone, and the generation in force stays. -/
theorem execHoistBoardSwitch_alone (hl : s.hoist.toSwitch.filter (· != board) ≠ []) :
    ∃ t, execHoistBoardSwitch board s = .next t ∧ t.gen = s.gen ∧
      t.hoist.toSwitch = s.hoist.toSwitch.filter (· != board) ∧ t.hoist.switched = s.hoist.switched ++ [board] := by
  unfold execHoistBoardSwitch
  dsimp only
  rw [if_neg (by simp [hw, hb]), if_neg (by simp [hp, Nat.not_lt.mpr hd]), if_neg (by simpa using hl)]
  generalize hu : applyCfg _ _ _ s = u
  obtain ⟨-, -, hg, -⟩ := helm_eq_iff.mp (hu ▸ applyCfg_helm)
  exact ⟨_, rfl, hg, rfl, rfl⟩

end

/-- R49, R447: a hold that has lasted 1 s is abandoned, and nothing has taken effect. -/
theorem execHoistHoldTimeout_abandons (hs : s.hoist.stat = .staging) (hc : s.hoist.clearing = false) (hw : s.hoist.switching = false)
    (ht : s.hoist.holdSince + 1000000000 ≤ s.up) : ∃ t, execHoistHoldTimeout s = .next t ∧ t.core.helm = ⟨s.pwr, s.cfg, s.gen,
      { s.hoist with stat := .refused, code := rfAbandoned, index := noIndex, held := [], toSwitch := [], prior := {}, ungated := [] }⟩ := by
  unfold execHoistHoldTimeout
  dsimp only
  rw [if_neg (by simp [hs, hc, hw, ht])]
  generalize hu : forAll s.hoist.ungated _ (endHold s) = u
  have h : u.core.helm = ⟨s.pwr, s.cfg, s.gen, s.hoist⟩ := by rw [← hu]; simp
  obtain ⟨hp, hf, hg, hh⟩ := helm_eq_iff.mp h
  refine ⟨_, rfl, ?_⟩
  simp [hp, hf, hg, hh]

theorem execHoistRegionWipeDone_wiped (h : s.hoist.wiping ≠ []) :
    execHoistRegionWipeDone s = .next { s with hoist := { s.hoist with wiping := [] } } := by
  simp [execHoistRegionWipeDone, h]

theorem execClear_starts (h : ManagerServed s) (hb : s.hoistBusy = false) (ha : s.pwr.state = .active)
    (hf : ∀ b ∈ s.cfg.burgees, (s.burgee b.burgee).state = .free) (hr : s.radioRunning = false) :
    execClear none s = .next (restartScrub { s with hoist := { s.hoist with stat := .staging, clearing := true, code := 0, index := 0 } }) := by
  have hn : s.cfg.burgees.any (fun b => (s.burgee b.burgee).state != .free) = false := by simpa using hf
  rw [execClear, managerWrite_served h, if_neg (by simp [hb]), if_neg (by simp [ha, hn, hr])]

/-- R44: no configuration is in force, the memories are wiped and the device is IDLE. -/
theorem execClearWipeDone_clears (h : s.hoist.clearing = true) : ∃ t p k, execClearWipeDone s = .next t ∧ t.core = ⟨p, {}, {}, {}, 0, k⟩ ∧
    p.state = .idle ∧ k.stat = .done ∧ k.clearing = false := by
  have hr : unlimited 0x1010 = false := by decide
  unfold execClearWipeDone
  dsimp only
  rw [if_neg (by simp [h])]
  generalize forAll _ _ s = u
  exact ⟨_, _, _, rfl, fire_core.trans (record_core hr), rfl, rfl, rfl⟩

/-- R42, R43, R53: what a verdict brings about, whichever it is. -/
theorem execHoistVerified_verdict (hs : s.hoist.stat = .verifying) : ∃ t, execHoistVerified s = .next t ∧
    (∀ k c, s.verify = .refused k c → t.hoist.stat = .refused ∧ t.hoist.code = c ∧ t.hoist.index = k ∧ t.cfg = s.cfg ∧ t.gen = s.gen) ∧
    (∀ n g l, s.verify = .passed true n g l → t.hoist.stat = .done ∧ t.cfg = n ∧ t.gen = BitVec.ofNat 64 g ∧ t.pwr.state = .active) ∧
    (∀ n g l, s.verify = .passed false n g l → (∃ b ∈ s.affected n l, s.cfg.turntable b = none ∧ s.executing [b] = true) →
      t.hoist.stat = .staging ∧ t.hoist.staged = n ∧ t.cfg = s.cfg) := by
  cases hv : s.verify with
  | refused i c =>
    obtain ⟨-, -, -, hc, hg, hh⟩ := core_eq_iff.mp (refuseHoist_core (s := s) (index := i) (code := c))
    refine ⟨_, execHoistVerified_refused hs hv, ?_, nofun, nofun⟩
    rintro _ _ ⟨⟩
    simp [hc, hg, hh]
  | passed full n g l =>
    cases full with
    | true =>
      obtain ⟨u, he, hn, hgen⟩ := execHoistVerified_full hs hv
      obtain ⟨hp, hc, hg, hh⟩ := helm_eq_iff.mp (applyFull_helm (s := u))
      refine ⟨_, he, nofun, ?_, nofun⟩
      rintro _ _ _ ⟨⟩
      simp [hp, hc, hg, hh, hn, hgen, Hoist.released]
    | false =>
      obtain ⟨u, he, hw, hst, hn, hc, hheld⟩ := execHoistVerified_partial hs hv
      refine ⟨_, he, nofun, nofun, ?_⟩
      rintro _ _ _ ⟨⟩ ⟨b, hb, ht, hx⟩
      have hm : b ∈ u.hoist.held := by simp [hheld, hb, ht]
      rw [if_pos (executing_of_mem hm ((executing_of_work hw).trans hx))]
      exact ⟨hst, hn, hc⟩

end

-- ───────────────────────── the hoist operation

/-- Settles O48: each command of the operation comes down to an update of the helm, as its lemma says. That CLEAR shows STAGING until CLEAR_WIPE_DONE, that BUSY leaves STATE as it is and that
generation 0 is in force after CLEAR are the model's choices (log entry 81). -/
theorem hoistOperation : Obligations.HoistOperation := by
  intro s
  refine ⟨fun h hb hl => ⟨_, execLoad_starts h hb hl, rfl, rfl⟩, fun h hb i hi => ?_,
    fun bytes poison hs hl => ⟨_, execHoistCopyDone_verifies hs hl, rfl, rfl, rfl⟩, execHoistVerified_verdict,
    fun hs hc hw he => ⟨_, execHoistHoldDrained_switches hs hc hw he, beginSwitch_switches⟩, fun board hw hl hp hd => ?_,
    fun board hw hb ho hp hd => ?_, fun hs hc hw ht => ?_, fun h => ⟨_, execHoistRegionWipeDone_wiped h, rfl⟩,
    fun h hb ha hf hr => ⟨_, execClear_starts h hb ha hf hr, rfl, rfl⟩, fun h => ?_⟩
  · obtain ⟨hload, hclear⟩ := execLoad_execClear_busy h hb
    obtain ⟨-, -, -, hc, -, hh⟩ := core_eq_iff.mp (refuseBusy_core (s := s))
    refine ⟨refuseBusy s, ?_, by simp [hh], by simp [hh], hc⟩
    rcases hi with rfl | rfl
    · exact hload
    · exact hclear
  · exact ⟨_, execHoistBoardSwitch_last hw (by simp [hl]) hp hd (by simp [hl]), releaseHoist_done⟩
  · obtain ⟨b, hm, hne⟩ := ho
    exact execHoistBoardSwitch_alone hw hb hp hd (List.ne_nil_of_mem (List.mem_filter.mpr ⟨hm, by simpa using hne⟩))
  · obtain ⟨t, he, ht⟩ := execHoistHoldTimeout_abandons hs hc hw ht
    obtain ⟨-, hc, hg, hh⟩ := helm_eq_iff.mp ht
    exact ⟨t, he, by simp [hh], by simp [hh], by simp [hh], hc, hg⟩
  · obtain ⟨t, p, k, he, ht, hp, hs, hk⟩ := execClearWipeDone_clears h
    obtain ⟨rfl, htow, hpad, hc, hg, rfl⟩ := core_eq_iff.mp ht
    exact ⟨t, he, hc, hg, htow, hpad, hp, hs, hk⟩

end Sys2Proof.Machine
end

section
/-! SUPPORT. MMT and MMP enter the array (R82, R84, R90, R91, R93, R98). A legal instruction passes every test of its meaning, one fact per test; what is left is
that an operation without queues is put behind the others while its context goes on. -/

namespace Sys2Proof.Machine

-- ───────────────────────── the tests that a legal instruction passes

theorem bits_eq_zero {w hi lo : Nat} (h : w < 2 ^ lo) : bits w hi lo = 0 := by simp [bits, Nat.div_eq_of_lt h]

/-- An operand that passes its check has a sound word, also where none is asked for. -/
theorem opWordBad_of_checkOperand {c : Ctx} {w : Word} {rows cols : Nat} {kRows out optional colMajorOk : Bool}
    (h : checkOperand c w rows cols kRows out optional colMajorOk = none) : opWordBad w = false := by
  by_contra hb
  simp [checkOperand, Bool.eq_true_of_not_eq_false hb] at h

theorem seg_names_shape {f : BitVec 2} {sh : Nat} (h : f = 0 ∨ segShape f.toNat = sh) : (f.toNat != 0 && segShape f.toNat != sh) = false := by
  rcases h with rfl | h
  · rfl
  · simp [h]

/-- Rows that lie in one half of the bank (R91). -/
theorem rows_in_half {base m mc : Nat} (h : if base < mc then base + m ≤ mc else base + m ≤ 2 * mc) :
    (if base < mc then decide (mc < base + m) else decide (2 * mc < base + m)) = false := by
  split at h <;> simp [*]

theorem mmt_operands_sound {a b c d : Option Nat} (ha : a = none) (hb : b = none) (hc : c = none) (hd : d = none) :
    [a, b, c, d].filterMap id = [] := by
  simp [ha, hb, hc, hd]

theorem mmp_operands_sound {flush : Bool} {a c d : Option Nat} (ha : a = none) (hcd : flush = true → c = none ∧ d = none) :
    ([a] ++ if flush then [c, d] else []).filterMap id = [] := by
  cases flush <;> simp_all

-- ───────────────────────── what the array answers

section
variable {a : ArrayState} {slot ix : Nat} {g : SegState}

@[simp] theorem seg_setSeg : (a.setSeg ix g).seg ix = g := by simp [ArrayState.seg, ArrayState.setSeg]

theorem enter_whole (hh : a.held slot = none) (hc : a.segCount = 0) :
    a.enter slot 0 a.shape = .go 0 (a.setSeg 0 { a.seg 0 with owner := some slot }) := by
  simp [ArrayState.enter, hh, hc]

theorem enterStep_whole (hh : a.held slot = none) (hc : a.segCount = 0) (hm : a.mmtIn 0 = false) :
    a.enterStep slot 0 a.shape = .go 0 (a.setSeg 0 { a.seg 0 with owner := some slot }) := by
  simp [ArrayState.enterStep, enter_whole hh hc, hm]

end

-- ───────────────────────── an operation is put into the array

section
variable {r : CtxRef} {p : Nat} {s : State}

@[simp] theorem square_advance {slot q : Nat} : (advance p slot s).square q = s.square q := rfl
@[simp] theorem square_replayMat {c cls rnd long q} : (replayMat c cls rnd long s).square q = s.square q := by unfold replayMat; split <;> rfl
@[simp] theorem ctx_replayMat {c cls rnd long q k} : (replayMat c cls rnd long s).ctx q k = s.ctx q k := by unfold replayMat; split <;> rfl

/-- An operation without queues enters the array behind the others, and its context goes on. -/
theorem issueOp_enters {e : Result} {op : MatOp} {i : Instr} {a : ArrayState} (he : e = Effect.apply r p (issueOp p r.slot op i a s))
    (h : op.holds = false) : ∃ t, e = .next t ∧ (t.square p).arr.tiles = a.tiles ++ [op] ∧
      (t.ctx p r.slot).pc = (loopNext (s.ctx p r.slot).loops ((s.ctx p r.slot).pc + 8)).1 := by
  simp [he, issueOp, h, advance]

end

/-- Settles O12: each test of `execMmt` and `execMmp` passes by the hypothesis that names it, and `issueOp_enters` says what the rest does. -/
theorem matrixInstructions : Obligations.MatrixInstructions := by
  refine ⟨?mmt, ?mmp, fun arr slot hh hc => ⟨⟨_, enter_whole hh hc, rfl⟩, fun hm => ⟨_, enterStep_whole hh hc hm, rfl, by simp⟩⟩⟩
  case mmt =>
    intro b r f p hr
    have he : exec (.mmt r f) b = _ := runInstr_of_runs hr _
    generalize fetchCode p r.slot b = s at he ⊢
    dsimp only at he ⊢
    intro hhi hlo hrnd hdim hcls hpair hscale hseg hout hother ha hb hc hd hka hkb hkc hkd
    simp only [hhi, hlo, beq_false_of_ne hrnd, bits_eq_zero hdim, beq_false_of_ne hcls, hpair, hscale, hseg, opWordBad_of_checkOperand hc, hout, hother,
      mmt_operands_sound ha hb hc hd, List.contains_nil, bne_self_eq_false, Bool.or_self, Bool.not_true, Bool.false_eq_true, if_false] at he
    refine ⟨fun hz => he.trans (by rw [if_pos hz]; rfl), fun hm hn ix ar hg => ?_, fun hm hn h0 hh hs hsh => ?_⟩
    all_goals rw [if_neg (not_or.mpr ⟨hm, hn⟩)] at he
    · rw [hg] at he
      obtain ⟨t, ht, htiles, hpc⟩ := issueOp_enters he (by simp [hka, hkb, hkc, hkd])
      exact ⟨_, t, ht, htiles, by simpa using hpc, rfl, rfl, rfl, rfl, rfl, rfl, rfl, rfl, rfl, rfl, rfl⟩
    · rw [← hsh, h0, show (0 : BitVec 2).toNat = 0 from rfl, enter_whole hh hs] at he
      obtain ⟨t, ht, -⟩ := issueOp_enters he (by simp [hka, hkb, hkc, hkd])
      exact ⟨t, ht⟩
  case mmp =>
    intro b r f p hr
    have he : exec (.mmp r f) b = _ := runInstr_of_runs hr _
    generalize fetchCode p r.slot b = s at he ⊢
    dsimp only at he ⊢
    intro hhi hlo hrnd hsh1 hsh4 hdim hcls hscale hshape hseg hm hmc hn hnw hbase hoc hd hfd hout hka hflush ix ar hg hset ha
    have hsh0 : f.shape.toNat ≠ 0 := by omega
    have hdest : (f.flush && (opWord ((s.ctx p r.slot).reg f.sd)).kind == 0) = false := by simpa using hfd
    have hpair : ((ar.seg ix).front.loaded && formatClass (ar.seg ix).front.fmt != formatClass (opWord ((s.ctx p r.slot).reg f.sa)).fmt) = false := by
      simpa using hset
    have hsound := mmp_operands_sound ha fun h => (hflush h).2.2
    simp only [hhi, hlo, beq_false_of_ne hrnd, beq_false_of_ne hsh0, hsh4.not_gt, bits_eq_zero hdim, beq_false_of_ne hcls, hscale, seg_names_shape hshape,
      hseg, beq_false_of_ne hm, hmc.not_gt, beq_false_of_ne hn, hnw.not_gt, rows_in_half hbase, hoc, hd, hdest, hout, hg, hpair, hsound,
      bne_self_eq_false, decide_false, Bool.or_self, Bool.not_true, Bool.false_eq_true, if_false] at he
    obtain ⟨t, ht, htiles, hpc⟩ := issueOp_enters he (by cases hf : f.flush <;> simp_all)
    exact ⟨_, t, ht, htiles, by simpa using hpc, rfl, rfl, rfl, rfl, rfl, rfl, rfl, rfl, rfl, rfl, rfl, fun hf => by simp [hf]⟩

end Sys2Proof.Machine
end

section
/-! SUPPORT. LOADW over a share that starts inside a granule. A read of the share visits granules by 32-byte steps from where it starts, so that over such a share a
read of a whole block and a read of one of its elements can visit different granules. Shares of the hoist start at share blocks of 64 KiB (R29), where this cannot be;
the statement is about every state. -/

namespace Sys2Proof.Machine

/-- A LOADW of the block that s1 names, with the extents in s2, of shape 1. -/
def loadwRow : LoadwF := { sb := 1, skn := 2, shape := 1, seg := 0, rsv := 0 }

/-- A context whose share starts 16 bytes into the scratchpad. s1 names BF16 elements, row by row, at the start of the share, and s2 one row of 16 of them. -/
def straddler : Ctx :=
  (Ctx.setReg { active := true, codeLen := 8, shareBase := 16, shareLen := 64 } 1 (BitVec.ofNat 64 (2 ^ 61 + 9 * 2 ^ 56))).setReg 2
    (BitVec.ofNat 64 (1 + 16 * 2 ^ 16))

/-- The context stands at the LOADW, whose line is in the instruction cache, and the scratchpad's second granule is poisoned: the read of the whole block visits
the first granule alone, while elements 8 to 15 lie in the second. -/
def straddled : State :=
  { State.reset with
    ctxs := [(0, straddler)]
    squares := [(0, {
      arr := { shape := 1 }
      icache := [{ slot := 0, addr := 0, bytes := leBytes 64 (instrWord 1 0x02 loadwRow.bits).toNat, poison := [false, false] }] })]
    scratch := ({} : Mem).put 32 (Code.poisoned 0) }

theorem straddled_runs : Runs (.loadw ⟨0, 0⟩ loadwRow) straddled ⟨0, 0⟩ 0 := ⟨by decide +kernel, _, by decide +kernel, rfl⟩

/-- The element's poison tears the context down. -/
theorem straddled_faults : ∃ t, exec (.loadw ⟨0, 0⟩ loadwRow) straddled = .next t ∧ (t.ctx 0 0).pc = 0 := ⟨_, rfl, by decide +kernel⟩

/-- Refutes O13: in `straddled` the read of the whole block is clean, but that of an element meets the poisoned granule, so that the LOADW faults where the
statement has the context go on at 8. -/
theorem not_stationarySets : ¬ Obligations.StationarySets := by
  rintro ⟨hload, -, -⟩
  have hclean : (readPad 0 16 0 32 (fetchCode 0 0 straddled)).2 = false := by decide +kernel
  obtain ⟨t, ht, hpc, -⟩ := hload straddled ⟨0, 0⟩ loadwRow 0 straddled_runs rfl (by decide) (by decide) (by decide +kernel) (by decide +kernel) (.inl rfl)
    (by decide +kernel) (by decide +kernel) (by decide +kernel) (by decide +kernel) (by decide +kernel) (by decide +kernel) (by decide +kernel) hclean 0 _ rfl
  obtain ⟨u, hu, hz⟩ := straddled_faults
  cases hu.symm.trans ht
  exact absurd (hz.symm.trans hpc) (by decide +kernel)

end Sys2Proof.Machine
end

section
/-! SUPPORT. Tiles that end (R81, R91, R95, R107, R112). Summing and flushing a tile writes the scratchpads alone; what is done after it, to the context, to whoever
waits and to the operation, is followed through a view of the state, `tileEnd`. -/

namespace Sys2Proof.Machine

-- ───────────────────────── what the steps of a tile leave alone

/-- A state but for what the steps of a tile write themselves: the scratchpads, and the count of the free values that they have drawn. -/
def State.besides (s : State) : State := { s with scratch := {}, free := 0 }

section
variable {s t : State}

theorem squares_of_besides (h : t.besides = s.besides) : t.squares = s.squares := by
  simpa [State.besides] using congrArg State.squares h

theorem ctxs_of_besides (h : t.besides = s.besides) : t.ctxs = s.ctxs := by
  simpa [State.besides] using congrArg State.ctxs h

theorem tower_of_besides (h : t.besides = s.besides) : t.tower = s.tower := by
  simpa [State.besides] using congrArg State.tower h

theorem tameInt_besides {cls a} : (tameInt cls a s).2.besides = s.besides := by unfold tameInt; split <;> rfl

theorem sumTile_besides {p base op set bank} : (sumTile s p base op set bank).st.besides = s.besides :=
  foldl_keeps (fun t : TileOut => t.st.besides) fun _ _ => foldl_keeps (fun t : TileOut => t.st.besides) fun _ _ => tameInt_besides

theorem flushTile_besides {p base op x sr seeds} : (flushTile p base op x sr seeds).st.besides = x.st.besides :=
  foldl_keeps (fun t : TileOut => t.st.besides) fun _ _ => by dsimp only; split <;> rfl

theorem sumTile_out {p base op set bank} : (sumTile s p base op set bank).out = [] :=
  foldl_keeps (fun t : TileOut => t.out) fun _ _ => foldl_keeps (fun t : TileOut => t.out) fun _ _ => by rfl

theorem flushTile_out {p base op x sr seeds} (h : op.d.kind ≠ 3) : (flushTile p base op x sr seeds).out = x.out :=
  foldl_keeps (fun t : TileOut => t.out) fun _ _ => by dsimp only; rw [if_neg h]

-- ───────────────────────── what the end of a tile is read off

/-- What a tile that ends writes or leaves: the segments and operations of its square's array, the memories, and its context's generator. -/
structure TileEnd where
  segs    : List (Nat × SegState)
  tiles   : List MatOp
  scratch : Mem
  tower   : Mem
  sr      : Word

/-- That part of a state. -/
def State.tileEnd (s : State) (p slot : Nat) : TileEnd := ⟨(s.square p).arr.segs, (s.square p).arr.tiles, s.scratch, s.tower, (s.ctx p slot).sr⟩

theorem setWait_sr {p k slot : Nat} {w : Wait} : ((s.setCtx p k { s.ctx p k with wait := w }).ctx p slot).sr = (s.ctx p slot).sr := by
  by_cases h : ctxKey p slot = ctxKey p k
  · simp [State.ctx, State.setCtx, h]
  · rw [State.ctx_setCtx_ne h]

theorem wakeArray_tileEnd {p slot : Nat} : (wakeArray p s).tileEnd p slot = s.tileEnd p slot :=
  foldl_keeps (fun s : State => s.tileEnd p slot) fun s k => by
    dsimp only
    split
    · split
      · rfl
      · simp [State.tileEnd, setWait_sr]
    · rfl

theorem dropFences_hub {p slot n : Nat} : ∃ h, dropFences p slot n s = { s with hub := h } := by
  induction n generalizing s with
  | zero => exact ⟨s.hub, rfl⟩
  | succ n ih =>
    unfold dropFences
    split
    · exact ⟨s.hub, rfl⟩
    · exact ih

/-- A context that waits for nothing goes on as it was when an operation of it is over. -/
theorem opOver_tileEnd {p slot : Nat} (h : (s.ctx p slot).wait = .none) : (opOver p slot false s).tileEnd p slot = s.tileEnd p slot := by
  obtain ⟨hub, hd⟩ := dropFences_hub (s := s) (p := p) (slot := slot) (n := s.hub.outs.length)
  have hw : (State.ctx { s with hub := hub } p slot).wait = .none := h
  have hs : settle p slot s = { s with hub := hub } := by simp only [settle, hd, hw]
  rw [opOver, if_neg (by simp), wakeArray_tileEnd, hs]
  rfl

end

-- ───────────────────────── an operation leaves or goes on to its next tile

theorem front_replaceOp {l : List MatOp} {slot : Nat} {o x : MatOp} (h : l.find? (·.slot == slot) = some o) (hx : x.slot = slot) :
    (replaceOp l slot (some x)).find? (·.slot == slot) = some x := by
  induction l with
  | nil => simp at h
  | cons y t ih =>
    by_cases hy : y.slot = slot
    · simp [replaceOp, hy, hx]
    · simp only [List.find?_cons, beq_false_of_ne hy] at h
      simp [replaceOp, hy, ih h]

theorem nextTile_of_some {op o : MatOp} (h : op.nextTile = some o) : o.slot = op.slot ∧ o.holds = op.holds ∧ o.out = op.out := by
  unfold MatOp.nextTile at h
  dsimp only at h
  split_ifs at h <;> cases h <;> exact ⟨rfl, rfl, rfl⟩

theorem feedArray_of_free {s : State} {p slot : Nat} {op : MatOp} (h : (s.square p).arr.front slot = some op) (hh : op.holds = false) :
    feedArray p slot s = s := by
  simp [feedArray, h, hh]

@[simp] theorem raiseFlags_square {n fl q : Nat} {s : State} : (raiseFlags n fl s).square q = s.square q := by unfold raiseFlags; split <;> rfl
@[simp] theorem raiseFlags_ctx {n fl q k : Nat} {s : State} : (raiseFlags n fl s).ctx q k = s.ctx q k := by unfold raiseFlags; split <;> rfl

theorem markRead_wait {c : Ctx} {a n : Nat} : (c.markRead a n).wait = c.wait := by
  unfold Ctx.markRead
  split
  · rfl
  · exact foldl_keeps Ctx.wait fun _ _ => by rfl

section
variable {p slot ix : Nat} {n : Option MatOp} {g : SegState} {segs : List (Nat × SegState)} {l : List MatOp} {k m : Mem} {v : Word} {t : State}

@[simp] theorem putOp_ctx {q j : Nat} : (putOp p slot n t).ctx q j = t.ctx q j := rfl

theorem putOp_tileEnd (h : t.tileEnd p slot = ⟨segs, l, k, m, v⟩) : (putOp p slot n t).tileEnd p slot = ⟨segs, replaceOp l slot n, k, m, v⟩ := by
  obtain ⟨hs, hl, hk, hm, hv⟩ := TileEnd.mk.injEq .. ▸ h
  simp [putOp, State.tileEnd, hs, hl, hk, hm, hv]

theorem setHalf_tileEnd {half : Nat} :
    (t.setSquare p { t.square p with arr := { (t.square p).arr with half := half } }).tileEnd p slot = t.tileEnd p slot := by
  simp [State.tileEnd]

/-- An operation whose tile was its last leaves the array. -/
theorem opOver_putOp (hw : (t.ctx p slot).wait = .none) (h : t.tileEnd p slot = ⟨segs, l, k, m, v⟩) :
    (opOver p slot false (putOp p slot none t)).tileEnd p slot = ⟨segs, replaceOp l slot none, k, m, v⟩ := by
  rw [opOver_tileEnd (by rwa [putOp_ctx]), putOp_tileEnd h]

/-- An operation that uses no queue goes on to its next tile without taking or pushing granules. -/
theorem feedArray_putOp {op o : MatOp} (hf : l.find? (·.slot == slot) = some op) (ho : o.slot = slot) (hh : o.holds = false)
    (h : t.tileEnd p slot = ⟨segs, l, k, m, v⟩) :
    (feedArray p slot (putOp p slot (some o) t)).tileEnd p slot = ⟨segs, replaceOp l slot (some o), k, m, v⟩ := by
  have hp := putOp_tileEnd (n := some o) h
  have ht : ((putOp p slot (some o) t).square p).arr.tiles = _ := congrArg TileEnd.tiles hp
  rw [feedArray_of_free (by rw [ArrayState.front, ht, front_replaceOp hf ho]) hh, hp]

/-- What the statement asks of the state after a tile. -/
theorem leaves_of_tileEnd (h : t.tileEnd p slot = ⟨Assoc.set segs ix g, l, k, m, v⟩) :
    (t.square p).arr.seg ix = g ∧ (t.square p).arr.tiles = l ∧ t.scratch = k ∧ t.tower = m ∧ (t.ctx p slot).sr = v := by
  obtain ⟨hs, hl, hk, hm, hv⟩ := TileEnd.mk.injEq .. ▸ h
  exact ⟨by simp [ArrayState.seg, hs], hl, hk, hm, hv⟩

end

-- ───────────────────────── the step

/-- The stationary set that a tile runs over, and whether a poisoned granule was read for it. -/
def tileLoad (s : State) (p slot : Nat) (op : MatOp) : StatSet × Bool :=
  if op.kind = .mmt then loadBlock s p (s.ctx p slot).shareBase op else (op.front, false)

/-- What a tile sums, before it is flushed. -/
def tileSum (s : State) (p slot : Nat) (op : MatOp) : TileOut :=
  { sumTile s p (s.ctx p slot).shareBase op (tileLoad s p slot op).1 ((s.square p).arr.seg op.segIx).bank with sr := (s.ctx p slot).sr }

/-- What a tile gives: its sums, flushed where its block is the last. -/
def tileOut (s : State) (p slot : Nat) (op : MatOp) : TileOut :=
  if op.block.last then flushTile p (s.ctx p slot).shareBase op (tileSum s p slot op) (s.ctx p slot).sr (s.unitSeed (s.ctx p slot) op.m) else tileSum s p slot op

/-- The segment of a tile that ends: its bank, and for an MMT with depth the block that the tile has loaded and swapped to the front. -/
def tileSeg (s : State) (p slot : Nat) (op : MatOp) : SegState :=
  let g := (s.square p).arr.seg op.segIx
  let bank := (tileOut s p slot op).bank
  if op.kind == .mmt && op.k != 0 then { g with bank := bank, front := (tileLoad s p slot op).1, back := g.front }
  else if op.kind = .mmt then g else { g with bank := bank }

/-- The state once a tile has been summed and flushed, its segment is written and its context has read A. -/
def tileState (s : State) (p slot : Nat) (op : MatOp) : State :=
  let x := tileOut s p slot op
  let s := x.st.setSquare p { x.st.square p with arr := (x.st.square p).arr.setSeg op.segIx (tileSeg s p slot op) }
  let c := s.ctx p slot
  let c := if op.a.kind = 1 ∨ op.a.kind = 2 then c.markRead op.a.addr (op.a.shareEnd op.m op.k false - op.a.addr) else c
  raiseFlags c.cmd x.flags (s.setCtx p slot { c with sr := x.sr })

section
variable {s : State} {r : CtxRef} {p slot : Nat} {op : MatOp}

theorem tileSum_besides : (tileSum s p slot op).st.besides = s.besides := sumTile_besides

theorem tileOut_besides : (tileOut s p slot op).st.besides = s.besides := by
  unfold tileOut
  split
  · exact flushTile_besides.trans tileSum_besides
  · exact tileSum_besides

theorem tileOut_out (h : op.d.kind ≠ 3) : (tileOut s p slot op).out = [] := by
  unfold tileOut
  split
  · exact (flushTile_out h).trans sumTile_out
  · exact sumTile_out

theorem tileState_tileEnd : (tileState s p slot op).tileEnd p slot =
    ⟨Assoc.set (s.square p).arr.segs op.segIx (tileSeg s p slot op), (s.square p).arr.tiles, (tileOut s p slot op).st.scratch, s.tower,
      (tileOut s p slot op).sr⟩ := by
  have hq : (tileOut s p slot op).st.square p = s.square p := by rw [State.square, squares_of_besides tileOut_besides]; rfl
  simp only [State.tileEnd, tileState, raiseFlags_square, raiseFlags_ctx]
  simp [raiseFlags, apply_ite State.scratch, apply_ite State.tower, ArrayState.setSeg, hq, tower_of_besides (tileOut_besides (s := s))]

theorem tileState_wait : ((tileState s p slot op).ctx p slot).wait = (s.ctx p slot).wait := by
  have hc : (tileOut s p slot op).st.ctx p slot = s.ctx p slot := by rw [State.ctx, ctxs_of_besides tileOut_besides]; rfl
  simp only [tileState, raiseFlags_ctx, State.ctx_setCtx, State.ctx_setSquare]
  split <;> simp [markRead_wait, hc]

/-- A tile that waits for no queue and is not delayed: poison in what it reads faults its context; otherwise its operation goes on to its next tile or leaves. -/
theorem execMmpTileComplete_free (hp : s.physOf r.sq = some p) (hf : (s.square p).arr.front r.slot = some op) (hk : op.kind ≠ .loadw) (hd : op.done = false)
    (hh : op.holds = false) (hA : op.needA = 0) (hB : op.needB = 0) (hC : op.needC = 0) (ho : op.out = []) (hg : s.domainOpen 0 (s.ctx p r.slot).burgee = true) :
    exec (.mmpTileComplete r) s =
      if (tileLoad s p r.slot op).2 || (tileOut s p r.slot op).poison then .next (contextFault p r.slot fPoison noStream 0 s)
      else
        let t := tileState s p r.slot op
        match (if op.kind = .mmt then op.nextTile else none) with
        | some o => .next (feedArray p r.slot (putOp p r.slot (some { o with out := (tileOut s p r.slot op).out }) t))
        | none =>
          let a := (t.square p).arr
          let half := if op.kind = .mmt then (if op.base = 0 then 1 else 0) else a.half
          .next (opOver p r.slot false (putOp p r.slot none (t.setSquare p { t.square p with arr := { a with half := half } }))) := by
  have he : exec (.mmpTileComplete r) s = execMmpTileComplete r s := rfl
  rw [he, execMmpTileComplete, hp]
  dsimp only
  rw [hf]
  dsimp only
  rw [if_neg (by simp [hk, hd, hA, hB, hC, ho]), if_neg (by simp [hg]), if_neg (show ¬ op.holds = true by simp [hh])]
  rfl

end

/-- Settles O14: `execMmpTileComplete_free` says what the step comes to, `tileState_tileEnd` what the tile has written, and `opOver_putOp` and `feedArray_putOp` what
becomes of its operation. That the operands in the share are read when the tile ends is the model's deduction (log entry 65). -/
theorem matrixTiles : Obligations.MatrixTiles := by
  intro s r p op hp c arr g hf hw hk hdone hh ha hb hc hout hd hg load sum x
  have hx : x = tileOut s p r.slot op := rfl
  have hl : load = tileLoad s p r.slot op := rfl
  have he := execMmpTileComplete_free hp hf hk hdone hh ha hb hc hout hg
  have hend := tileState_tileEnd (s := s) (p := p) (slot := r.slot) (op := op)
  have hwait : ((tileState s p r.slot op).ctx p r.slot).wait = .none := tileState_wait.trans hw
  have hs : op.slot = r.slot := by simpa using List.find?_some hf
  clear_value x sum load
  subst hx hl
  refine ⟨fun hbad => he.trans (if_pos hbad), fun hl hx hm => ?_, fun hl hx hm h0 => ?_⟩
  all_goals rw [if_neg (by simp [hl, hx])] at he
  · rw [if_neg (by simp [hm])] at he
    have hseg : tileSeg s p r.slot op = { g with bank := (tileOut s p r.slot op).bank } := by simp [tileSeg, hm, g, arr]
    exact hseg ▸ ⟨_, he, leaves_of_tileEnd (opOver_putOp hwait (setHalf_tileEnd.trans hend))⟩
  · rw [if_pos hm] at he
    have hseg : tileSeg s p r.slot op = _ := if_pos (by simp [hm, h0])
    cases hn : op.nextTile with
    | none =>
      rw [hn] at he
      exact hseg ▸ ⟨_, he, leaves_of_tileEnd (opOver_putOp hwait (setHalf_tileEnd.trans hend))⟩
    | some o =>
      obtain ⟨hslot, hholds, hout'⟩ := nextTile_of_some hn
      rw [hn] at he
      dsimp only at he
      rw [tileOut_out hd, show { o with out := [] } = o by rw [← hout, ← hout']] at he
      exact hseg ▸ ⟨_, he, leaves_of_tileEnd (feedArray_putOp hf (hslot.trans hs) (hholds.trans hh) hend)⟩

end Sys2Proof.Machine
end

section
/-! SUPPORT. CHECKGEN and the queries of write generations (R127, R128). What records, queries and the hub do meanwhile leaves a context as it stands: it waits for the
same and its registers hold the same, which `Ctx.standing` reads off. -/

namespace Sys2Proof.Machine

-- ───────────────────────── what records and the hub leave of a context

section
variable {s : State}

@[simp ↓] theorem ctxs_ite {c : Prop} [Decidable c] {a b : State} : (if c then a else b).ctxs = if c then a.ctxs else b.ctxs := apply_ite ..

@[simp] theorem fire_ctxs {e} : (fire e s).ctxs = s.ctxs := by simp [fire]
@[simp] theorem fireFor_ctxs {code} : (fireFor code s).ctxs = s.ctxs := by unfold fireFor; split <;> simp
@[simp] theorem place_ctxs {code die unit body} : (place code die unit body s).ctxs = s.ctxs := by simp [place]
@[simp] theorem flushSuppressed_ctxs {code} : (flushSuppressed code s).ctxs = s.ctxs := by simp [flushSuppressed]
@[simp] theorem noteHealth_ctxs {code unit} : (noteHealth code unit s).ctxs = s.ctxs := by simp [noteHealth]
@[simp] theorem recordLimited_ctxs {code die unit body} : (recordLimited code die unit body s).ctxs = s.ctxs := by simp [recordLimited]

/-- A record that is not fatal: no context is stopped. -/
theorem record_ctxs {code die unit body} (h : unlimited code = false) : (record code die unit body s).ctxs = s.ctxs := by simp [record, h]

@[simp] theorem takeIn_ctxs {f} : (takeIn f s).ctxs = s.ctxs := by unfold takeIn; split <;> simp

theorem ctx_of_ctxs {t : State} (h : t.ctxs = s.ctxs) (p slot : Nat) : t.ctx p slot = s.ctx p slot := by
  rw [State.ctx, h]; rfl

end

/-- What a context waits for, and its registers. -/
def Ctx.standing (c : Ctx) : Wait × Vector Word 32 := (c.wait, c.regs)

section
variable {s : State} {p slot q k : Nat} {c : Ctx}

/-- A context that is rewritten as it stands, this one or another. -/
theorem setCtx_standing (h : c.standing = (s.ctx q k).standing) : ((s.setCtx q k c).ctx p slot).standing = (s.ctx p slot).standing := by
  by_cases hk : ctxKey p slot = ctxKey q k
  · simp only [State.ctx, State.setCtx, hk, Assoc.get_set_self] at h ⊢
    exact h
  · rw [State.ctx_setCtx_ne hk]

/-- An update of a context that waits leaves one that waits for nothing alone. -/
theorem ctx_setCtx_of_waits (h : (s.ctx p slot).wait = .none) (hq : (s.ctx q k).wait ≠ .none) : (s.setCtx q k c).ctx p slot = s.ctx p slot :=
  State.ctx_setCtx_ne (fun hk => hq (by rwa [State.ctx, ← hk])) c s

theorem advance_standing : ((advance q k s).ctx p slot).standing = (s.ctx p slot).standing := setCtx_standing rfl

theorem countCycles_standing {f i} : ((countCycles f q k i s).ctx p slot).standing = (s.ctx p slot).standing := setCtx_standing rfl

theorem semWait_waits {o} (h : semWait q k s = some o) : (s.ctx q k).wait ≠ .none := by
  intro hw
  simp [semWait, hw] at h

theorem waitingForHub_sem {o load} (h : s.waitingForHub = some (.sem q k o load)) : semWait q k s = some (o, load) := by
  unfold State.waitingForHub at h
  split at h
  · cases h
  · obtain ⟨e, -, he⟩ := List.exists_of_findSome?_eq_some h
    obtain ⟨x, hx, hy⟩ := Option.bind_eq_some_iff.mp he
    split at hy <;> cases hy
    exact hx

end

/-- Requests that enter the hub leave a context that waits for nothing as it stands. -/
theorem admitHub_standing {n : Nat} {s : State} {p slot : Nat} (h : (s.ctx p slot).wait = .none) :
    ((admitHub n s).ctx p slot).standing = (s.ctx p slot).standing := by
  induction n generalizing s with
  | zero => rfl
  | succ n ih =>
    have step {t : State} (ht : (t.ctx p slot).standing = (s.ctx p slot).standing) : ((admitHub n t).ctx p slot).standing = (s.ctx p slot).standing :=
      (ih ((congrArg Prod.fst ht).trans h)).trans ht
    unfold admitHub
    split
    · rfl
    · exact step countCycles_standing
    · next q k o load hq =>
      have hs {c : Ctx} : (((newOut o (s.setCtx q k c)).2.ctx p slot).standing) = (s.ctx p slot).standing :=
        congrArg Ctx.standing (ctx_setCtx_of_waits h (semWait_waits (waitingForHub_sem hq)))
      refine step ?_
      split
      · exact hs
      · exact advance_standing.trans hs

-- ───────────────────────── CHECKGEN asks (R128)

section
variable {s : State} {r : CtxRef} {p slot i sb : Nat}

theorem dropFences_none {n : Nat} (h : ∀ o ∈ s.hub.outs, ¬ (o.kind = 5 ∧ o.psq = p ∧ o.slot = slot)) : dropFences p slot n s = s := by
  cases n with
  | zero => rfl
  | succ n =>
    have hf : (s.hub.outs.find? fun f => f.kind == 5 && f.psq == p && f.slot == slot && s.fenceOver f) = none := by
      refine List.find?_eq_none.mpr fun o ho hm => ?_
      obtain ⟨⟨⟨hk, hp⟩, hs⟩, -⟩ := by simpa using hm
      exact h o ho ⟨hk, hp, hs⟩
    rw [dropFences, hf]

/-- A synchronisation instruction whose unused fields hold zero. -/
theorem sync_legal {j : Instr} {f : SyncF} {m : Nat} {sa sb lv id : Bool} (hh : f.rsvHi = 0) (hl : f.rsvLo = 0) (hm : f.mode.toNat ≤ m)
    (hsa : sa = false → f.sa = 0) (hsb : sb = false → f.sb = 0) (hlv : lv = false → f.level = 0) (hid : id = false → f.id = 0)
    (body : Nat → Ctx → State → Effect) : sync j r f m sa sb lv id body s = runInstr j r body s := by
  have hz : ¬ (f.rsvHi ≠ 0 ∨ f.rsvLo ≠ 0 ∨ m < f.mode.toNat ∨ (!sa ∧ f.sa ≠ 0) ∨ (!sb ∧ f.sb ≠ 0) ∨ (!lv ∧ f.level ≠ 0) ∨ (!id ∧ f.id ≠ 0)) := by
    have hm := hm.not_gt
    simp only [Bool.not_eq_true']
    tauto
  simp only [sync, if_neg hz]

theorem sendQueries_ctxs {l : List (Nat × Nat)} : (forAll l (fun h s => sendQuery p slot h.1 h.2 s) s).ctxs = s.ctxs :=
  foldl_keeps State.ctxs fun _ _ => by rfl

/-- A context that waits to ask for a stream's write generations asks once no watched read of the stream is on its way. -/
theorem settle_asks {w : List (Nat × Nat)} (hw : (s.ctx p slot).wait = .gen i sb false w)
    (hf : ∀ o ∈ s.hub.outs, ¬ (o.kind = 5 ∧ o.psq = p ∧ o.slot = slot))
    (hr : ∀ g ∈ (s.square p).tags, ¬ (g.slot = slot ∧ g.stream = i ∧ g.dead = false)) :
    ∃ v, ((settle p slot s).ctx p slot).wait = .gen i sb true v := by
  have ht : ((s.square p).tags.any fun g => g.slot == slot && g.stream == i && !g.dead) = false := by simpa [and_assoc] using hr
  unfold settle
  rw [dropFences_none hf]
  simp only [hw, ht, Bool.and_false, Bool.false_eq_true, if_false]
  split
  · exact ⟨_, by rw [ctx_of_ctxs sendQueries_ctxs, State.ctx_setCtx]⟩
  · exact ⟨_, by rw [State.ctx_setCtx]⟩

/-- R128: the context waits for the stream's watched reads, and goes on to ask where they have ended. -/
theorem execCheckgen_settles {b : State} {f : SyncF} (hr : Runs (.checkgen r f) b r p) (hh : f.rsvHi = 0) (hl : f.rsvLo = 0) (hm : f.mode = 0)
    (hsa : f.sa = 0) (hlv : f.level = 0) (hi : f.id.toNat < 16) :
    let s := openToTime p r.slot (fetchCode p r.slot b)
    exec (.checkgen r f) b = .next (settle p r.slot (s.setCtx p r.slot { s.ctx p r.slot with wait := .gen f.id.toNat f.sb.toNat false [] })) := by
  obtain ⟨⟨⟨hp, -⟩, -⟩, -⟩ := id hr
  change execCheckgen r f b = _
  rw [execCheckgen, hp]
  dsimp only
  rw [sync_legal hh hl (by simp [hm]) (fun _ => hsa) (by nofun) (fun _ => hlv) (by nofun), runInstr_of_runs hr,
    if_neg (by omega), apply_stall]

end

-- ───────────────────────── a home answers (R127, R128)

section
variable {s : State}

/-- A query is performed in its turn, whatever the memory controllers do: it moves no bytes of a tower. -/
theorem generationQuery_passes {q : FabReq} : s.homePasses 0x41 q = true := rfl

/-- R128: a query that comes in its turn is performed, and what waited for it follows. -/
theorem homeRequest_query {q : FabReq} (hw : (takeIn (isRequest 0x41 q) s).waitsAtHome q = false)
    (hd : (takeIn (isRequest 0x41 q) s).seqAhead q.src q.burgee q.seq = 0) :
    homeRequest 0x41 q s = .next (let u := performNow 0x41 q (takeIn (isRequest 0x41 q) s)
      drainHome u.hub.homeWait.length u) := by
  simp [homeRequest, homeTurn, hw, hd, generationQuery_passes]

/-- R153: the offset of a page's fabric address is the page's place on its device. -/
theorem fabOffset_page {d page : Nat} (h : page < 2 ^ 32) : fabOffset (BitVec.ofNat 64 (d * 2 ^ 44 + page * 4096)).toNat / 4096 = page := by
  simp only [fabOffset, bits, BitVec.toNat_ofNat]
  omega

end

-- ───────────────────────── the answers are counted (R128)

/-- The watched pages of a stream whose write generation at this device is not the recorded one. -/
def State.movedPages (s : State) (c : Ctx) (t : Stream) : List (Nat × Nat) :=
  t.watchList.filter fun e => (Assoc.get s.tow.gens (s.pageHome c t e.1).2 0).toNat != e.2 % 65536

section
variable {s : State} {r : CtxRef} {p i sb : Nat} {c : Ctx} {t : Stream} {l : List (Nat × Nat)}

theorem reg_setReg {x : BitVec 5} {v : Word} (h : x ≠ 0) : (c.setReg x v).reg x = v := by
  rw [Ctx.reg, Ctx.setReg, if_neg h, if_neg h]
  simp [Vector.get_eq_getElem]

theorem reg_of_regs {d : Ctx} {x : BitVec 5} (h : c.regs = d.regs) : c.reg x = d.reg x := by rw [Ctx.reg, h]; rfl

theorem pageDiffers_home {remote k page gen} (h : (s.pageHome c t page).1 = s.deviceId) :
    s.pageDiffers c t remote k page gen = some ((Assoc.get s.tow.gens (s.pageHome c t page).2 0).toNat != gen % 65536) := by
  simp [State.pageDiffers, h]

/-- Every watched page at this device is checked, by its entry alone. -/
theorem checks_home (ht : c.streams[i]? = some t) (hl : ∀ e ∈ l, (s.pageHome c t e.1).1 = s.deviceId) :
    (((List.range l.length).zip l).map fun e => c.streams[i]?.bind fun t => s.pageDiffers c t [] e.1 e.2.1 e.2.2) =
      l.map fun e => some ((Assoc.get s.tow.gens (s.pageHome c t e.1).2 0).toNat != e.2 % 65536) := by
  have hz : ((List.range l.length).zip l).map Prod.snd = l := List.map_snd_zip (by simp)
  conv_rhs => rw [← hz, List.map_map]
  refine List.map_congr_left fun e he => ?_
  rw [ht]
  exact pageDiffers_home (hl e.2 (List.of_mem_zip he).2)

theorem dropQueries_standing {slot q k : Nat} (h : (s.ctx p slot).wait = .none) :
    ((dropQueries q k s).ctx p slot).standing = (s.ctx p slot).standing := by
  unfold dropQueries refillHub
  extract_lets mine hub s'
  generalize hu : forAll (s.hub.outs.filter mine) _ s' = u
  have hc : u.ctx p slot = s.ctx p slot :=
    ctx_of_ctxs (show u.ctxs = s'.ctxs from hu ▸ foldl_keeps State.ctxs fun _ _ => takeIn_ctxs) p slot
  exact (admitHub_standing (by rw [hc, h])).trans (congrArg Ctx.standing hc)

/-- R128: with every page at home and every earlier write performed, the result is written and the context goes on. -/
theorem checkgenResult_home {w : List (Nat × Nat)} (hp : s.physOf r.sq = some p) (hw : (s.ctx p r.slot).wait = .gen i sb true w)
    (hd : w.all s.writeOver = true) (hq : ∀ o ∈ s.hub.outs, ¬ (o.kind = 7 ∧ o.psq = p ∧ o.slot = r.slot))
    (ht : (s.ctx p r.slot).streams[i]? = some t) (hl : ∀ e ∈ t.watchList, (s.pageHome (s.ctx p r.slot) t e.1).1 = s.deviceId) :
    let n := (s.movedPages (s.ctx p r.slot) t).length
    ∃ u, exec (.checkgenResult r []) s = .next u ∧ (u.ctx p r.slot).standing =
      (.none, ((s.ctx p r.slot).setReg (BitVec.ofNat 5 sb) (BitVec.ofNat 64 (n % 65536 + (if t.watchLost then 2 ^ 62 else 0) +
        (if n ≠ 0 ∨ t.watchLost = true then 2 ^ 63 else 0)))).regs) := by
  intro n
  have hq : (s.hub.outs.any fun o => o.kind == 7 && o.psq == p && o.slot == r.slot && !o.sent) = false := by
    refine List.any_eq_false.mpr fun o ho hm => ?_
    obtain ⟨⟨⟨hk, hp⟩, hs⟩, -⟩ := by simpa using hm
    exact hq o ho ⟨hk, hp, hs⟩
  change ∃ u, execCheckgenResult r [] s = .next u ∧ _
  unfold execCheckgenResult
  rw [hp]
  dsimp -zeta only
  extract_lets c
  rw [show c.wait = .gen i sb true w from hw]
  dsimp -zeta only
  rw [if_neg (by simp), if_neg (by simp [hd, hq])]
  extract_lets l lost checks m res c₁ c₂ tag u v
  have hlist : l = t.watchList := by simp [l, c, ht]
  have hlost : lost = t.watchLost := by simp [lost, c, ht]
  have hchecks : checks = l.map _ := checks_home ht (hlist ▸ hl)
  have hm : m = n := by simp [m, n, hchecks, hlist, State.movedPages, List.filter_map, Function.comp_def, c]
  have hu : (u.ctx p r.slot).standing = (.none, c₁.regs) := (dropQueries_standing (by simp)).trans (by simp [Ctx.standing]; rfl)
  have hv : v.ctxs = u.ctxs := by
    unfold v
    split
    · rfl
    · exact record_ctxs (by decide)
  refine ⟨advance p r.slot v, if_neg (by simp [hchecks]), ?_⟩
  rw [advance_standing, ctx_of_ctxs hv, hu, ← hm, ← hlost]

end

/-- Settles O10: `settle_asks` for the instruction, `homeRequest_query` for the answer and `checkgenResult_home` for the count. That a query takes its place in the order
of the burgee's requests with a SEQ and a TAG, and its code, are the model's choices (log entries 126, 127). -/
theorem generationChecks : Obligations.GenerationChecks := by
  refine ⟨fun b r f p hr hh hl hm hsa hlv => ?ask, fun b src burgee seq tag page hpage => ?answer, fun s r p i sb w t0 hp => ?count⟩
  case ask =>
    intro s i hi hf ht
    obtain ⟨w, hw⟩ := settle_asks (s := s.setCtx p r.slot { s.ctx p r.slot with wait := .gen i f.sb.toNat false [] }) (w := [])
      (congrArg Ctx.wait (State.ctx_setCtx ..)) hf ht
    exact ⟨_, w, execCheckgen_settles hr hh hl hm hsa hlv hi, hw⟩
  case answer =>
    intro q s hw hd
    refine ⟨homeRequest_query hw hd, ?_, rfl⟩
    have ho : fabOffset q.addr.toNat / 4096 = page := fabOffset_page hpage
    simp [performOp, ho]
  case count =>
    intro c hw hd hq ht hsb hl n
    obtain ⟨u, he, hu⟩ := checkgenResult_home hp hw hd hq ht hl
    obtain ⟨hwait, hregs⟩ := Prod.mk.inj hu
    refine ⟨u, he, hwait, ?_⟩
    rw [reg_of_regs hregs, reg_setReg hsb]
    rfl

end Sys2Proof.Machine
end

section
/-! SUPPORT. The access engine (R118, R122 to R126, R129, R130, R152, R158, R159): the next request that it issues, the replies to its requests, the requests that a
bank held back, and the granules that a stream carries to its operation window. -/

namespace Sys2Proof.Machine

-- ───────────────────────── a request is issued (R123 to R125)

section
variable {s : State} {p slot i : Nat}

@[simp] theorem outdate_squares {key l} : (outdate key l s).squares = s.squares := by unfold outdate; split <;> rfl

@[simp] theorem joinBank_squares {bank e} : (joinBank bank e s).squares = s.squares := rfl

theorem enterBank_nextTag {id : Nat} : ((enterBank p id s).square p).nextTag = (s.square p).nextTag := by
  unfold enterBank
  split
  · rfl
  · dsimp only
    split <;> simp [State.square, State.setSquare]

theorem enterHub_nextTag {t : Tag} : ((enterHub p t s).square p).nextTag = (s.square p).nextTag := by
  simp [enterHub, State.square, State.setSquare, newOut]

theorem forAll_putPad_square {q base : Nat} {l : List (Nat × Granule)} :
    (forAll l (fun e s => putPad p base e.1 e.2 s) s).square q = s.square q := foldl_keeps (fun s : State => s.square q) fun _ _ => by rfl

/-- An issued request takes the next tag number (R122). -/
theorem issueRequest_nextTag {t : Stream} {idx kind : Nat} {dests addrs : List Nat} {ends : Bool} (h : (s.ctx p slot).streams[i]? = some t) :
    ((issueRequest p slot i idx kind dests addrs ends s).square p).nextTag = (s.square p).nextTag + 1 := by
  unfold issueRequest
  extract_lets c k a step q
  rw [show c.streams[i]? = some t from h]
  dsimp -zeta only
  extract_lets first place fresh c₁ w c₂ c₃ tag t₁ full v
  have hv : (v.square p).nextTag = (s.square p).nextTag + 1 := by simp [v, q]
  clear_value v full
  rw [← hv]
  split
  · rfl
  split
  · exact enterBank_nextTag
  · split
    · exact congrArg Square.nextTag forAll_putPad_square
    · rfl
  · exact enterHub_nextTag
  · exact enterHub_nextTag
  · rfl

end

-- ───────────────────────── the engine looks for its next request (R123)

/-- A plan that the engine serves: a request to issue, or a fault to report. -/
def Plan.ready : Plan → Bool
  | .fault _ _ | .issue _ _ _ _ _ => true
  | _ => false

/-- The state in which the engine of a square looks for its next request: its contexts are swept and its streams marked. -/
def State.looked (b : State) (psq : Nat) : State :=
  markStreams psq (forAll ((List.range 8).filter fun k => (b.ctx psq k).active) (sweep psq) b)

/-- What the engine does with the plan that it has found. -/
def servePlan (psq : Nat) (s : State) : Option (Nat × Nat × Plan) → Result
  | some (slot, i, .fault reason detail) => .next (contextFault psq slot reason i detail s)
  | some (slot, i, .issue idx kind dests addrs ends) => .next (sweep psq slot (issueRequest psq slot i idx kind dests addrs ends s))
  | _ => .next s

section
variable {s b : State} {psq slot i : Nat}

/-- The next plan is that of the first stream in the rotation that has one to serve. -/
theorem nextPlan_eq_find : s.nextPlan psq =
    ((s.streamOrder psq).find? fun e => (s.plan psq e.1 e.2).ready).map fun e => (e.1, e.2, s.plan psq e.1 e.2) := by
  unfold State.nextPlan
  induction s.streamOrder psq with
  | nil => rfl
  | cons e l ih =>
    rw [List.findSome?_cons, List.find?_cons]
    cases h : s.plan psq e.1 e.2 <;> simp [Plan.ready, h, ih]

/-- A stream with a request to issue is one of its context's streams. -/
theorem stream_of_plan {idx kind : Nat} {dests addrs : List Nat} {ends : Bool} (h : s.plan psq slot i = .issue idx kind dests addrs ends) :
    ∃ t, (s.ctx psq slot).streams[i]? = some t := by
  cases ht : (s.ctx psq slot).streams[i]? with
  | none => simp [State.plan, ht] at h
  | some t => exact ⟨t, rfl⟩

theorem accessRequestIssue_serves (hp : psq < 180) (hg : (b.square psq).gated = false) (hi : b.pwr.issueStop = false) :
    exec (.accessRequestIssue psq) b = servePlan psq (b.looked psq) ((b.looked psq).nextPlan psq) := by
  change execAccessRequestIssue psq b = _
  rw [execAccessRequestIssue, if_neg (by simp [hp, hg, hi]), ← State.looked]
  dsimp only
  generalize (b.looked psq).nextPlan psq = x
  rfl

end

-- ───────────────────────── replies (R118, R126, R152)

section
variable {s : State} {psq tag : Nat} {t : Tag} (hf : (s.square psq).tags.find? (·.id == tag) = some t) (hh : t.held = false)
include hf hh

section
variable {upset : List Upset} {timing : BurstTiming} (hr : t.ready = false) (hw : t.write = false)
include hr hw

/-- R118: the data of a request to the own share; that of a stream that is no more frees its tag. -/
theorem streamReadReply_share (hk : t.kind = 1) : exec (.streamReadReply psq tag upset timing) s =
    if t.dead then .next (freeTag psq tag s)
    else .next (arrive psq t (t.addrs.map fun a => getPad s psq (s.ctx psq t.slot).shareBase a)
      (s.setCtx psq t.slot ((s.ctx psq t.slot).watchPage t.stream 0 none))) := by
  change execStreamReadReply psq tag upset timing s = _
  simp [execStreamReadReply, hf, hw, hh, hr, hk, getPad]

/-- R126, R127: the data of a request to a tower, with its page's write generation. -/
theorem streamReadReply_tower (hk : t.kind = 0) (hd : t.dead = false) (hi : s.issues psq t = true) (hc : s.inStep timing.counter = true)
    {gs : List Granule} {u : State}
    (hy : towerGranules t upset (leaveBank t.bank psq tag (noteServed (.tower (chanId (t.bank / 16))) (s.tagPart psq t) s)) = (gs, u)) :
    exec (.streamReadReply psq tag upset timing) s =
      .next (arrive psq t gs (u.setCtx psq t.slot ((u.ctx psq t.slot).watchPage t.stream (t.addrs.headD 0 / 4096) (u.genOf (t.addrs.headD 0))))) := by
  change execStreamReadReply psq tag upset timing s = _
  simp [execStreamReadReply, whenServed, hf, hw, hh, hr, hk, hd, hi, hc, hy]

end

section
variable {burst : WriteBurst} (hb : burst.id = tag) (hw : t.write = true) (hd : t.dead = false)
include hb hw hd

/-- R118: a write to the own share is acknowledged. -/
theorem streamWriteAck_share (hk : t.kind = 1) : exec (.streamWriteAck psq burst) s = .next (sweep psq t.slot (freeTag psq tag s)) := by
  subst hb
  have ht : t.id = burst.id := by simpa using List.find?_some hf
  change execStreamWriteAck psq burst s = _
  simp [execStreamWriteAck, wrote, hf, hw, hh, hk, hd, ht]

/-- R130, R152: a write to a tower is performed and acknowledged, or its burst is rejected and stays to be issued again. -/
theorem streamWriteAck_tower (hk : t.kind = 0) (hi : s.issues psq t = true) : exec (.streamWriteAck psq burst) s =
    let x := noteServed (.tower (chanId (t.bank / 16))) (s.tagPart psq t) s
    if s.inStep burst.counter then .next (sweep psq t.slot (freeTag psq tag (putDev (t.addrs.headD 0) t.back (leaveBank t.bank psq tag x))))
    else .next (alignError (t.bank / 16) false x) := by
  subst hb
  have ht : t.id = burst.id := by simpa using List.find?_some hf
  change execStreamWriteAck psq burst s = _
  simp [execStreamWriteAck, whenServed, wrote, hf, hw, hh, hk, hd, hi, ht]

end
end

-- ───────────────────────── held requests (R124)

/-- A search that finds nothing before a member of the list ends there. -/
theorem findSome?_of_takeWhile {α : Type} {f : Nat → Option α} {q : Nat} {x : α} {l : List Nat} (hq : q ∈ l) (hx : f q = some x)
    (hn : ∀ p ∈ l.takeWhile (· != q), f p = none) : l.findSome? f = some x := by
  induction l with
  | nil => simp at hq
  | cons a t ih =>
    by_cases ha : a = q
    · simp [ha, hx]
    · have hne : (a != q) = true := by simpa using ha
      rw [List.takeWhile_cons_of_pos (by exact hne)] at hn
      rw [List.findSome?_cons, hn a (by simp)]
      exact ih ((List.mem_cons.mp hq).resolve_left (Ne.symm ha)) fun p hp => hn p (by simp [hp])

section
variable {s : State} {bank q : Nat} {t : Tag}

/-- Every requester has its turn in the rotation of a bank. -/
theorem mem_rotation (hq : q < 181) : q ∈ s.rotation bank := by
  refine List.mem_map.mpr ⟨(q + 181 - (Assoc.get s.tow.rotor bank hubRequester + 1) % 181) % 181, ?_, ?_⟩
  · rw [List.mem_range]; omega
  · omega

theorem serveHeld_square (hq : q < 180) (ht : s.heldTag bank q = some t) (hd : t.dead = false) :
    serveHeld bank q s = some (enterBank q t.id (countHeld q t.slot t.stream s)) := by
  simp [serveHeld, show q < hubRequester from hq, ht, hd]

theorem heldRequestAdmit_square (hq : q < 180) (ht : s.heldTag bank q = some t) (hd : t.dead = false)
    (hn : ∀ p ∈ (s.rotation bank).takeWhile (· != q), serveHeld bank p s = none) :
    exec (.heldRequestAdmit bank) s = .next (rotate bank q (enterBank q t.id (countHeld q t.slot t.stream s))) := by
  have hfirst : ((s.rotation bank).findSome? fun q => (serveHeld bank q s).map fun t => rotate bank q t) = _ :=
    findSome?_of_takeWhile (q := q) (mem_rotation (by omega)) (by rw [serveHeld_square hq ht hd]; rfl) fun p hp => by rw [hn p hp]; rfl
  change execHeldRequestAdmit bank s = _
  rw [execHeldRequestAdmit, hfirst]

end

/-- Settles O16: `nextPlan_eq_find` says which stream the engine serves and `issueRequest_nextTag` that its request takes the next number; replies and held requests
come to what their lemmas say; a granule that passes the four checks of its window leaves the question whether it makes its operation whole. -/
theorem accessEngine : Obligations.AccessEngine := by
  refine ⟨fun b psq hp hg hi => ?issue, fun s psq tag t upset counter again hf hh hr => ?reply,
    fun s bank q t hq ht hd hn => heldRequestAdmit_square hq ht hd hn, ?window⟩
  case issue =>
    intro s order ready
    have he : exec (.accessRequestIssue psq) b = servePlan psq s (s.nextPlan psq) := accessRequestIssue_serves hp hg hi
    clear_value s
    rw [show s.nextPlan psq = (order.find? ready).map _ from nextPlan_eq_find] at he
    clear_value order ready
    refine ⟨fun slot i idx kind dests addrs ends hfirst hplan => ⟨?_, ?_⟩, fun slot i reason detail hfirst hplan => ?_, fun hnone => ?_⟩
    · simpa [servePlan, hfirst, hplan] using he
    · obtain ⟨t, ht⟩ := stream_of_plan hplan
      exact issueRequest_nextTag ht
    · simpa [servePlan, hfirst, hplan] using he
    · simpa [servePlan, hnone] using he
  case reply =>
    intro ch x y
    refine ⟨fun hw hk hd => ?_, fun hw hk hd => ?_, fun hw hk hd hi hc => streamReadReply_tower hf hh hr hw hk hd hi hc rfl, ?_, ?_⟩
    · simpa [hd] using streamReadReply_share hf hh hr hw hk
    · simpa [hd] using streamReadReply_share hf hh hr hw hk
    · exact fun hw hk hd => streamWriteAck_share hf hh rfl hw hd hk
    · intro hw hk hd hi
      have he := streamWriteAck_tower (burst := ⟨tag, counter⟩) hf hh rfl hw hd hk hi
      exact ⟨fun hc => he.trans (if_pos hc), fun hc => he.trans (if_neg (by simp [hc]))⟩
  case window =>
    intro s r i p g t hp hf hback haddr c key have_ all h rest taken need cleared hsound hrest
    have he : exec (.operationWindowWrite r i (opWindow + 32 * i) g) s = execOperationWindowWrite r i (opWindow + 32 * i) g s := rfl
    obtain ⟨hpoison, hheader, hshare⟩ : ¬ (have_.isEmpty = true ∧ isPoisoned g = true) ∧ ¬ (have_.isEmpty = true ∧ badHeader h = true) ∧
        ¬ (have_.isEmpty = true ∧ bit (fieldAt h 3 1) 0 = true ∧ (!c.inShare (fieldAt h 4 4) 64) = true) := by
      simp only [List.isEmpty_iff, Bool.not_eq_true', not_and]
      grind
    have hmore : ¬ rest.back.isEmpty = true := by simpa using hrest
    rw [execOperationWindowWrite, hp] at he
    dsimp only at he
    rw [hf] at he
    dsimp only at he
    rw [if_neg (by simp [hback, haddr]), if_neg (not_not.mpr rfl), if_neg hpoison, if_neg hheader, if_neg hshare, if_neg hmore] at he
    refine ⟨fun hle => he.trans ?_, fun hlt h30 h20 hahead hroom => he.trans ?_⟩
    · rw [decide_eq_false (show ¬ need < all.length by omega)]
      rfl
    · have hhub : ¬ (true && fieldAt h 0 1 != 0x30 && fabDevice (fieldAt h 8 8) != s.deviceId && !s.hubRoom c.burgee) = true := by
        rcases hroom with hd | hd <;> simp [hd]
      rw [decide_eq_true (show need < all.length from hlt), hahead, if_neg (by simp), if_neg hhub, if_neg (by simp), if_neg h30,
        if_neg fun hf => h20 hf.1]
      rfl

end Sys2Proof.Machine
end

section
/-! SUPPORT. Byte order, and granules as bytes: a granule read out of its bytes is that granule, and its bytes read out of it are those bytes. -/

namespace Sys2Proof.Machine

theorem leBytes_eq_map (n v : Nat) : leBytes n v = (List.range n).map fun j => BitVec.ofNat 8 (v / 256 ^ j) := by
  induction n generalizing v with
  | zero => rfl
  | succ n ih =>
    rw [leBytes, ih, List.range_succ_eq_map, List.map_cons, List.map_map]
    congr 1
    · simp
    · exact List.map_congr_left fun j _ => by
        simp only [Function.comp, Nat.succ_eq_add_one, Nat.pow_succ', Nat.div_div_eq_div_mul]

@[simp] theorem length_leBytes (n v : Nat) : (leBytes n v).length = n := by simp [leBytes_eq_map]

@[simp] theorem leBytes_leNat (l : List Byte) : leBytes l.length (leNat l) = l := by
  induction l with
  | nil => rfl
  | cons b t ih =>
    have hb := b.isLt
    have hd : (b.toNat + 256 * leNat t) / 256 = leNat t := by omega
    have hm : (b.toNat + 256 * leNat t) % 2 ^ 8 = b.toNat := by omega
    simp only [List.length_cons, leBytes, leNat, hd, ih]
    congr 1
    exact BitVec.eq_of_toNat_eq (by simpa using hm)

@[simp] theorem leNat_leBytes (n v : Nat) : leNat (leBytes n v) = v % 256 ^ n := by
  induction n generalizing v with
  | zero => simp [leBytes, leNat, Nat.mod_one]
  | succ n ih =>
    rw [leBytes, leNat, ih, BitVec.toNat_ofNat, Nat.pow_succ' (m := 256)]
    exact (Nat.mod_mul (x := v) (a := 256) (b := 256 ^ n)).symm

theorem leNat_lt (l : List Byte) : leNat l < 256 ^ l.length := by
  have h := leNat_leBytes l.length (leNat l)
  rw [leBytes_leNat] at h
  exact h ▸ Nat.mod_lt _ (Nat.pow_pos (by decide))

/-- The bytes of a word, as its extracts spell them. -/
theorem map_extract_eq_leBytes {w : Nat} (v : BitVec w) (n : Nat) :
    ((List.range n).map fun j => v.extractLsb' (8 * j) 8) = leBytes n v.toNat := by
  rw [leBytes_eq_map]
  refine List.map_congr_left fun j _ => BitVec.eq_of_toNat_eq ?_
  simp [Nat.shiftRight_eq_div_pow, Nat.pow_mul]

theorem granuleBytes_eq (v : BitVec 256) : granuleBytes v = leBytes 32 v.toNat := map_extract_eq_leBytes v 32

@[simp] theorem length_granuleBytes (v : BitVec 256) : (granuleBytes v).length = 32 := by simp [granuleBytes_eq]

theorem fitTo_of_length {n : Nat} {l : List Byte} (h : l.length = n) : fitTo n l = l := by
  subst h
  simp [fitTo]

@[simp] theorem bytesGranule_granuleBytes (v : BitVec 256) : bytesGranule (granuleBytes v) = v := by
  rw [bytesGranule, fitTo_of_length (length_granuleBytes v), granuleBytes_eq, leNat_leBytes]
  refine BitVec.eq_of_toNat_eq ?_
  have := v.isLt
  simp only [BitVec.toNat_ofNat]
  omega

theorem granuleBytes_bytesGranule {l : List Byte} (h : l.length = 32) : granuleBytes (bytesGranule l) = l := by
  have hl := leNat_lt l
  rw [h] at hl
  rw [granuleBytes_eq, bytesGranule, fitTo_of_length h, BitVec.toNat_ofNat, Nat.mod_eq_of_lt (by simpa using hl), ← h, leBytes_leNat]

end Sys2Proof.Machine
end

section
/-! SUPPORT. The field of the granule code (R134): `Code.mul` is additive in either factor, so that its laws hold once they hold of the first eight powers of α,
which span the bytes; and every byte but zero has an inverse. -/

namespace Sys2Proof.Machine.Code

-- ───────────────────────── additive maps

/-- A map of bytes that takes XOR to XOR. -/
def Additive (f : Byte → Byte) : Prop := ∀ a b, f (a ^^^ b) = f a ^^^ f b

theorem Additive.zero {f : Byte → Byte} (h : Additive f) : f 0 = 0 := by simpa using h 0 0

theorem Additive.comp {f g : Byte → Byte} (hf : Additive f) (hg : Additive g) : Additive fun a => f (g a) :=
  fun a b => (congrArg f (hg a b)).trans (hf (g a) (g b))

theorem Additive.xor {f g : Byte → Byte} (hf : Additive f) (hg : Additive g) : Additive fun a => f a ^^^ g a := fun a b => by
  simp only [hf a b, hg a b]
  ac_rfl

theorem additive_bit (k : Nat) (x : Byte) : Additive fun a => if a.getLsbD k then x else 0 := fun a b => by
  simp only [BitVec.getLsbD_xor]
  cases a.getLsbD k <;> cases b.getLsbD k <;> simp

theorem xtime_additive : Additive xtime := by
  have h : xtime = fun a : Byte => a <<< 1 ^^^ (if a.getLsbD 7 then 0x1D else 0) := funext fun a => by
    unfold xtime
    split <;> simp
  rw [h]
  exact .xor (fun a b => BitVec.shiftLeft_xor_distrib ..) (additive_bit 7 _)

theorem mulN_additive_left (n : Nat) (b : Byte) : Additive fun a => mulN n a b := by
  induction n generalizing b with
  | zero => exact fun _ _ => (BitVec.xor_self (x := 0#8)).symm
  | succ n ih => exact .xor (fun a c => by split <;> simp) ((ih (b >>> 1)).comp xtime_additive)

theorem mulN_additive_right (n : Nat) (a : Byte) : Additive (mulN n a) := by
  induction n generalizing a with
  | zero => exact fun _ _ => (BitVec.xor_self (x := 0#8)).symm
  | succ n ih => exact .xor (additive_bit 0 a) ((ih (xtime a)).comp fun b c => BitVec.ushiftRight_xor_distrib ..)

theorem mul_xor (a b c : Byte) : mul a (b ^^^ c) = mul a b ^^^ mul a c := mulN_additive_right 8 a b c
theorem xor_mul (a b c : Byte) : mul (a ^^^ b) c = mul a c ^^^ mul b c := mulN_additive_left 8 c a b

theorem additive_mul (a : Byte) : Additive (mul a) := mul_xor a
theorem additive_mul_right (b : Byte) : Additive fun a => mul a b := fun a c => xor_mul a c b

@[simp] theorem mul_zero (a : Byte) : mul a 0#8 = 0#8 := (additive_mul a).zero
@[simp] theorem zero_mul (b : Byte) : mul 0#8 b = 0#8 := (additive_mul_right b).zero

-- ───────────────────────── the laws of the product

@[simp] theorem one_mul (b : Byte) : mul 1#8 b = b := by
  revert b
  decide +kernel

/-- Additive maps that agree on what the product of `a` is summed from agree on the product. -/
theorem Additive.eq_mulN {f g : Byte → Byte} (hf : Additive f) (hg : Additive g) {n : Nat} {a : Byte} (h : ∀ k < n, f (xtime^[k] a) = g (xtime^[k] a))
    (b : Byte) : f (mulN n a b) = g (mulN n a b) := by
  have h0 : f 0 = g 0 := hf.zero.trans hg.zero.symm
  induction n generalizing a b with
  | zero => exact h0
  | succ n ih =>
    have hbit : f (if b.getLsbD 0 then a else 0) = g (if b.getLsbD 0 then a else 0) := by
      split
      · exact h 0 (Nat.succ_pos n)
      · exact h0
    rw [mulN, hf, hg, hbit, ih (fun k hk => h (k + 1) (Nat.succ_lt_succ hk))]

theorem alphaPow_eq_iterate (n : Nat) : alphaPow n = xtime^[n] 1 := by
  induction n with
  | zero => rfl
  | succ n ih => rw [alphaPow, ih, Function.iterate_succ_apply']

/-- Two additive maps that agree on the first eight powers of α are one map: these span the bytes. -/
theorem Additive.ext {f g : Byte → Byte} (hf : Additive f) (hg : Additive g) (h : ∀ k < 8, f (alphaPow k) = g (alphaPow k)) (b : Byte) : f b = g b := by
  rw [← one_mul b]
  exact hf.eq_mulN hg (fun k hk => alphaPow_eq_iterate k ▸ h k hk) b

theorem mul_comm (a b : Byte) : mul a b = mul b a := by
  refine Additive.ext (additive_mul_right b) (additive_mul b) (fun k hk => ?_) a
  refine Additive.ext (additive_mul (alphaPow k)) (additive_mul_right (alphaPow k)) (fun j hj => ?_) b
  revert k j
  decide +kernel

theorem mulN_xtime (n : Nat) (a b : Byte) : mulN n (xtime a) b = xtime (mulN n a b) := by
  induction n generalizing a b with
  | zero => exact xtime_additive.zero.symm
  | succ n ih =>
    rw [mulN, mulN, xtime_additive, ih]
    congr 1
    split
    · rfl
    · exact xtime_additive.zero.symm

theorem xtime_mul (a b : Byte) : mul (xtime a) b = xtime (mul a b) := mulN_xtime 8 a b

theorem mul_assoc (a b c : Byte) : mul (mul a b) c = mul a (mul b c) := by
  refine Additive.ext ((additive_mul_right c).comp (additive_mul_right b)) (additive_mul_right (mul b c)) (fun k hk => ?_) a
  clear hk
  induction k with
  | zero => exact (congrArg (mul · c) (one_mul b)).trans (one_mul _).symm
  | succ k ih => simp only [alphaPow, xtime_mul, ih]

theorem mul_left_comm (a b c : Byte) : mul a (mul b c) = mul b (mul a c) := by rw [← mul_assoc, mul_comm a b, mul_assoc]

@[simp] theorem mul_one (a : Byte) : mul a 1#8 = a := (mul_comm a 1#8).trans (one_mul a)

-- ───────────────────────── powers

theorem pow_add (a : Byte) (m n : Nat) : pow a (m + n) = mul (pow a m) (pow a n) := by
  induction m with
  | zero => simp [pow]
  | succ m ih => rw [Nat.succ_add, pow, pow, ih, mul_assoc]

theorem pow_mul (a : Byte) (m n : Nat) : pow a (m * n) = pow (pow a m) n := by
  induction n with
  | zero => rfl
  | succ n ih => rw [Nat.mul_succ, pow_add, ih, pow, mul_comm]

theorem one_pow (n : Nat) : pow 1#8 n = 1#8 := by
  induction n with
  | zero => rfl
  | succ n ih => rw [pow, ih, one_mul]

theorem alphaPow_eq_pow (n : Nat) : alphaPow n = pow 2 n := by
  induction n with
  | zero => rfl
  | succ n ih =>
    have : (2 : Byte) = xtime 1 := rfl
    rw [alphaPow, pow, ih, this, xtime_mul]
    exact congrArg xtime (one_mul _).symm

-- ───────────────────────── inverses

theorem square_additive : Additive fun a => pow a 2 := fun a b => by
  have hsq (c : Byte) : pow c 2 = mul c c := by simp [pow]
  simp only [hsq, xor_mul, mul_xor, mul_comm b a]
  rw [show ∀ x y z : Byte, (x ^^^ y) ^^^ (y ^^^ z) = (x ^^^ z) ^^^ (y ^^^ y) from fun x y z => by ac_rfl, BitVec.xor_self, BitVec.xor_zero]

theorem frobenius_additive (n : Nat) : Additive fun a => pow a (2 ^ n) := by
  induction n with
  | zero => exact fun a b => by simp [pow]
  | succ n ih => simpa only [Nat.pow_succ, pow_mul] using square_additive.comp ih

/-- Every byte is its own power 256: so are the powers of α, whose order divides 255, and raising to a power of two is additive. -/
theorem pow_256 (a : Byte) : pow a 256 = a := by
  refine Additive.ext (frobenius_additive 8) (g := id) (fun _ _ => rfl) (fun k _ => ?_) a
  have h255 : pow 2 255 = 1 := by rw [← alphaPow_eq_pow]; decide +kernel
  have h1 : pow (pow 2 255) k = 1 := by rw [h255]; exact one_pow k
  show pow (alphaPow k) 256 = alphaPow k
  rw [alphaPow_eq_pow, ← pow_mul, show k * 256 = k + 255 * k by omega, pow_add, pow_mul, h1]
  exact mul_one _

/-- The order of the field's units divides 255: the power 255 of a byte is its own square, as zero and one alone are. -/
theorem pow_255 {a : Byte} (h : a ≠ 0) : pow a 255 = 1 := by
  have hidem : ∀ e : Byte, mul e e = e → e = 0 ∨ e = 1 := by decide +kernel
  have hself : mul a (pow a 255) = a := pow_256 a
  have hsquare : mul (pow a 255) (pow a 255) = pow a 255 := by
    calc mul (pow a 255) (pow a 255) = mul (pow a 254) (pow a 256) := by rw [← pow_add, ← pow_add]
      _ = pow a 255 := by rw [pow_256, mul_comm]; rfl
  rcases hidem _ hsquare with h0 | h1
  · rw [h0] at hself
    exact absurd (hself.symm.trans (mul_zero a)) h
  · exact h1

theorem mul_inv {a : Byte} (h : a ≠ 0) : mul a (inv a) = 1 := pow_255 h

theorem mul_eq_zero {a b : Byte} (h : mul a b = 0) (hb : b ≠ 0) : a = 0 := by
  calc a = mul (mul a b) (inv b) := by rw [mul_assoc, mul_inv hb]; exact (mul_one a).symm
    _ = 0 := by rw [h]; exact zero_mul _

end Sys2Proof.Machine.Code
end

section
/-! SUPPORT. The distance of the granule code (R134, R135): a codeword's syndromes are zero, an error adds its own, and granules that differ in at most four
symbols and have the same syndromes are the same. -/

namespace Sys2Proof.Machine.Code

-- ───────────────────────── symbols and errors

@[simp] theorem length_symbols (g : Granule) : (symbols g).length = 36 := by simp [symbols]

@[simp] theorem ofSymbols_symbols (g : Granule) : ofSymbols (symbols g) = g := by
  have hc : g.check.toNat % 256 ^ 4 = g.check.toNat := Nat.mod_eq_of_lt g.check.isLt
  simp only [ofSymbols, symbols, map_extract_eq_leBytes, List.take_left' (length_granuleBytes _), List.drop_left' (length_granuleBytes _),
    bytesGranule_granuleBytes, leNat_leBytes, hc, BitVec.ofNat_toNat, BitVec.setWidth_eq]

theorem symbols_ofSymbols {l : List Byte} (h : l.length = 36) : symbols (ofSymbols l) = l := by
  have hd : (l.drop 32).length = 4 := by simp [h]
  have hl := leNat_lt (l.drop 32)
  rw [hd] at hl
  rw [symbols, ofSymbols, granuleBytes_bytesGranule (by simp [h]), map_extract_eq_leBytes, BitVec.toNat_ofNat,
    Nat.mod_eq_of_lt (by simpa using hl), ← hd, leBytes_leNat, List.take_append_drop]

/-- A list of symbols with an error put into it. -/
def struck (l : List Byte) (u : Upset) : List Byte := u.foldl (fun l e => l.modify e.1 (· ^^^ e.2)) l

@[simp] theorem length_struck (l : List Byte) (u : Upset) : (struck l u).length = l.length := by
  induction u generalizing l with
  | nil => rfl
  | cons x u ih => exact (ih _).trans (List.length_modify ..)

theorem disturb_eq (g : Granule) (u : Upset) : disturb g u = ofSymbols (struck (symbols g) u) := by
  cases u with
  | nil => exact (ofSymbols_symbols g).symm
  | cons x u => rfl

@[simp] theorem symbols_disturb (g : Granule) (u : Upset) : symbols (disturb g u) = struck (symbols g) u := by
  rw [disturb_eq, symbols_ofSymbols (by simp)]

theorem disturb_append (g : Granule) (u v : Upset) : disturb g (u ++ v) = disturb (disturb g u) v := by
  rw [disturb_eq, disturb_eq (disturb g u), symbols_disturb]
  simp [struck, List.foldl_append]

/-- What an error adds to symbol `p`. -/
def errorAt (u : Upset) (p : Nat) : Byte := u.foldr (fun x a => (if p = x.1 then x.2 else 0) ^^^ a) 0

theorem errorAt_cons (x : Nat × Byte) (u : Upset) (p : Nat) : errorAt (x :: u) p = (if p = x.1 then x.2 else 0) ^^^ errorAt u p := rfl

theorem struck_getElem? (l : List Byte) (u : Upset) (p : Nat) : (struck l u)[p]? = l[p]?.map (· ^^^ errorAt u p) := by
  induction u generalizing l with
  | nil => simp [struck, errorAt]
  | cons x u ih =>
    rw [struck, List.foldl_cons, ← struck, ih, List.getElem?_modify, errorAt_cons]
    refine (Option.map_map ..).trans (congrArg (Option.map · l[p]?) (funext fun b => ?_))
    dsimp only [Function.comp]
    by_cases h : x.1 = p
    · simp [h, BitVec.xor_assoc]
    · simp [h, Ne.symm h]

/-- An error that adds zero to every symbol changes nothing. -/
theorem disturb_eq_self {g : Granule} {u : Upset} (h : ∀ p, errorAt u p = 0) : disturb g u = g := by
  have : struck (symbols g) u = symbols g := List.ext_getElem? fun p => by simp [struck_getElem?, h]
  rw [disturb_eq, this, ofSymbols_symbols]

/-- What an error adds to symbols that it does not name. -/
theorem errorAt_of_not_mem {u : Upset} {p : Nat} (h : ∀ x ∈ u, x.1 ≠ p) : errorAt u p = 0 := by
  induction u with
  | nil => rfl
  | cons x u ih =>
    rw [errorAt_cons, if_neg (h x List.mem_cons_self).symm, ih fun y hy => h y (List.mem_cons_of_mem x hy)]
    rfl

-- ───────────────────────── syndromes of errors

/-- The element that symbol `p` weighs in the first syndrome. -/
def locator (p : Nat) : Byte := alphaPow (35 - p)

/-- A list of symbols as a polynomial at `a`, from the value so far. -/
def horner (a z : Byte) (l : List Byte) : Byte := l.foldl (fun z c => mul z a ^^^ c) z

theorem horner_xor (a z w : Byte) (l : List Byte) : horner a (z ^^^ w) l = horner a z l ^^^ mul w (pow a l.length) := by
  induction l generalizing z w with
  | nil => exact congrArg (z ^^^ ·) (mul_one w).symm
  | cons c t ih =>
    have hz : mul (z ^^^ w) a ^^^ c = (mul z a ^^^ c) ^^^ mul w a := by
      rw [xor_mul]
      ac_rfl
    calc horner a (mul (z ^^^ w) a ^^^ c) t = horner a (mul z a ^^^ c) t ^^^ mul (mul w a) (pow a t.length) := by rw [hz, ih]
      _ = _ := by rw [mul_assoc, List.length_cons, pow]; rfl

theorem horner_modify (a z e : Byte) {l : List Byte} {p : Nat} (h : p < l.length) :
    horner a z (l.modify p (· ^^^ e)) = horner a z l ^^^ mul e (pow a (l.length - 1 - p)) := by
  induction l generalizing z p with
  | nil => exact absurd h (Nat.not_lt_zero p)
  | cons c t ih =>
    cases p with
    | zero =>
      show horner a (mul z a ^^^ (c ^^^ e)) t = _
      rw [← BitVec.xor_assoc, horner_xor]
      rfl
    | succ p =>
      have hp : p < t.length := Nat.lt_of_succ_lt_succ h
      have hn : (c :: t).length - 1 - (p + 1) = t.length - 1 - p := by simp only [List.length_cons]; omega
      rw [hn]
      exact ih (mul z a ^^^ c) hp

theorem syndrome_eq_horner (g : Granule) (m : Nat) : syndrome g m = horner (alphaPow m) 0 (symbols g) := rfl

theorem pow_alphaPow (m n : Nat) : pow (alphaPow m) n = pow (alphaPow n) m := by
  rw [alphaPow_eq_pow, alphaPow_eq_pow, ← pow_mul, ← pow_mul, Nat.mul_comm]

/-- The syndromes that an error has of its own. -/
def errorSyn (u : Upset) (m : Nat) : Byte := u.foldr (fun x a => mul x.2 (pow (locator x.1) m) ^^^ a) 0

/-- An error adds its own syndromes to those of what it strikes. -/
theorem syndrome_disturb {g : Granule} {u : Upset} (hu : ∀ x ∈ u, x.1 < 36) (m : Nat) :
    syndrome (disturb g u) m = syndrome g m ^^^ errorSyn u m := by
  induction u generalizing g with
  | nil => exact (BitVec.xor_zero).symm
  | cons x u ih =>
    have hx : syndrome (disturb g [x]) m = syndrome g m ^^^ mul x.2 (pow (locator x.1) m) := by
      rw [syndrome_eq_horner, symbols_disturb]
      refine (horner_modify (alphaPow m) 0 x.2 (by simpa using hu x List.mem_cons_self)).trans ?_
      rw [length_symbols, pow_alphaPow]
      rfl
    have hd : disturb g (x :: u) = disturb (disturb g [x]) u := disturb_append g [x] u
    rw [hd, ih fun y hy => hu y (List.mem_cons_of_mem x hy), hx, BitVec.xor_assoc]
    rfl

-- ───────────────────────── syndromes of codewords

/-- A root of the generator polynomial g(x) of R134. -/
def Root (a : Byte) : Prop := mul a (mul a (mul a a)) = mul 0x0F (mul a (mul a a)) ^^^ mul 0x36 (mul a a) ^^^ mul 0x78 a ^^^ 0x40

theorem root_alphaPow {m : Nat} (h : m < 4) : Root (alphaPow m) := by
  revert m
  unfold Root
  decide +kernel

/-- The remainder's four symbols, highest power first. -/
def remList (r : Byte × Byte × Byte × Byte) : List Byte := [r.1, r.2.1, r.2.2.1, r.2.2.2]

/-- One step of the division by g(x), read at a root of g. -/
theorem horner_remStep {a z : Byte} (ha : Root a) {r : Byte × Byte × Byte × Byte} (hr : horner a 0 (remList r) = mul z (pow a 4)) (d : Byte) :
    horner a 0 (remList (remStep r d)) = mul (mul z a ^^^ d) (pow a 4) := by
  obtain ⟨x, y, v, w⟩ := r
  have hp : pow a 4 = mul a (mul a (mul a a)) := by simp [pow]
  have hpoly (x y v w : Byte) : horner a 0 [x, y, v, w] = mul x (mul a (mul a a)) ^^^ mul y (mul a a) ^^^ mul v a ^^^ w := by
    simp [horner, xor_mul, mul_assoc]
  simp only [remList, hpoly, hp] at hr
  calc horner a 0 (remList (remStep (x, y, v, w) d))
    _ = (mul y (mul a (mul a a)) ^^^ mul v (mul a a) ^^^ mul w a) ^^^
          mul (d ^^^ x) (mul 0x0F (mul a (mul a a)) ^^^ mul 0x36 (mul a a) ^^^ mul 0x78 a ^^^ 0x40) := by
      simp only [remStep, remList, hpoly, xor_mul, mul_xor, mul_assoc]
      ac_rfl
    _ = mul (mul x (mul a (mul a a)) ^^^ mul y (mul a a) ^^^ mul v a ^^^ w) a ^^^ mul d (mul a (mul a (mul a a))) := by
      rw [← ha]
      simp only [xor_mul, mul_assoc]
      ac_rfl
    _ = mul (mul z a ^^^ d) (pow a 4) := by
      rw [hr, xor_mul, hp]
      simp only [mul_left_comm, mul_comm]

/-- The remainder of the division takes the value of x^4 times what is divided. -/
theorem horner_rem {a z : Byte} (ha : Root a) {r : Byte × Byte × Byte × Byte} (hr : horner a 0 (remList r) = mul z (pow a 4)) (l : List Byte) :
    horner a 0 (remList (l.foldl remStep r)) = mul (horner a z l) (pow a 4) := by
  induction l generalizing z r with
  | nil => exact hr
  | cons d t ih => exact ih (horner_remStep ha hr d)

/-- The four symbols of a check word. -/
def checkBytes (c : BitVec 32) : List Byte := (List.range 4).map fun j => c.extractLsb' (8 * j) 8

theorem checkBytes_checkOf (data : BitVec 256) :
    checkBytes (checkOf data) = remList ((granuleBytes data).foldl remStep (0, 0, 0, 0)) := by
  have h (l : List Byte) (hl : l.length = 4) : checkBytes (BitVec.ofNat 32 (leNat l)) = l := by
    have := leNat_lt l
    rw [hl] at this
    rw [checkBytes, map_extract_eq_leBytes, BitVec.toNat_ofNat, Nat.mod_eq_of_lt (by simpa using this), ← hl, leBytes_leNat]
  unfold checkOf
  split
  · next h0 => rw [h0]; decide +kernel
  · exact h _ rfl

theorem checkBytes_xor (c k : BitVec 32) : checkBytes (c ^^^ k) = (checkBytes c).zipWith (· ^^^ ·) (checkBytes k) := by
  simp [checkBytes, List.range_succ, List.zipWith, BitVec.extractLsb'_xor]

theorem horner_zipWith (a z w : Byte) {l k : List Byte} (h : l.length = k.length) :
    horner a (z ^^^ w) (l.zipWith (· ^^^ ·) k) = horner a z l ^^^ horner a w k := by
  induction l generalizing z w k with
  | nil => rw [List.length_eq_zero_iff.mp h.symm]; rfl
  | cons c t ih =>
    obtain _ | ⟨d, u⟩ := k
    · simp at h
    · have hz : mul (z ^^^ w) a ^^^ (c ^^^ d) = (mul z a ^^^ c) ^^^ (mul w a ^^^ d) := by
        rw [xor_mul]
        ac_rfl
      show horner a (mul (z ^^^ w) a ^^^ (c ^^^ d)) (t.zipWith (· ^^^ ·) u) = _
      rw [hz]
      exact ih _ _ (Nat.succ.inj h)

theorem syndrome_eq (g : Granule) (m : Nat) :
    syndrome g m = mul (horner (alphaPow m) 0 (granuleBytes g.data)) (pow (alphaPow m) 4) ^^^ horner (alphaPow m) 0 (checkBytes g.check) := by
  have happ : syndrome g m = horner (alphaPow m) (0 ^^^ horner (alphaPow m) 0 (granuleBytes g.data)) (checkBytes g.check) := by
    rw [show (0 : Byte) ^^^ horner (alphaPow m) 0 (granuleBytes g.data) = _ from BitVec.zero_xor]
    exact List.foldl_append
  rw [happ, horner_xor, BitVec.xor_comm]
  rfl

/-- R134: a word that is `k` off a codeword has the syndromes of `k`. -/
theorem syndrome_codeword (data : BitVec 256) (k : BitVec 32) {m : Nat} (hm : m < 4) :
    syndrome ⟨data, checkOf data ^^^ k⟩ m = syndrome ⟨0, k⟩ m := by
  have hrem : horner (alphaPow m) 0 (checkBytes (checkOf data)) = mul (horner (alphaPow m) 0 (granuleBytes data)) (pow (alphaPow m) 4) := by
    rw [checkBytes_checkOf]
    exact horner_rem (root_alphaPow hm) (by simp [remList, horner]) _
  have hzero : horner (alphaPow m) 0 (granuleBytes 0) = 0 := by
    have (n : Nat) : horner (alphaPow m) 0 (List.replicate n 0) = 0 := by
      induction n with
      | zero => rfl
      | succ n ih => simpa [horner, List.replicate_succ] using ih
    exact this 32
  have hx : horner (alphaPow m) 0 (checkBytes (checkOf data ^^^ k)) =
      horner (alphaPow m) 0 (checkBytes (checkOf data)) ^^^ horner (alphaPow m) 0 (checkBytes k) := by
    rw [checkBytes_xor]
    exact horner_zipWith (alphaPow m) 0 0 rfl
  rw [syndrome_eq, syndrome_eq, hx, ← hrem, hzero, ← BitVec.xor_assoc, BitVec.xor_self]
  exact congrArg (· ^^^ _) (zero_mul _).symm

-- ───────────────────────── the distance

theorem locator_injective {p q : Nat} (hp : p < 36) (hq : q < 36) (h : locator p = locator q) : p = q := by
  have hnodup : ((List.range 36).map locator).Nodup := by decide +kernel
  exact List.inj_on_of_nodup_map hnodup (List.mem_range.mpr hp) (List.mem_range.mpr hq) h

/-- Syndrome `m` of what an error `e` adds to the symbols `P`. -/
def sumAt (e : Nat → Byte) (m : Nat) (P : List Nat) : Byte := P.foldr (fun p a => mul (e p) (pow (locator p) m) ^^^ a) 0

theorem sumAt_xor (e f : Nat → Byte) (m : Nat) (P : List Nat) : sumAt (fun p => e p ^^^ f p) m P = sumAt e m P ^^^ sumAt f m P := by
  induction P with
  | nil => exact (BitVec.xor_self (x := 0#8)).symm
  | cons p P ih =>
    show mul (e p ^^^ f p) _ ^^^ sumAt _ m P = (mul (e p) _ ^^^ sumAt e m P) ^^^ (mul (f p) _ ^^^ sumAt f m P)
    rw [ih, xor_mul]
    ac_rfl

theorem sumAt_single {x : Nat × Byte} {P : List Nat} (m : Nat) (hP : P.Nodup) :
    sumAt (fun p => if p = x.1 then x.2 else 0) m P = if x.1 ∈ P then mul x.2 (pow (locator x.1) m) else 0 := by
  induction P with
  | nil => rfl
  | cons p P ih =>
    obtain ⟨hp, hP⟩ := List.nodup_cons.mp hP
    show mul (if p = x.1 then x.2 else 0) _ ^^^ sumAt _ m P = _
    rw [ih hP]
    by_cases h : p = x.1
    · subst h; simp [hp]
    · simp [h, Ne.symm h]

theorem sumAt_eq_zero {e : Nat → Byte} {P : List Nat} (h : ∀ p ∈ P, e p = 0) (m : Nat) : sumAt e m P = 0 := by
  induction P with
  | nil => rfl
  | cons p P ih =>
    obtain ⟨hp, hP⟩ := List.forall_mem_cons.mp h
    show mul (e p) _ ^^^ sumAt e m P = 0
    simp [hp, ih hP]

/-- Weighing each symbol by its distance from `a` combines two syndromes that follow one another. -/
theorem sumAt_mul (e : Nat → Byte) (a : Byte) (m : Nat) (P : List Nat) :
    sumAt (fun p => mul (e p) (a ^^^ locator p)) m P = mul a (sumAt e m P) ^^^ sumAt e (m + 1) P := by
  induction P with
  | nil => simp [sumAt]
  | cons p P ih =>
    show mul (mul (e p) (a ^^^ locator p)) (pow (locator p) m) ^^^ sumAt _ m P =
      mul a (mul (e p) (pow (locator p) m) ^^^ sumAt e m P) ^^^ (mul (e p) (mul (locator p) (pow (locator p) m)) ^^^ sumAt e (m + 1) P)
    rw [ih]
    simp only [xor_mul, mul_xor, mul_assoc, mul_left_comm a]
    ac_rfl

theorem errorSyn_eq_sumAt {u : Upset} {P : List Nat} (m : Nat) (hP : P.Nodup) (hu : ∀ x ∈ u, x.1 ∈ P) : errorSyn u m = sumAt (errorAt u) m P := by
  induction u with
  | nil =>
    exact (sumAt_eq_zero (fun _ _ => rfl) m).symm
  | cons x u ih =>
    have hx := sumAt_single (x := x) m hP
    rw [if_pos (hu x List.mem_cons_self)] at hx
    calc errorSyn (x :: u) m = mul x.2 (pow (locator x.1) m) ^^^ sumAt (errorAt u) m P :=
          congrArg _ (ih fun y hy => hu y (List.mem_cons_of_mem x hy))
      _ = sumAt (errorAt (x :: u)) m P := by rw [← hx]; exact (sumAt_xor _ _ m P).symm

/-- An error in as many different symbols as there are syndromes, all of them zero, is none (the columns of the check matrix are those of a Vandermonde
matrix): eliminating one symbol leaves an error in the others with one syndrome less. -/
theorem eq_zero_of_sumAt {P : List Nat} (hP : P.Nodup) (h36 : ∀ p ∈ P, p < 36) {e : Nat → Byte} (h : ∀ m < P.length, sumAt e m P = 0) :
    ∀ p ∈ P, e p = 0 := by
  induction P generalizing e with
  | nil => exact fun p hp => absurd hp List.not_mem_nil
  | cons q P ih =>
    obtain ⟨hq, hP⟩ := List.nodup_cons.mp hP
    let f := fun p => mul (e p) (locator q ^^^ locator p)
    have hf (m : Nat) (hm : m < P.length) : sumAt f m P = 0 := by
      have hq0 : f q = 0 := by simp [f]
      have hdrop : sumAt f m (q :: P) = sumAt f m P := by
        show mul (f q) _ ^^^ sumAt f m P = _
        simp [hq0]
      rw [← hdrop, sumAt_mul, h m (Nat.lt_succ_of_lt hm), h (m + 1) (Nat.succ_lt_succ hm)]
      simp
    have hrest : ∀ p ∈ P, e p = 0 := fun p hp => by
      refine mul_eq_zero (ih hP (fun p hp => h36 p (List.mem_cons_of_mem q hp)) hf p hp) fun hl => hq ?_
      exact locator_injective (h36 q List.mem_cons_self) (h36 p (List.mem_cons_of_mem q hp)) (BitVec.xor_eq_zero_iff.mp hl) ▸ hp
    have hqz : e q = 0 := by
      have h0 : mul (e q) (pow (locator q) 0) ^^^ sumAt e 0 P = 0 := h 0 (Nat.succ_pos _)
      simpa [sumAt_eq_zero hrest, pow] using h0
    exact List.forall_mem_cons.mpr ⟨hqz, hrest⟩

/-- R135: granules that differ in at most four symbols and have the same syndromes are the same. -/
theorem disturb_eq_self_of_syndrome {g : Granule} {u : Upset} (hu : ∀ x ∈ u, x.1 < 36) (hl : u.length ≤ 4)
    (h : ∀ m < 4, syndrome (disturb g u) m = syndrome g m) : disturb g u = g := by
  let P := (u.map Prod.fst).dedup
  have hsub : ∀ x ∈ u, x.1 ∈ P := fun x hx => List.mem_dedup.mpr (List.mem_map_of_mem hx)
  have hlen : P.length ≤ 4 := (List.dedup_sublist _).length_le.trans (by simpa using hl)
  have h36 : ∀ p ∈ P, p < 36 := fun p hp => by
    obtain ⟨x, hx, rfl⟩ := List.mem_map.mp (List.mem_dedup.mp hp)
    exact hu x hx
  have hz : ∀ p ∈ P, errorAt u p = 0 := eq_zero_of_sumAt (List.nodup_dedup _) h36 fun m hm => by
    have := h m (hm.trans_le hlen)
    rw [syndrome_disturb hu, errorSyn_eq_sumAt m (List.nodup_dedup _) hsub] at this
    exact (BitVec.xor_right_inj (syndrome g m)).mp (this.trans BitVec.xor_zero.symm)
  refine disturb_eq_self fun p => ?_
  by_cases hp : p ∈ P
  · exact hz p hp
  · exact errorAt_of_not_mem fun x hx hxp => hp (hxp ▸ hsub x hx)

end Sys2Proof.Machine.Code
end

section
/-! SUPPORT. The decoder of the granule code (R135, R136): what it finds explains the syndromes, it finds an error in one symbol, and it mistakes none for the
poison marker. -/

namespace Sys2Proof.Machine.Code

-- ───────────────────────── codewords

theorem syndrome_clean (data : BitVec 256) {m : Nat} (hm : m < 4) : syndrome (clean data) m = 0 := by
  have h : clean data = ⟨data, checkOf data ^^^ 0⟩ := congrArg (Granule.mk data) BitVec.xor_zero.symm
  rw [h, syndrome_codeword data 0 hm]
  revert m
  decide +kernel

theorem syndrome_poisoned (data : BitVec 256) {m : Nat} (hm : m < 4) : syndrome (poisoned data) m = markerSyn m := syndrome_codeword data marker hm

theorem eq_of_residue {g : Granule} {k : BitVec 32} (h : residue g = k) : g = ⟨g.data, checkOf g.data ^^^ k⟩ := by
  rw [← h, residue, ← BitVec.xor_assoc, BitVec.xor_self, BitVec.zero_xor]

theorem syndrome_of_residue_zero {g : Granule} (h : residue g = 0) {m : Nat} (hm : m < 4) : syndrome g m = 0 := by
  rw [eq_of_residue h]
  exact (syndrome_codeword g.data 0 hm).trans (by revert m; decide +kernel)

theorem syndrome_of_residue_marker {g : Granule} (h : residue g = marker) {m : Nat} (hm : m < 4) : syndrome g m = markerSyn m := by
  rw [eq_of_residue h]
  exact syndrome_codeword g.data marker hm

@[simp] theorem residue_clean (data : BitVec 256) : residue (clean data) = 0 := BitVec.xor_self

@[simp] theorem residue_poisoned (data : BitVec 256) : residue (poisoned data) = marker := by
  rw [residue, poisoned, ← BitVec.xor_assoc, BitVec.xor_self, BitVec.zero_xor]

-- ───────────────────────── errors in one and in two symbols

/-- The error `u` has the syndromes `s`, and its symbols exist. -/
def Explains (u : Upset) (s : Nat → Byte) : Prop := (∀ x ∈ u, x.1 < 36) ∧ ∀ m < 4, errorSyn u m = s m

theorem errorSyn_one (x : Nat × Byte) (m : Nat) : errorSyn [x] m = mul x.2 (pow (locator x.1) m) := BitVec.xor_zero

theorem errorSyn_append (u v : Upset) (m : Nat) : errorSyn (u ++ v) m = errorSyn u m ^^^ errorSyn v m := by
  induction u with
  | nil => exact BitVec.zero_xor.symm
  | cons x u ih =>
    show mul x.2 _ ^^^ errorSyn (u ++ v) m = (mul x.2 _ ^^^ errorSyn u m) ^^^ errorSyn v m
    rw [ih, BitVec.xor_assoc]

/-- The four tests of `single` say that the error in one symbol has the syndromes. -/
theorem explains_one_iff {p : Nat} {e : Byte} {s : Nat → Byte} (hp : p < 36) :
    Explains [(p, e)] s ↔ e = s 0 ∧ mul (s 0) (locator p) = s 1 ∧ mul (s 1) (locator p) = s 2 ∧ mul (s 2) (locator p) = s 3 := by
  have hall : Explains [(p, e)] s ↔ ∀ m < 4, mul e (pow (locator p) m) = s m := by simp [Explains, errorSyn_one, hp]
  have hmul (m : Nat) : mul e (pow (locator p) (m + 1)) = mul (mul e (pow (locator p) m)) (locator p) := by
    rw [pow, mul_assoc, mul_comm (locator p)]
  rw [hall]
  constructor
  · intro h
    have h0 : e = s 0 := (mul_one e).symm.trans (h 0 (by decide))
    have hs (m : Nat) (hm : m + 1 < 4) : mul (s m) (locator p) = s (m + 1) := by rw [← h m (Nat.lt_of_succ_lt hm), ← hmul, h (m + 1) hm]
    exact ⟨h0, hs 0 (by decide), hs 1 (by decide), hs 2 (by decide)⟩
  · rintro ⟨h0, h1, h2, h3⟩
    have e0 : mul e (pow (locator p) 0) = s 0 := (mul_one e).trans h0
    have e1 : mul e (pow (locator p) 1) = s 1 := by rw [hmul, e0, h1]
    have e2 : mul e (pow (locator p) 2) = s 2 := by rw [hmul, e1, h2]
    have e3 : mul e (pow (locator p) 3) = s 3 := by rw [hmul, e2, h3]
    intro m hm
    interval_cases m <;> assumption

theorem single_some {s : Nat → Byte} {n : Nat} {x : Nat × Byte} (hn : n ≤ 36) (h : single (s 0) (s 1) (s 2) (s 3) n = some x) : Explains [x] s := by
  induction n with
  | zero => cases h
  | succ n ih =>
    unfold single at h
    dsimp only at h
    split at h
    · next hc => cases h; exact (explains_one_iff hn).mpr ⟨rfl, hc.2⟩
    · exact ih (Nat.le_of_succ_le hn) h

theorem single_of_explains {s : Nat → Byte} {n p : Nat} {e : Byte} (hp : p < n) (hn : n ≤ 36) (he : e ≠ 0) (h : Explains [(p, e)] s) :
    single (s 0) (s 1) (s 2) (s 3) n ≠ none := by
  induction n with
  | zero => exact absurd hp (Nat.not_lt_zero p)
  | succ n ih =>
    unfold single
    dsimp only
    split
    · exact Option.some_ne_none _
    · next hc =>
      rcases Nat.lt_succ_iff_lt_or_eq.mp hp with hp | rfl
      · exact ih hp (Nat.le_of_succ_le hn)
      · obtain ⟨h0, h⟩ := (explains_one_iff hn).mp h
        exact absurd ⟨h0 ▸ he, h⟩ hc

/-- The second symbol value that `pairAt` tries gives the second syndrome. -/
theorem pair_solves {a b : Byte} (hab : a ^^^ b ≠ 0) (x y : Byte) :
    mul (x ^^^ mul (y ^^^ mul a x) (inv (a ^^^ b))) a ^^^ mul (mul (y ^^^ mul a x) (inv (a ^^^ b))) b = y := by
  have hf : mul (mul (y ^^^ mul a x) (inv (a ^^^ b))) (a ^^^ b) = y ^^^ mul a x := by
    rw [mul_assoc, mul_comm (inv _), mul_inv hab]
    exact mul_one _
  rw [xor_mul, BitVec.xor_assoc, ← mul_xor, hf, mul_comm x, BitVec.xor_comm, BitVec.xor_assoc, BitVec.xor_self, BitVec.xor_zero]

theorem pairAt_some {s : Nat → Byte} {i j : Nat} {u : Upset} (hij : i < j) (hj : j < 36) (h : pairAt (s 0) (s 1) (s 2) (s 3) i j = some u) :
    u.length = 2 ∧ Explains u s := by
  have hab : locator i ^^^ locator j ≠ 0 := fun hz => Nat.ne_of_lt hij (locator_injective (hij.trans hj) hj (BitVec.xor_eq_zero_iff.mp hz))
  unfold pairAt at h
  extract_lets a b f e at h
  split at h
  · next hc =>
    obtain ⟨-, -, h2, h3⟩ := hc
    cases h
    have h0 : e ^^^ f = s 0 := by rw [BitVec.xor_assoc, BitVec.xor_self, BitVec.xor_zero]
    have h1 : mul e a ^^^ mul f b = s 1 := pair_solves hab (s 0) (s 1)
    refine ⟨rfl, by simp [hij.trans hj, hj], fun m hm => ?_⟩
    show mul e (pow a m) ^^^ (mul f (pow b m) ^^^ 0#8) = s m
    interval_cases m <;> simpa [pow]
  · cases h

theorem double_some {s : Nat → Byte} {u : Upset} (h : double (s 0) (s 1) (s 2) (s 3) = some u) : u.length = 2 ∧ Explains u s := by
  obtain ⟨j, hj, h⟩ := List.exists_of_findSome?_eq_some h
  obtain ⟨i, hi, h⟩ := List.exists_of_findSome?_eq_some h
  exact pairAt_some (List.mem_range.mp hi) (List.mem_range.mp hj) h

-- ───────────────────────── the decoder

/-- The syndromes of a granule less those of the poison marker. -/
def unmarked (g : Granule) (m : Nat) : Byte := syndrome g m ^^^ markerSyn m

theorem decode_clean {g : Granule} {d : BitVec 256} {u : Upset} (h : decode g = .clean d u) :
    d = (disturb g u).data ∧ u.length ≤ 2 ∧ Explains u (syndrome g) ∧
      (u = [] ∨ single (unmarked g 0) (unmarked g 1) (unmarked g 2) (unmarked g 3) 36 = none) := by
  unfold decode at h
  extract_lets r s at h
  split at h
  · next hr =>
    cases h
    exact ⟨rfl, Nat.zero_le _, ⟨by simp, fun m hm => (syndrome_of_residue_zero hr hm).symm⟩, .inl rfl⟩
  split at h
  · cases h
  split at h
  · cases h
  · next hu =>
    split at h
    · next hs =>
      cases h
      exact ⟨rfl, Nat.le_succ 1, single_some le_rfl hs, .inr hu⟩
    · split at h
      · next hd =>
        cases h
        obtain ⟨hl, he⟩ := double_some hd
        exact ⟨rfl, hl.le, he, .inr hu⟩
      · cases h

theorem decode_poisoned {g : Granule} {d : BitVec 256} {u : Upset} (h : decode g = .poisoned d u) :
    d = (disturb g u).data ∧ u.length ≤ 1 ∧ Explains u (unmarked g) := by
  unfold decode at h
  extract_lets r s at h
  split at h
  · cases h
  split at h
  · next hr =>
    cases h
    refine ⟨rfl, Nat.zero_le _, by simp, fun m hm => ?_⟩
    rw [unmarked, syndrome_of_residue_marker hr hm, BitVec.xor_self]
    rfl
  split at h
  · next hs =>
    cases h
    exact ⟨rfl, le_rfl, single_some le_rfl hs⟩
  · repeat' split at h
    all_goals cases h

theorem decode_uncorrectable {g : Granule} (h : decode g = .uncorrectable) :
    single (unmarked g 0) (unmarked g 1) (unmarked g 2) (unmarked g 3) 36 = none ∧
      single (syndrome g 0) (syndrome g 1) (syndrome g 2) (syndrome g 3) 36 = none := by
  unfold decode at h
  extract_lets r s at h
  split at h
  · cases h
  split at h
  · cases h
  split at h
  · cases h
  · next hu =>
    split at h
    · cases h
    · next hs => exact ⟨hu, hs⟩

/-- R135: an error that explains the difference of the syndromes of a granule and of what was struck undoes the strike, if they are in four symbols at most. -/
theorem disturb_undone {c : Granule} {u v : Upset} {s : Nat → Byte} (hu : ∀ x ∈ u, x.1 < 36) (hl : u.length + v.length ≤ 4)
    (hs : ∀ m < 4, s m = syndrome (disturb c u) m ^^^ syndrome c m) (hv : Explains v s) : disturb (disturb c u) v = c := by
  obtain ⟨hv, he⟩ := hv
  rw [← disturb_append]
  have huv : ∀ x ∈ u ++ v, x.1 < 36 := fun x hx => (List.mem_append.mp hx).elim (hu x) (hv x)
  refine disturb_eq_self_of_syndrome huv (by simpa using hl) fun m hm => ?_
  rw [disturb_append, syndrome_disturb hv, he m hm, hs m hm, ← BitVec.xor_assoc, BitVec.xor_self, BitVec.zero_xor]

/-- The data that the decoder finds clean in a struck codeword is the codeword's. -/
theorem clean_data_of_decode {data : BitVec 256} {u : Upset} (hu : ∀ x ∈ u, x.1 < 36) (hl : u.length ≤ 2) {d : BitVec 256} {v : Upset}
    (h : decode (disturb (clean data) u) = .clean d v) : d = data := by
  obtain ⟨hd, hv, he, -⟩ := decode_clean h
  have := disturb_undone hu (by omega) (fun m hm => by rw [syndrome_clean data hm]; exact BitVec.xor_zero.symm) he
  rw [hd, this]
  rfl

/-- Settles O23: what the decoder finds clean is the data, by the code's distance of five; everything else it hands on as poisoned. -/
theorem doubleSymbolErrorsNeverPassAsCleanData : Obligations.DoubleSymbolErrorsNeverPassAsCleanData := by
  intro data i j e f hij hj _ _ v
  have hu : ∀ x ∈ [(i, e), (j, f)], x.1 < 36 := by simp [hij.trans hj, hj]
  show value (disturb (clean data) [(i, e), (j, f)]) = (data, false) ∨ (value (disturb (clean data) [(i, e), (j, f)])).2 = true
  unfold value
  split
  · next h => exact .inl (by rw [clean_data_of_decode hu le_rfl h])
  · exact .inr rfl
  · exact .inr rfl

end Sys2Proof.Machine.Code
end

section
/-! SUPPORT. Errors in one symbol (R135, R136) and the check burst (R133). -/

namespace Sys2Proof.Machine.Code

-- ───────────────────────── the poison marker

theorem eliminate (e f a b x y : Byte) :
    (mul e (mul a x) ^^^ mul f (mul b y)) ^^^ mul a (mul e x ^^^ mul f y) = mul f (mul (b ^^^ a) y) := by
  have hxor (u v w : Byte) : (u ^^^ v) ^^^ (u ^^^ w) = v ^^^ w := by
    rw [show (u ^^^ v) ^^^ (u ^^^ w) = (u ^^^ u) ^^^ (v ^^^ w) by ac_rfl, BitVec.xor_self, BitVec.zero_xor]
  rw [mul_xor, mul_left_comm a e, hxor, mul_left_comm a f, ← mul_xor, ← xor_mul]

/-- What an error in one or two symbols leaves when symbol `p` is eliminated is a geometric row: its middle term squared is the product of the others. -/
theorem errorSyn_geometric {u : Upset} (hu : u ≠ []) (hl : u.length ≤ 2) (h36 : ∀ x ∈ u, x.1 < 36) :
    ∃ p < 36, let rest := fun m => errorSyn u (m + 1) ^^^ mul (locator p) (errorSyn u m)
      mul (rest 1) (rest 1) = mul (rest 2) (rest 0) := by
  match u with
  | [(p, e)] =>
    have hrest (m : Nat) : errorSyn [(p, e)] (m + 1) ^^^ mul (locator p) (errorSyn [(p, e)] m) = 0 := by
      rw [errorSyn_one, errorSyn_one, pow, mul_left_comm, BitVec.xor_self]
      rfl
    exact ⟨p, h36 (p, e) List.mem_cons_self, by simp only [hrest]⟩
  | [(p, e), (q, f)] =>
    have hrest (m : Nat) : errorSyn [(p, e), (q, f)] (m + 1) ^^^ mul (locator p) (errorSyn [(p, e), (q, f)] m) =
        mul f (mul (locator q ^^^ locator p) (pow (locator q) m)) := by
      have hsyn (n : Nat) : errorSyn [(p, e), (q, f)] n = mul e (pow (locator p) n) ^^^ mul f (pow (locator q) n) :=
        congrArg (mul e (pow (locator p) n) ^^^ ·) (errorSyn_one (q, f) n)
      rw [hsyn, hsyn]
      exact eliminate ..
    refine ⟨p, h36 (p, e) List.mem_cons_self, ?_⟩
    simp only [hrest, pow, mul_assoc, mul_left_comm (locator q)]
  | _ :: _ :: _ :: _ => simp at hl

/-- R136: the marker is no error in one or two symbols: its syndromes leave no such row. -/
theorem marker_not_explained {u : Upset} (hu : u ≠ []) (hl : u.length ≤ 2) : ¬ Explains u markerSyn := by
  rintro ⟨h36, he⟩
  have hmark : ∀ p < 36, let rest := fun m => markerSyn (m + 1) ^^^ mul (locator p) (markerSyn m)
      mul (rest 1) (rest 1) ≠ mul (rest 2) (rest 0) := by decide +kernel
  obtain ⟨p, hp, hrow⟩ := errorSyn_geometric hu hl h36
  refine hmark p hp ?_
  simpa only [he 0 (by decide), he 1 (by decide), he 2 (by decide), he 3 (by decide)] using hrow

-- ───────────────────────── granules that are formed, and errors in one symbol of them

theorem value_form (data : BitVec 256) (poison : Bool) : value (form data poison) = (data, poison) := by
  cases poison
  · simp [value, decode, form, clean, residue]
  · have hr : residue (poisoned data) = marker := residue_poisoned data
    simp [value, decode, form, hr]
    rfl

theorem value_clean_struck {data : BitVec 256} {p : Nat} {e : Byte} (hp : p < 36) (he : e ≠ 0) :
    value (disturb (clean data) [(p, e)]) = (data, false) := by
  have hu : ∀ x ∈ [(p, e)], x.1 < 36 := by simpa using hp
  have hs (m : Nat) (hm : m < 4) : syndrome (disturb (clean data) [(p, e)]) m = errorSyn [(p, e)] m := by
    rw [syndrome_disturb hu, syndrome_clean data hm]
    exact BitVec.zero_xor
  unfold value
  split
  · next h => rw [clean_data_of_decode hu (Nat.le_succ 1) h]
  · next v h =>
    obtain ⟨-, hl, hv, hev⟩ := decode_poisoned h
    refine absurd ?_ (marker_not_explained (u := (p, e) :: v) (List.cons_ne_nil _ _) (Nat.succ_le_succ hl))
    refine ⟨List.forall_mem_cons.mpr ⟨hp, hv⟩, fun m hm => ?_⟩
    rw [show (p, e) :: v = [(p, e)] ++ v from rfl, errorSyn_append, hev m hm, unmarked, hs m hm, ← BitVec.xor_assoc, BitVec.xor_self,
      BitVec.zero_xor]
  · next h => exact absurd (decode_uncorrectable h).2 (single_of_explains hp le_rfl he ⟨hu, fun m hm => (hs m hm).symm⟩)

theorem value_poisoned_struck {data : BitVec 256} {p : Nat} {e : Byte} (hp : p < 36) (he : e ≠ 0) :
    value (disturb (poisoned data) [(p, e)]) = (data, true) := by
  have hu : ∀ x ∈ [(p, e)], x.1 < 36 := by simpa using hp
  have hs (m : Nat) (hm : m < 4) : syndrome (disturb (poisoned data) [(p, e)]) m = markerSyn m ^^^ errorSyn [(p, e)] m := by
    rw [syndrome_disturb hu, syndrome_poisoned data hm]
  have hfound := single_of_explains (s := unmarked (disturb (poisoned data) [(p, e)])) hp le_rfl he ⟨hu, fun m hm => by
    rw [unmarked, hs m hm, BitVec.xor_comm, ← BitVec.xor_assoc, BitVec.xor_self, BitVec.zero_xor]⟩
  unfold value
  split
  · next h =>
    obtain ⟨-, -, ⟨-, h0⟩, rfl | hnone⟩ := decode_clean h
    · refine absurd ⟨hu, fun m hm => ?_⟩ (marker_not_explained (List.cons_ne_nil (p, e) []) (Nat.le_succ 1))
      exact (BitVec.xor_eq_zero_iff.mp ((hs m hm).symm.trans (h0 m hm).symm)).symm
    · exact absurd hnone hfound
  · next h =>
    obtain ⟨rfl, hl, hv⟩ := decode_poisoned h
    have := disturb_undone (c := poisoned data) (s := unmarked (disturb (poisoned data) [(p, e)])) hu (Nat.le_trans (Nat.add_le_add_left hl 1) (Nat.le_add_right 2 2))
      (fun m hm => by rw [unmarked, syndrome_poisoned data hm]) hv
    rw [this]
    rfl
  · next h => exact absurd (decode_uncorrectable h).1 hfound

-- ───────────────────────── the check burst

/-- A piece of a list that is put together from pieces of one length. -/
theorem take_drop_flatMap {α β : Type} {n : Nat} {f : α → List β} (hf : ∀ x, (f x).length = n) {l : List α} {c : Nat} {x : α}
    (h : l[c]? = some x) (rest : List β) : ((l.flatMap f ++ rest).drop (n * c)).take n = f x := by
  induction l generalizing c with
  | nil => simp at h
  | cons y t ih =>
    rw [List.flatMap_cons, List.append_assoc]
    cases c with
    | zero =>
      obtain rfl : y = x := by simpa using h
      exact List.take_left' (hf y)
    | succ c =>
      rw [Nat.mul_succ, Nat.add_comm, ← List.drop_drop, List.drop_left' (hf y)]
      exact ih (by simpa using h)

/-- The check symbols that a channel puts into the burst, zero where it transfers no granule. -/
def channelSymbols (g : Option Granule) : List Byte := ((g.map symbols).getD (List.replicate 36 0)).drop 32

theorem length_channelSymbols (g : Option Granule) : (channelSymbols g).length = 4 := by cases g <;> simp [channelSymbols]

theorem checkBurst_eq (gs : List (Option Granule)) (k : BitVec 16) :
    checkBurst gs k = gs.flatMap channelSymbols ++ (gs.map (fun g => if g.isSome then 0xFF else 0) ++ [k.extractLsb' 0 8, k.extractLsb' 8 8]) :=
  List.append_assoc ..

theorem length_flatMap_channelSymbols (gs : List (Option Granule)) : (gs.flatMap channelSymbols).length = 4 * gs.length := by
  simp [List.length_flatMap, length_channelSymbols, Nat.mul_comm]

theorem burstSymbols_checkBurst {gs : List (Option Granule)} {k : BitVec 16} {c : Nat} {g : Granule} (h : gs[c]? = some (some g)) :
    burstSymbols (checkBurst gs k) c = (symbols g).drop 32 := by
  rw [checkBurst_eq]
  exact take_drop_flatMap length_channelSymbols h _

theorem burstValid_checkBurst {gs : List (Option Granule)} {k : BitVec 16} {c : Nat} {x : Option Granule} (hl : gs.length = 6) (h : gs[c]? = some x) :
    burstValid (checkBurst gs k) c = x.isSome := by
  have hlen : (gs.flatMap channelSymbols).length = 24 := by rw [length_flatMap_channelSymbols, hl]
  have hc : c < gs.length := (List.getElem?_eq_some_iff.mp h).1
  have hbyte : (checkBurst gs k).getD (24 + c) 0 = if x.isSome then 0xFF else 0 := by
    rw [checkBurst_eq, List.getD_eq_getElem?_getD, List.getElem?_append_right (by omega), hlen, Nat.add_sub_cancel_left,
      List.getElem?_append_left (by simpa using hc), List.getElem?_map, h]
    rfl
  rw [burstValid, hbyte]
  cases x.isSome <;> decide

theorem burstCounter_checkBurst {gs : List (Option Granule)} {k : BitVec 16} (hl : gs.length = 6) : burstCounter (checkBurst gs k) = k := by
  have hlen : (gs.flatMap channelSymbols ++ gs.map (fun g => if g.isSome then (0xFF : Byte) else 0)).length = 30 := by
    rw [List.length_append, length_flatMap_channelSymbols, List.length_map, hl]
  have hat (j : Nat) : (checkBurst gs k).getD (30 + j) 0 = [k.extractLsb' 0 8, k.extractLsb' 8 8].getD j 0 := by
    rw [checkBurst_eq, ← List.append_assoc, List.getD_eq_getElem?_getD, List.getElem?_append_right (by omega), hlen, Nat.add_sub_cancel_left]
    rfl
  rw [burstCounter, hat 1, hat 0]
  show k.extractLsb' 8 8 ++ k.extractLsb' 0 8 = k
  exact BitVec.extractLsb'_append_extractLsb'

/-- Settles O22: one error is found and undone, whether or not the granule carries the marker; a burst is read piece by piece. -/
theorem singleSymbolErrorsAreCorrected : Obligations.SingleSymbolErrorsAreCorrected := by
  refine ⟨fun data poison i e hi he => ?_, ⟨value_form, by decide +kernel⟩, fun gs k hl => ⟨burstCounter_checkBurst hl, fun c x hx => ?_⟩⟩
  · cases poison
    · exact value_clean_struck hi he
    · exact value_poisoned_struck hi he
  · exact ⟨burstValid_checkBurst hl hx, fun g hg => burstSymbols_checkBurst (hg ▸ hx)⟩

end Sys2Proof.Machine.Code
end

section
/-! SUPPORT. Host writes to tower memory (R139, R140, R303): what a write of device memory leaves alone, and that a whole granule written reads back. -/

namespace Sys2Proof.Machine

-- ───────────────────────── granules of a memory

theorem cellsAt_putCells {l : List Host.Cell} {a : Nat} {bs : List Byte} (h : cellsWf l = true) : cellsAt (putCells l a bs) a bs.length = bs :=
  List.ext_getElem (by simp [cellsAt]) fun i _ hi => by simpa [cellsAt] using cellAt_putCells_in h hi

theorem Mem.granule_put {m : Mem} {a : Nat} {g : Granule} (h : m.wf = true) : (m.put a g).granule a = g := by
  obtain ⟨hd, hc⟩ := Mem.wf_iff.mp h
  have data : cellsAt (putCells m.data (32 * (a / 32)) (granuleBytes g.data)) (32 * (a / 32)) 32 = granuleBytes g.data := by
    simpa using cellsAt_putCells (a := 32 * (a / 32)) (bs := granuleBytes g.data) hd
  have check : cellsAt (putCells m.check (4 * (a / 32)) (leBytes 4 g.check.toNat)) (4 * (a / 32)) 4 = leBytes 4 g.check.toNat := by
    simpa using cellsAt_putCells (a := 4 * (a / 32)) (bs := leBytes 4 g.check.toNat) hc
  have hlt : g.check.toNat % 256 ^ 4 = g.check.toNat := Nat.mod_eq_of_lt g.check.isLt
  simp only [Mem.granule, Mem.put, data, check, bytesGranule_granuleBytes, leNat_leBytes, hlt, BitVec.ofNat_toNat, BitVec.setWidth_eq]

theorem Mem.byte_put_ne {m : Mem} {a k : Nat} {g : Granule} (h : a / 32 ≠ k / 32) : (m.put a g).byte k = m.byte k :=
  cellAt_putCells_out (by rw [length_granuleBytes]; omega)

theorem mem_pieces {n a : Nat} {bs : List Byte} {p : Nat × List Byte} (h : p ∈ pieces n a bs) : a ≤ p.1 ∧ p.1 < a + bs.length := by
  induction n generalizing a bs with
  | zero => cases h
  | succ n ih =>
    unfold pieces at h
    split at h
    · cases h
    · next hne =>
      have hpos : 0 < bs.length := List.length_pos_iff.mpr (by simpa using hne)
      rcases List.mem_cons.mp h with rfl | h
      · exact ⟨le_rfl, Nat.lt_add_of_pos_right hpos⟩
      · have := ih h
        simp only [List.length_drop] at this
        omega

/-- R139: a write changes no byte of a granule that its address range does not map to. -/
theorem Mem.byte_write {m : Mem} {key : Nat → Nat} {a k : Nat} {bs : List Byte} {poison : Bool}
    (h : ∀ b, a ≤ b → b < a + bs.length → key b / 32 ≠ k / 32) : (m.write key a bs poison).byte k = m.byte k := by
  have hp : ∀ p ∈ pieces (bs.length + 1) a bs, key p.1 / 32 ≠ k / 32 := fun p hp => h p.1 (mem_pieces hp).1 (mem_pieces hp).2
  unfold Mem.write
  generalize pieces (bs.length + 1) a bs = l at hp
  induction l generalizing m with
  | nil => rfl
  | cons p t ih =>
    obtain ⟨h0, ht⟩ := List.forall_mem_cons.mp hp
    exact (ih ht).trans (Mem.byte_put_ne h0)

theorem pieces_granule {n a : Nat} {bs : List Byte} (ha : a % 32 = 0) (hl : bs.length = 32) : pieces (n + 2) a bs = [(a, bs)] := by
  have hne : bs.isEmpty = false := List.isEmpty_eq_false_iff.mpr (List.ne_nil_of_length_pos (by omega))
  have hn : 32 - a % 32 = bs.length := by omega
  simp [pieces, hne, hn]

theorem spans_granule {n a : Nat} (ha : a % 32 = 0) : spans (n + 2) a 32 = [(a, 32)] := by simp [spans, ha]

/-- R139, R140: a whole granule that is written reads back with its poison. -/
theorem Mem.read_write_granule {m : Mem} {key : Nat → Nat} {a : Nat} {bs : List Byte} {poison : Bool} (hm : m.wf = true) (ha : a % 32 = 0)
    (hk : key a % 32 = 0) (hl : bs.length = 32) : (m.write key a bs poison).read key a 32 = (bs, poison) := by
  have hw : m.write key a bs poison = m.put (key a) (Code.form (bytesGranule bs) poison) := by
    simp [Mem.write, hl, pieces_granule ha hl, Mem.merge, mergeGranule, hk]
  rw [hw, Mem.read, spans_granule ha]
  simp only [List.foldl_cons, List.foldl_nil, Mem.granule_put hm, Code.value_form, granuleBytes_bytesGranule hl, ha, List.drop_zero, List.nil_append,
    Bool.false_or, List.take_of_length_le hl.le]

/-- R142, R143, R155: the mapping of the towers keeps granules whole. -/
theorem key_mod_granule (cfg : HoistCfg) (o : Nat) : cfg.key o % 32 = o % 32 := by
  unfold HoistCfg.key
  split
  · next r _ =>
    have hplace (a : Nat) : (cfg.place r a).2 % 32 = a % 32 := by
      unfold HoistCfg.place
      split
      · simp only [placeHashed, gib]
        omega
      · simp only [placeListed, gib]
        omega
    have hoff : r.offsetOf o % 32 = o % 32 := by
      simp only [Region.offsetOf, gib]
      omega
    have := hplace (r.offsetOf o)
    simp only [towerKey, towerSize, gib]
    omega
  · rfl

-- ───────────────────────── spans of whole granules

theorem partSpans_whole {n a k : Nat} (ha : a % 32 = 0) (hk : k % 32 = 0) : partSpans (spans n a k) = [] := by
  induction n generalizing a k with
  | zero => rfl
  | succ n ih =>
    unfold spans
    split
    · rfl
    · have h32 : min k (32 - a % 32) = 32 := by omega
      simp only [h32]
      exact ih (by omega) (by omega)

-- ───────────────────────── what a write of device memory leaves alone

section
variable {s : State}

@[simp ↓] theorem squares_ite {c : Prop} [Decidable c] {a b : State} : (if c then a else b).squares = if c then a.squares else b.squares := apply_ite ..
@[simp ↓] theorem scratch_ite {c : Prop} [Decidable c] {a b : State} : (if c then a else b).scratch = if c then a.scratch else b.scratch := apply_ite ..

@[simp] theorem fire_floor {e} : (fire e s).squares = s.squares ∧ (fire e s).scratch = s.scratch := by simp [fire]

@[simp] theorem fireFor_floor {code} : (fireFor code s).squares = s.squares ∧ (fireFor code s).scratch = s.scratch := by
  unfold fireFor; split <;> simp

@[simp] theorem place_floor {code die unit body} :
    (place code die unit body s).squares = s.squares ∧ (place code die unit body s).scratch = s.scratch := by simp [place]

@[simp] theorem flushSuppressed_floor {code} : (flushSuppressed code s).squares = s.squares ∧ (flushSuppressed code s).scratch = s.scratch := by
  simp [flushSuppressed]

@[simp] theorem noteHealth_floor {code unit} : (noteHealth code unit s).squares = s.squares ∧ (noteHealth code unit s).scratch = s.scratch := by
  simp [noteHealth]

@[simp] theorem recordLimited_floor {code die unit body} :
    (recordLimited code die unit body s).squares = s.squares ∧ (recordLimited code die unit body s).scratch = s.scratch := by
  simp [recordLimited]

/-- The contexts, the squares and the scratchpads are as they were. -/
def SameFloor (s t : State) : Prop := t.ctxs = s.ctxs ∧ t.squares = s.squares ∧ t.scratch = s.scratch

theorem sameFloor_forAll {α : Type} {f : α → State → State} (h : ∀ x t, SameFloor t (f x t)) {l : List α} : SameFloor s (forAll l f s) := by
  have := foldl_keeps (fun t : State => (t.ctxs, t.squares, t.scratch)) (fun t x => Prod.ext (h x t).1 (Prod.ext (h x t).2.1 (h x t).2.2)) (l := l) (b := s)
  exact ⟨congrArg (·.1) this, congrArg (·.2.1) this, congrArg (·.2.2) this⟩

theorem SameFloor.trans {t u : State} (h : SameFloor s t) (g : SameFloor t u) : SameFloor s u :=
  ⟨g.1.trans h.1, g.2.1.trans h.2.1, g.2.2.trans h.2.2⟩

/-- MEM_UNCORR is no fatal record: nothing halts. -/
theorem recordUncorr_sameFloor {c addr src} : SameFloor s (recordUncorr c addr src s) := by
  have h : unlimited 0x2400 = false := by decide
  simp [SameFloor, recordUncorr, record, h]

theorem countSymbols_sameFloor {c fixed} : SameFloor s (countSymbols c fixed s) :=
  sameFloor_forAll fun x t => by split <;> exact ⟨rfl, rfl, rfl⟩

theorem countRead_sameFloor {k src g} : SameFloor s (countRead k src g s) := by
  unfold countRead
  split
  · exact ⟨rfl, rfl, rfl⟩
  · dsimp only
    split
    · exact countSymbols_sameFloor (s := s.setChan _ _)
    · exact countSymbols_sameFloor (s := s.setChan _ _)
    · exact recordUncorr_sameFloor (s := s.setChan _ _)

theorem noteRead_sameFloor {k g} : SameFloor s (noteRead k g s) := by
  have h : SameFloor s (countRead k 0 g s) := countRead_sameFloor
  unfold noteRead
  dsimp only
  split <;> exact h

theorem outdate_sameFloor {key l} : SameFloor s (outdate key l s) := by
  unfold outdate
  split <;> exact ⟨rfl, rfl, rfl⟩

theorem bumpGens_sameFloor {o n} : SameFloor s (bumpGens o n s) := by
  unfold bumpGens
  split
  · exact ⟨rfl, rfl, rfl⟩
  · refine sameFloor_forAll fun i t => ?_
    dsimp only
    repeat' split
    all_goals exact ⟨rfl, rfl, rfl⟩

theorem writeDev_sameFloor {o bs poison} : SameFloor s (writeDev o bs poison s) := by
  unfold writeDev
  split
  · exact ⟨rfl, rfl, rfl⟩
  · have h : SameFloor s (noteSpan s.cfg.key (partSpans (spans (bs.length + 1) o bs.length)) s) := sameFloor_forAll fun _ _ => noteRead_sameFloor
    exact (h.trans outdate_sameFloor).trans (bumpGens_sameFloor (s := { outdate _ _ _ with tower := _ }))

end

section
variable {s : State}

/-- Counting the writes of a page records nothing and leaves the queue of the host alone. -/
theorem bumpGens_quiet {o n : Nat} : (bumpGens o n s).out = s.out ∧ (bumpGens o n s).elog = s.elog := by
  unfold bumpGens
  split
  · exact ⟨rfl, rfl⟩
  · refine Prod.mk.inj (foldl_keeps (fun t : State => (t.out, t.elog)) fun t i => ?_)
    dsimp only
    repeat' split
    all_goals rfl

theorem outdate_quiet {key : Nat → Nat} {l} : (outdate key l s).out = s.out ∧ (outdate key l s).elog = s.elog := by
  unfold outdate
  split <;> exact ⟨rfl, rfl⟩

/-- R139: a write of whole granules reads nothing, so it records nothing. -/
theorem writeDev_whole_quiet {o : Nat} {bs : List Byte} {poison : Bool} (ho : o % 32 = 0) (hb : bs.length % 32 = 0) :
    (writeDev o bs poison s).out = s.out ∧ (writeDev o bs poison s).elog = s.elog := by
  unfold writeDev
  split
  · exact ⟨rfl, rfl⟩
  · dsimp only
    rw [partSpans_whole ho hb]
    obtain ⟨hout, helog⟩ := outdate_quiet (s := s) (key := s.cfg.key) (l := spans (bs.length + 1) o bs.length)
    exact ⟨bumpGens_quiet.1.trans hout, bumpGens_quiet.2.trans helog⟩

theorem writeDev_cfg {o : Nat} {bs : List Byte} {poison : Bool} : (writeDev o bs poison s).cfg = s.cfg := by
  unfold writeDev
  split
  · rfl
  · simp

end

theorem execHostMemWrite_next {s t : State} {addr : Nat} {bytes : List Byte} {poison : Bool} (h : execHostMemWrite addr bytes poison s = .next t) :
    t = hostMem (.write addr bytes poison) s := by
  unfold execHostMemWrite at h
  split at h
  · cases h
  · split at h
    · cases h
    · cases h; rfl

/-- Settles O60: a host write either waits, and then only the queue of the host changes, or it is a write of device memory. -/
theorem hostWritesToTowerMemory : Obligations.HostWritesToTowerMemory := by
  intro s t addr bytes poison h
  obtain rfl := execHostMemWrite_next h
  by_cases hp : s.tow.hostWait = [] ∧ s.hostPasses (.write addr bytes poison) = true
  · obtain ⟨hw, hpass⟩ := hp
    have hwork : (writeDev addr bytes poison s).work = s.work := writeDev_work
    obtain ⟨hctxs, hsquares, hscratch⟩ := writeDev_sameFloor (s := s) (o := addr) (bs := bytes) (poison := poison)
    rw [hostMem_performed hw hpass]
    refine ⟨fun k hk => ?_, hctxs, hsquares, hscratch, congrArg Work.burgees hwork, congrArg Work.sched hwork, writeDev_cfg, writeDev_whole_quiet,
      fun hwait => ?_, fun _ _ hwf ha hl => ?_⟩
    · exact (congrArg (Mem.byte · k) writeDev_tower).trans (Mem.byte_write hk)
    · exact absurd hwait (by simp [hw, hpass])
    · show (writeDev addr bytes poison s).tower.read (writeDev addr bytes poison s).cfg.key addr 32 = _
      rw [writeDev_tower, writeDev_cfg]
      exact Mem.read_write_granule hwf ha (by rw [key_mod_granule, ha]) hl
  · have hwait : s.tow.hostWait ≠ [] ∨ s.hostPasses (.write addr bytes poison) = false := by
      simpa only [not_and_or, Bool.not_eq_true] using hp
    rw [hostMem_waits hwait]
    exact ⟨fun _ _ => rfl, rfl, rfl, rfl, rfl, rfl, rfl, fun _ _ => ⟨rfl, rfl⟩, fun _ => ⟨rfl, rfl⟩, fun hw hpass => absurd ⟨hw, hpass⟩ hp⟩

end Sys2Proof.Machine
end

section
/-! SUPPORT. The towers' maintenance (R136, R144 to R149, R151). Records, forfeits and the halt that a fatal record brings leave the memories, the squares and the
controllers alone; reads and lost slots change no more than the counts of a channel. -/

namespace Sys2Proof.Machine

-- ───────────────────────── what records leave alone

/-- The memories of the dies, the squares, the memory controllers and the first fatal code are as they were. -/
def SameStores (s t : State) : Prop :=
  t.tow = s.tow ∧ t.tower = s.tower ∧ t.scratch = s.scratch ∧ t.sram = s.sram ∧ t.squares = s.squares ∧ t.elog.firstFatal = s.elog.firstFatal

section
variable {s t u : State}

theorem SameStores.refl (s : State) : SameStores s s := ⟨rfl, rfl, rfl, rfl, rfl, rfl⟩

theorem SameStores.trans (h : SameStores s t) (g : SameStores t u) : SameStores s u := by
  obtain ⟨h1, h2, h3, h4, h5, h6⟩ := h
  obtain ⟨g1, g2, g3, g4, g5, g6⟩ := g
  exact ⟨g1.trans h1, g2.trans h2, g3.trans h3, g4.trans h4, g5.trans h5, g6.trans h6⟩

theorem sameStores_forAll {α : Type} {f : α → State → State} (h : ∀ x t, SameStores t (f x t)) {l : List α} : SameStores s (forAll l f s) := by
  induction l generalizing s with
  | nil => exact .refl s
  | cons x l ih => exact (h x s).trans ih

theorem SameStores.chan (h : SameStores s t) (c : Nat) : t.chan c = s.chan c := by rw [State.chan, h.1]; rfl

theorem SameStores.square (h : SameStores s t) (p : Nat) : t.square p = s.square p := by
  obtain ⟨-, -, -, -, hq, -⟩ := h
  rw [State.square, hq]
  rfl

/-- What the recorder keeps of its own, the first fatal code aside, is none of the stores. -/
theorem SameStores.setElog (h : SameStores s t) {l : Elog} (hl : l.firstFatal = t.elog.firstFatal) : SameStores s { t with elog := l } := by
  obtain ⟨h1, h2, h3, h4, h5, h6⟩ := h
  exact ⟨h1, h2, h3, h4, h5, hl.trans h6⟩

theorem fire_sameStores {e} : SameStores s (fire e s) := by
  unfold fire
  dsimp only
  repeat' split
  all_goals exact ⟨rfl, rfl, rfl, rfl, rfl, rfl⟩

theorem fireFor_sameStores {code} : SameStores s (fireFor code s) := by
  unfold fireFor
  split
  · exact fire_sameStores
  · exact .refl s

theorem makeRoom_firstFatal {e n : Nat} {l : Elog} : (Elog.makeRoom e n l).firstFatal = l.firstFatal := by
  induction n generalizing l with
  | zero => rfl
  | succ n ih =>
    unfold Elog.makeRoom
    split
    · rfl
    · split
      · dsimp only
        split <;> split <;> exact ih
      · rfl

theorem append_firstFatal {bytes pad} {l : Elog} : (Elog.append bytes pad l).firstFatal = l.firstFatal := makeRoom_firstFatal

theorem place_sameStores {code die unit body} : SameStores s (place code die unit body s) := by
  unfold place
  extract_lets l before stamp bytes room padded placed w
  have hw : SameStores s w := by
    refine ⟨rfl, rfl, rfl, rfl, rfl, append_firstFatal.trans ?_⟩
    show padded.firstFatal = _
    simp only [padded]
    split
    · rfl
    · exact append_firstFatal
  split
  · exact hw.trans fire_sameStores
  · exact hw

theorem noteHealth_sameStores {code unit} : SameStores s (noteHealth code unit s) := by
  unfold noteHealth
  dsimp only
  repeat' split
  all_goals exact ⟨rfl, rfl, rfl, rfl, rfl, rfl⟩

theorem flushSuppressed_sameStores {code} : SameStores s (flushSuppressed code s) := by
  unfold flushSuppressed
  dsimp only
  split
  · exact .refl s
  · exact place_sameStores.setElog rfl

theorem recordLimited_sameStores {code die unit body} : SameStores s (recordLimited code die unit body s) := by
  have h : SameStores s (flushSuppressed code s) := flushSuppressed_sameStores
  unfold recordLimited
  dsimp only
  generalize flushSuppressed code s = t at h ⊢
  split
  · refine ((SameStores.trans ?_ place_sameStores).trans noteHealth_sameStores).trans fireFor_sameStores
    exact h.setElog rfl
  · exact h.setElog rfl

/-- A record that is neither fatal nor unlimited. -/
theorem record_sameStores {code die unit body} (h : unlimited code = false) : SameStores s (record code die unit body s) := by
  unfold record
  rw [h]
  exact recordLimited_sameStores

-- ───────────────────────── a fatal record

theorem sendFlit_sameStores {l} : SameStores s (sendFlit l s) := by
  unfold sendFlit
  split <;> exact ⟨rfl, rfl, rfl, rfl, rfl, rfl⟩

theorem flushManagement_sameStores {l n} : SameStores s (flushManagement l n s) := by
  induction n generalizing s with
  | zero => exact .refl s
  | succ n ih =>
    unfold flushManagement
    split
    · exact .refl s
    · exact sendFlit_sameStores.trans ih

theorem sendDepart_sameStores {code} : SameStores s (sendDepart code s) :=
  sameStores_forAll fun l t => SameStores.trans (t := sendOn l _ (emit _ t)) ⟨rfl, rfl, rfl, rfl, rfl, rfl⟩ flushManagement_sameStores

theorem leaveUp_sameStores {l st cause} : SameStores s (leaveUp l st cause s) :=
  SameStores.trans (t := s.setLink l _) ⟨rfl, rfl, rfl, rfl, rfl, rfl⟩ recordLimited_sameStores

theorem haltWork_sameStores {code} : SameStores s (haltWork code s) := by
  unfold haltWork
  extract_lets departed down
  have hdeparted : SameStores s departed := by
    simp only [departed]
    split
    · exact .refl s
    · exact sendDepart_sameStores
  have hdown : SameStores departed down := sameStores_forAll fun _ _ => leaveUp_sameStores
  clear_value down departed
  obtain ⟨h1, h2, h3, h4, h5, h6⟩ := hdeparted.trans hdown
  exact ⟨h1, h2, h3, h4, h5, h6⟩

theorem startFlush_sameStores {cause} : SameStores s (startFlush cause s) := by
  have hanchor : SameStores s (anchor 3 s) := place_sameStores
  unfold startFlush
  split
  · exact .refl s
  · exact hanchor.setElog rfl

theorem fatalEnd_sameStores : SameStores s (fatalEnd s) := by
  unfold fatalEnd
  split
  · exact ⟨rfl, rfl, rfl, rfl, rfl, rfl⟩
  · exact startFlush_sameStores

/-- R390, R392: a fatal record keeps the memories and the controllers, and notes its code where it is the first. -/
theorem record_fatal {code die unit body} (h : severity code = some 3) :
    SameStores { s with elog := { s.elog with firstFatal := some (s.elog.firstFatal.getD code) } } (record code die unit body s) := by
  have hu : unlimited code = true := by simp [unlimited, h]
  have hp : SameStores s (fireFor code (place code die unit body s)) := place_sameStores.trans fireFor_sameStores
  unfold record
  simp only [hu, h, if_true, beq_self_eq_true]
  refine SameStores.trans ?_ (haltWork_sameStores.trans fatalEnd_sameStores)
  obtain ⟨h1, h2, h3, h4, h5, h6⟩ := hp
  have hcode : some ((fireFor code (place code die unit body s)).elog.firstFatal.getD code) = some (s.elog.firstFatal.getD code) := by rw [h6]
  exact ⟨h1, h2, h3, h4, h5, hcode⟩

-- ───────────────────────── frames, refresh and calibration (R144, R149)

theorem forfeit_sameStores {rung cause b d0 d1} : SameStores s (forfeit rung cause b d0 d1 s) := by
  unfold forfeit
  dsimp only
  split
  · split <;> exact ⟨rfl, rfl, rfl, rfl, rfl, rfl⟩
  · exact .refl s
  · split
    · exact .refl s
    · exact SameStores.trans (t := s.setBurgee b _) ⟨rfl, rfl, rfl, rfl, rfl, rfl⟩ (record_sameStores (by decide))

theorem loseSlots_sameStores {cause d0 slots} : SameStores s (loseSlots cause d0 slots s) :=
  sameStores_forAll fun _ _ => sameStores_forAll fun _ _ => forfeit_sameStores

/-- Reporting the slots that a channel has lost notes the time, and changes nothing else of the stores. -/
theorem reportLost_sameStores {ch : Nat} : ∃ n, SameStores (s.setChan ch { s.chan ch with lostFrom := n }) (reportLost ch s) ∨ reportLost ch s = s := by
  refine ⟨s.devTime, ?_⟩
  unfold reportLost
  dsimp only
  split
  · exact .inr rfl
  · exact .inl loseSlots_sameStores

/-- The controllers beside their channels. -/
def State.frames (s : State) : Towers := { s.tow with chans := [] }

theorem SameStores.frames (h : SameStores s t) : t.frames = s.frames := congrArg (fun w : Towers => { w with chans := [] }) h.1

theorem reportLost_frames {ch : Nat} : (reportLost ch s).frames = s.frames := by
  obtain ⟨n, h | h⟩ := reportLost_sameStores (s := s) (ch := ch)
  · exact h.frames
  · rw [h]

theorem execChannelFrameStart_due (h : s.tow.frameDue ≤ s.devTime) :
    exec .channelFrameStart s = .next (reportAllLost { s with tow := { s.tow with
      frameDue := (s.devTime / 8000 + 1) * 8000, frameNo := s.devTime / 8000 % 125, refreshed := false, calibrated := false } }) :=
  if_neg (Nat.not_lt.mpr h)

theorem reportAllLost_frames : (reportAllLost s).frames = s.frames := foldl_keeps State.frames fun _ _ => reportLost_frames

theorem refresh_cons {x : Nat} {l : List Nat} : refresh (x :: l) s = refresh l { s with tow := { s.tow with
    refreshRow := Assoc.set s.tow.refreshRow x ((Assoc.get s.tow.refreshRow x 0 + refreshRows) % bankRows) } } := rfl

theorem refresh_flags {l : List Nat} : (refresh l s).tow.refreshed = s.tow.refreshed ∧ (refresh l s).tow.calibrated = s.tow.calibrated := by
  induction l generalizing s with
  | nil => exact ⟨rfl, rfl⟩
  | cons x l ih => exact ih

theorem refresh_row_of_not_mem {l : List Nat} {t : Nat} (h : t ∉ l) : Assoc.get (refresh l s).tow.refreshRow t 0 = Assoc.get s.tow.refreshRow t 0 := by
  induction l generalizing s with
  | nil => rfl
  | cons x l ih =>
    rw [List.mem_cons, not_or] at h
    obtain ⟨hx, hl⟩ := h
    rw [refresh_cons, ih hl, Assoc.get_set_ne hx]

/-- R144: a refresh moves each of its towers on by the rows that it covers. -/
theorem refresh_row {l : List Nat} {t : Nat} (hn : l.Nodup) (h : t ∈ l) :
    Assoc.get (refresh l s).tow.refreshRow t 0 = (Assoc.get s.tow.refreshRow t 0 + refreshRows) % bankRows := by
  induction l generalizing s with
  | nil => cases h
  | cons x l ih =>
    obtain ⟨hx, hl⟩ := List.nodup_cons.mp hn
    rw [refresh_cons]
    rcases List.mem_cons.mp h with rfl | h
    · rw [refresh_row_of_not_mem hx, Assoc.get_set_self]
    · rw [ih hl h, Assoc.get_set_ne (ne_of_mem_of_not_mem h hx)]

theorem hotTowers_nodup : s.hotTowers.Nodup := List.nodup_range.filter _

theorem inSlot_ne {j k : Nat} (h : s.inSlot j = true) (hjk : j ≠ k) : s.inSlot k = false := by
  simp only [State.inSlot, Bool.and_eq_true, beq_iff_eq] at h
  simp [State.inSlot, h.1, hjk]

theorem State.chan_setChan_ne {c j : Nat} (h : j ≠ c) (v : Chan) (s : State) : (State.setChan c v s).chan j = s.chan j := Assoc.get_set_ne h

theorem startRetrain_frames {ch : Nat} : (startRetrain ch s).frames = s.frames := by
  unfold startRetrain
  dsimp only
  split
  · rfl
  · exact (record_sameStores (by decide)).frames

/-- A channel that has started to retrain does not run, and another does as before. -/
theorem startRetrain_st {ch c : Nat} : ((startRetrain ch s).chan c).st = if c = ch ∧ (s.chan ch).st = 0 then 1 else (s.chan c).st := by
  unfold startRetrain
  dsimp only
  split
  · next h => simp [h]
  · next h =>
    rw [(record_sameStores (by decide)).chan]
    by_cases hc : c = ch
    · subst hc
      simp [not_not.mp h]
    · rw [State.chan_setChan_ne hc]
      simp [hc]

theorem startRetrain_stays {ch c : Nat} (h : (s.chan c).st ≠ 0) : ((startRetrain ch s).chan c).st ≠ 0 := by
  rw [startRetrain_st]
  split
  · exact one_ne_zero
  · exact h

theorem startRetrain_stops {ch : Nat} : ((startRetrain ch s).chan ch).st ≠ 0 := by
  rw [startRetrain_st]
  split
  · exact one_ne_zero
  · next h => exact fun h0 => h ⟨rfl, h0⟩

/-- R149: every channel that lost its alignment retrains, if it had not failed. -/
theorem retrained_st {l : List Nat} {c : Nat} (h : c ∈ l ∨ (s.chan c).st ≠ 0) : ((forAll l startRetrain s).chan c).st ≠ 0 := by
  induction l generalizing s with
  | nil => exact h.resolve_left List.not_mem_nil
  | cons x l ih =>
    refine ih (s := startRetrain x s) ?_
    rcases h with h | h
    · rcases List.mem_cons.mp h with rfl | h
      · exact .inr startRetrain_stops
      · exact .inl h
    · exact .inr (startRetrain_stays h)

/-- R144, R149: frames, refresh and calibration. -/
theorem frames_maintained (s : State) :
    (s.tow.frameDue ≤ s.devTime → ∃ t, exec .channelFrameStart s = .next t ∧ t.tow.frameDue = (s.devTime / 8000 + 1) * 8000 ∧
      t.tow.frameNo = s.devTime / 8000 % 125 ∧ t.tow.refreshed = false ∧ t.tow.calibrated = false) ∧
    (s.inSlot 62 = true → s.tow.refreshed = false → ∃ t, exec .refreshSlot s = .next t ∧ t.tow.refreshed = true ∧
      ∀ tw, tw < 6 → Assoc.get t.tow.refreshRow tw 0 = (Assoc.get s.tow.refreshRow tw 0 + refreshRows) % bankRows) ∧
    (s.inSlot 63 = true → s.calibrates = false → s.tow.calibrated = false → s.hotTowers ≠ [] →
      ∃ t, exec .refreshSlot s = .next t ∧ t.tow.calibrated = true ∧
      ∀ tw ∈ s.hotTowers, Assoc.get t.tow.refreshRow tw 0 = (Assoc.get s.tow.refreshRow tw 0 + refreshRows) % bankRows) ∧
    (∀ lost : List Nat, s.inSlot 63 = true → s.calibrates = true → s.tow.calibrated = false → (∀ ch ∈ lost, ch < 42) →
      ∃ t, exec (.calibrationSlot lost) s = .next t ∧ t.tow.calibrated = true ∧ ∀ ch ∈ lost, (t.chan ch).st ≠ 0) := by
  refine ⟨fun h => ?_, fun hs hr => ?_, fun hs hc hd hh => ?_, fun lost hs hc hd hl => ?_⟩
  · have hf : (reportAllLost _).frames = _ := reportAllLost_frames (s := { s with tow := { s.tow with
      frameDue := (s.devTime / 8000 + 1) * 8000, frameNo := s.devTime / 8000 % 125, refreshed := false, calibrated := false } })
    exact ⟨_, execChannelFrameStart_due h, congrArg Towers.frameDue hf, congrArg Towers.frameNo hf, congrArg Towers.refreshed hf,
      congrArg Towers.calibrated hf⟩
  · have he : exec .refreshSlot s = .next (refresh (List.range 6) { s with tow := { s.tow with refreshed := true } }) := by
      show execRefreshSlot s = _
      simp [execRefreshSlot, hs, hr]
    exact ⟨_, he, refresh_flags.1, fun tw ht => refresh_row List.nodup_range (List.mem_range.mpr ht)⟩
  · have he : exec .refreshSlot s = .next (refresh s.hotTowers { s with tow := { s.tow with calibrated := true } }) := by
      show execRefreshSlot s = _
      simp [execRefreshSlot, hs, hc, hd, hh, inSlot_ne hs (show 63 ≠ 62 by decide)]
    exact ⟨_, he, refresh_flags.2, fun tw ht => refresh_row hotTowers_nodup ht⟩
  · have he : exec (.calibrationSlot lost) s = .next (forAll lost startRetrain { s with tow := { s.tow with calibrated := true } }) := by
      have hany : lost.any (fun ch => decide (42 ≤ ch)) = false := by simpa using hl
      show execCalibrationSlot lost s = _
      rw [execCalibrationSlot, hs, hc, hd, hany]
      rfl
    have hf : (forAll lost startRetrain { s with tow := { s.tow with calibrated := true } }).frames = _ :=
      foldl_keeps State.frames fun _ _ => startRetrain_frames
    exact ⟨_, he, congrArg Towers.calibrated hf, fun ch hch => retrained_st (.inl hch)⟩

end

end Sys2Proof.Machine
end

section
/-! SUPPORT. Scrubs, retraining and the reports of the towers (R136, R146, R147, R149, R151). -/

namespace Sys2Proof.Machine

-- ───────────────────────── what the counts of a read leave alone

/-- What the counts of a channel's reads leave alone: the towers, the controllers beside their channels, and each channel's place in its patrol. -/
def State.patrol (s : State) : Mem × Towers × (Nat → Nat) := (s.tower, s.frames, fun c => (s.chan c).scrub)

section
variable {s t : State}

theorem SameStores.patrol (h : SameStores s t) : t.patrol = s.patrol := by
  obtain ⟨hw, ht, -⟩ := id h
  simp only [State.patrol, h.frames, ht, h.chan]

/-- A channel that is rewritten at its place in the patrol. -/
theorem setChan_patrol {c : Nat} {v : Chan} (h : v.scrub = (s.chan c).scrub) : (s.setChan c v).patrol = s.patrol := by
  refine Prod.ext rfl (Prod.ext rfl (funext fun j => ?_))
  by_cases hj : j = c
  · subst hj
    simpa [State.patrol] using h
  · simp [State.patrol, State.chan_setChan_ne hj]

theorem countRate_scrub {c : Chan} {dq sec : Nat} : (c.countRate dq sec).scrub = c.scrub := by
  unfold Chan.countRate
  dsimp only
  split <;> rfl

theorem countSymbols_patrol {c : Nat} {fixed : Upset} : (countSymbols c fixed s).patrol = s.patrol :=
  foldl_keeps State.patrol fun t x => by
    dsimp only
    split <;> exact setChan_patrol countRate_scrub

/-- R150: a read counts on its channels, and moves no patrol on. -/
theorem countRead_patrol {k src : Nat} {g : Granule} : (countRead k src g s).patrol = s.patrol := by
  unfold countRead
  split
  · rfl
  · extract_lets ca ch
    split
    · refine countSymbols_patrol.trans (setChan_patrol ?_)
      split <;> rfl
    · refine countSymbols_patrol.trans (setChan_patrol ?_)
      split <;> rfl
    · exact ((record_sameStores (by decide)).patrol).trans (setChan_patrol rfl)

/-- R136, R146: a granule is written back as scrubbed, whatever is counted and recorded beside it. -/
theorem scrubBack_patrol {k : Nat} {g : Granule} : (scrubBack k g s).patrol = (s.tower.put k (Code.scrubbed g), s.patrol.2) := by
  unfold scrubBack
  extract_lets ca u
  split
  · exact (record_sameStores (by decide)).patrol.trans (setChan_patrol (s := u) rfl)
  · rfl

-- ───────────────────────── scrubs (R136, R146, R147)

/-- What a scrub leaves where it has found a granule. -/
def scrubLeaves (g : Granule) : Granule := if Code.residue g = 0 then g else Code.scrubbed g

theorem execTowerPatrolScrub_due {ch : Nat} {upset : Upset} (hd : dataChan ch = true) (hst : (s.chan ch).st = 0) (hn : (s.chan ch).nextScrub ≤ s.up)
    (hs : s.inSlot 63 = true) (hc : s.calibrates = false) (hw : s.wipingTowers = false) :
    ∃ t, exec (.towerPatrolScrub ch upset) s = .next t ∧
      t.tower = s.tower.put (keyOfChan ch ((s.chan ch).scrub * 32))
        (scrubLeaves (Code.disturb (s.tower.granule (keyOfChan ch ((s.chan ch).scrub * 32))) upset)) ∧
      (t.chan ch).scrub = ((s.chan ch).scrub + 1) % chanGranules := by
  have hdue : (!dataChan ch || (s.chan ch).st != 0 || s.up < (s.chan ch).nextScrub || !s.inSlot 63 || s.calibrates) = false := by
    simp [hd, hst, hs, hc, Nat.not_lt.mpr hn]
  show ∃ t, execTowerPatrolScrub ch upset s = .next t ∧ _
  unfold execTowerPatrolScrub scrubLeaves
  extract_lets c k g u
  rw [if_neg (by rw [hdue]; exact Bool.false_ne_true), if_neg (by rw [hw]; exact Bool.false_ne_true)]
  have hu : (u.chan ch).scrub = (c.scrub + 1) % chanGranules := by simp [u]
  by_cases hr : Code.residue g = 0
  · rw [if_pos hr, if_pos hr]
    exact ⟨_, rfl, rfl, hu⟩
  · rw [if_neg hr, if_neg hr]
    have hcount : (countRead k 1 g u).patrol = u.patrol := countRead_patrol
    have hback : (scrubBack k g (countRead k 1 g u)).patrol = _ := scrubBack_patrol
    rw [hcount, show (countRead k 1 g u).tower = u.tower from congrArg Prod.fst hcount] at hback
    exact ⟨_, rfl, congrArg Prod.fst hback, (congrArg (fun p => p.2.2 ch) hback).trans hu⟩

theorem execScratchpadScrub_due {psq bank : Nat} {upset : Upset} (hp : psq < 180) (hb : bank < 32) (hg : (s.square psq).gated = false)
    (hd : Assoc.get (s.square psq).scrubDue bank 0 ≤ s.up) :
    let row := Assoc.get (s.square psq).scrubRow bank 0
    let k := psq * padSize + (row * 1024 + bank * 32)
    ∃ t, exec (.scratchpadScrub psq bank upset) s = .next t ∧ t.scratch = s.scratch.put k (scrubLeaves (Code.disturb (s.scratch.granule k) upset)) ∧
      Assoc.get (t.square psq).scrubRow bank 0 = (row + 1) % 8192 := by
  intro row k
  show ∃ t, execScratchpadScrub psq bank upset s = .next t ∧ _
  unfold execScratchpadScrub
  extract_lets q due row' a k' g u back noted
  have hpow : ¬ (180 ≤ psq ∨ 32 ≤ bank ∨ q.gated = true) := by
    rw [show q.gated = false from hg]
    simp only [Bool.false_eq_true, or_false]
    omega
  rw [if_neg hpow, if_neg (Nat.not_lt.mpr hd)]
  have hrow : Assoc.get (u.square psq).scrubRow bank 0 = (row + 1) % 8192 := by simp [u, row', row, q]
  unfold scrubLeaves
  by_cases hr : Code.residue g = 0
  · rw [if_pos hr, if_pos hr]
    exact ⟨_, rfl, rfl, hrow⟩
  · rw [if_neg hr, if_neg hr]
    have hnoted : SameStores back noted := by
      simp only [noted]
      split
      · exact record_sameStores (by decide)
      · exact .refl back
    have hend : SameStores back (if scrubPoisons g then record 0x2402 (dieCompute psq) psq (leBytes 8 a ++ leBytes 8 0) noted else noted) := by
      split
      · exact hnoted.trans (record_sameStores (by decide))
      · exact hnoted
    refine ⟨_, rfl, ?_, by rw [hend.square]; exact hrow⟩
    obtain ⟨-, -, hscratch, -⟩ := hend
    exact hscratch

theorem record_sram {code die unit : Nat} {body : List Byte} : (record code die unit body s).sram = s.sram := by
  by_cases hf : severity code = some 3
  · obtain ⟨-, -, -, h, -⟩ := record_fatal (s := s) (die := die) (unit := unit) (body := body) hf
    exact h
  · have hs : (severity code == some 3) = false := by simpa using hf
    unfold record
    split
    · rw [hs]
      obtain ⟨-, -, -, h, -⟩ := (place_sameStores (s := s)).trans (fireFor_sameStores (code := code))
      exact h
    · obtain ⟨-, -, -, h, -⟩ := recordLimited_sameStores (s := s)
      exact h

theorem execHalyardSramScrub_due {upset : Upset} (hd : s.tow.sramDue ≤ s.up) :
    let a := s.tow.sramScrub * 32
    ∃ t, exec (.halyardSramScrub upset) s = .next t ∧ t.sram = s.sram.put a (scrubLeaves (Code.disturb (s.sram.granule a) upset)) := by
  intro a
  show ∃ t, execHalyardSramScrub upset s = .next t ∧ _
  unfold execHalyardSramScrub
  extract_lets g
  rw [if_neg (Nat.not_lt.mpr hd)]
  unfold scrubLeaves
  by_cases hr : Code.residue g = 0
  · rw [if_pos hr, if_pos hr]
    exact ⟨_, rfl, rfl⟩
  · rw [if_neg hr, if_neg hr]
    split
    · exact ⟨_, rfl, record_sram⟩
    · exact ⟨_, rfl, by split <;> rfl⟩
    · exact ⟨_, rfl, by split <;> rfl⟩

theorem execDemandScrub_found {ch granule : Nat} {upset : Upset} {x : ScrubWait} (hx : s.tow.scrubs.find? (·.key == keyOfChan ch (granule * 32)) = some x)
    (hd : dataChan ch = true) (hr : s.runs ch = true) :
    let k := keyOfChan ch (granule * 32)
    ∃ t, exec (.demandScrub ch granule upset) s = .next t ∧
      t.tower = (if x.stale then s.tower else s.tower.put k (Code.scrubbed (Code.disturb x.g upset))) ∧ ∀ y ∈ t.tow.scrubs, y.key ≠ k := by
  intro k
  show ∃ t, execDemandScrub ch granule upset s = .next t ∧ _
  unfold execDemandScrub
  dsimp only
  rw [hx]
  dsimp only
  rw [if_neg (by simp [hd, hr])]
  have hcount : (countRead k 1 (Code.disturb x.g upset) { s with tow := { s.tow with scrubs := s.tow.scrubs.filter (·.key != k) } }).patrol = _ :=
    countRead_patrol
  have hleft : ∀ y ∈ s.tow.scrubs.filter (·.key != k), y.key ≠ k := fun y hy => by simpa using (List.mem_filter.mp hy).2
  generalize countRead k 1 (Code.disturb x.g upset) { s with tow := { s.tow with scrubs := s.tow.scrubs.filter (·.key != k) } } = u at hcount ⊢
  have hu : u.tow.scrubs = s.tow.scrubs.filter (·.key != k) := congrArg (fun p : Mem × Towers × (Nat → Nat) => p.2.1.scrubs) hcount
  have ht : u.tower = s.tower := congrArg Prod.fst hcount
  by_cases hstale : x.stale = true
  · rw [if_pos hstale, if_pos hstale]
    exact ⟨_, rfl, ht, fun y hy => hleft y (hu ▸ hy)⟩
  · rw [if_neg hstale, if_neg hstale]
    have hback : (scrubBack k (Code.disturb x.g upset) u).patrol = _ := scrubBack_patrol
    have hs : (scrubBack k (Code.disturb x.g upset) u).tow.scrubs = u.tow.scrubs :=
      congrArg (fun p : Mem × Towers × (Nat → Nat) => p.2.1.scrubs) hback
    exact ⟨_, rfl, (congrArg Prod.fst hback).trans (by rw [ht]), fun y hy => hleft y (by rw [← hu, ← hs]; exact hy)⟩

-- ───────────────────────── retraining (R149, R151)

theorem reportLost_chan {ch : Nat} : ∃ n, (reportLost ch s).chan ch = { s.chan ch with lostFrom := n } := by
  obtain ⟨n, h | h⟩ := reportLost_sameStores (s := s) (ch := ch)
  · exact ⟨n, by rw [h.chan, State.chan_setChan]⟩
  · exact ⟨(s.chan ch).lostFrom, by rw [h]⟩

theorem reportLost_firstFatal {ch : Nat} : (reportLost ch s).elog.firstFatal = s.elog.firstFatal := by
  obtain ⟨n, h | h⟩ := reportLost_sameStores (s := s) (ch := ch)
  · obtain ⟨-, -, -, -, -, h⟩ := h
    exact h
  · rw [h]

theorem execChannelRetrainDone_ok {ch step : Nat} (hc : ch < 42) (hst : (s.chan ch).st = 1) (hu : s.up ≤ (s.chan ch).since + 2000000) :
    exec (.channelRetrainDone ch true step) s = .next ((reportLost ch s).setChan ch { (reportLost ch s).chan ch with st := 0, fails := 0 }) := by
  show execChannelRetrainDone ch true step s = _
  simp [execChannelRetrainDone, hst, Nat.not_le.mpr hc, Nat.not_lt.mpr hu]

/-- An attempt that fails counts; the third in succession is final (R149). -/
theorem execChannelRetrainDone_failed {ch step : Nat} (hc : ch < 42) (hst : (s.chan ch).st = 1) (hu : s.up ≤ (s.chan ch).since + 2000000)
    (h2 : 2 ≤ step) (h5 : step ≤ 5) :
    exec (.channelRetrainDone ch false step) s =
      .next (let u := reportLost ch s
        let c := { u.chan ch with fails := (s.chan ch).fails + 1, since := u.up }
        if (s.chan ch).fails + 1 < 3 then u.setChan ch c
        else record 0x2406 (dieMem (ch / 7)) ch (item ch ++ item step) (u.setChan ch { c with st := 2 })) := by
  show execChannelRetrainDone ch false step s = _
  simp [execChannelRetrainDone, hst, Nat.not_le.mpr hc, Nat.not_lt.mpr hu, Nat.not_lt.mpr h2, Nat.not_lt.mpr h5]

theorem retrain_maintained {ch : Nat} (hc : ch < 42) (hst : (s.chan ch).st = 1) (hu : s.up ≤ (s.chan ch).since + 2000000) :
    (∀ step, ∃ t, exec (.channelRetrainDone ch true step) s = .next t ∧ (t.chan ch).st = 0 ∧ (t.chan ch).fails = 0) ∧
    (∀ step, 2 ≤ step → step ≤ 5 → (s.chan ch).fails < 2 →
      ∃ t, exec (.channelRetrainDone ch false step) s = .next t ∧ (t.chan ch).st = 1 ∧ (t.chan ch).fails = (s.chan ch).fails + 1) ∧
    (∀ step, 2 ≤ step → step ≤ 5 → 2 ≤ (s.chan ch).fails → ∃ t, exec (.channelRetrainDone ch false step) s = .next t ∧
      (t.chan ch).st = 2 ∧ t.elog.firstFatal = some (s.elog.firstFatal.getD 0x2406)) := by
  refine ⟨fun step => ⟨_, execChannelRetrainDone_ok hc hst hu, ?_⟩, fun step h2 h5 hf => ⟨_, execChannelRetrainDone_failed hc hst hu h2 h5, ?_⟩,
    fun step h2 h5 hf => ⟨_, execChannelRetrainDone_failed hc hst hu h2 h5, ?_⟩⟩
  · simp
  · obtain ⟨n, hn⟩ := reportLost_chan (s := s) (ch := ch)
    dsimp only
    rw [if_pos (Nat.succ_lt_succ hf), State.chan_setChan, hn]
    exact ⟨hst, rfl⟩
  · dsimp only
    rw [if_neg (Nat.not_lt.mpr (Nat.succ_le_succ hf))]
    have h := record_fatal
      (s := (reportLost ch s).setChan ch { (reportLost ch s).chan ch with fails := (s.chan ch).fails + 1, since := (reportLost ch s).up, st := 2 })
      (code := 0x2406) (die := dieMem (ch / 7)) (unit := ch) (body := item ch ++ item step) rfl
    refine ⟨by rw [h.chan]; exact congrArg Chan.st (State.chan_setChan ..), ?_⟩
    obtain ⟨-, -, -, -, -, h⟩ := h
    rw [h]
    exact congrArg (fun c : Option Nat => some (c.getD 0x2406)) reportLost_firstFatal

-- ───────────────────────── reports (R151)

theorem find_map {α : Type} {f : α → α} {m : List (Nat × α)} {k : Nat} :
    Assoc.find (m.map fun e => (e.1, f e.2)) k = (Assoc.find m k).map f := by
  induction m with
  | nil => rfl
  | cons e m ih =>
    simp only [List.map_cons, Assoc.find, ih]
    split <;> rfl

theorem lt_nextDue (due up : Nat) {pace : Nat} (h : 0 < pace) : up < nextDue due pace up := by
  unfold nextDue
  split <;> omega

/-- R151: the channels as a summary leaves them. -/
def summedUp (s : State) : State :=
  { s with tow := { s.tow with sumDue := nextDue s.tow.sumDue 60000000000 s.up
                               chans := s.tow.chans.map fun c => (c.1, { c.2 with sum1 := 0, sum2 := 0 }) } }

theorem summedUp_chan {ch : Nat} : ((summedUp s).chan ch).sum1 = 0 ∧ ((summedUp s).chan ch).sum2 = 0 := by
  have h : (summedUp s).chan ch = ((Assoc.find s.tow.chans ch).map fun c => { c with sum1 := 0, sum2 := 0 }).getD {} :=
    congrArg (fun o : Option Chan => o.getD {}) (find_map (f := fun c : Chan => { c with sum1 := 0, sum2 := 0 }))
  rw [h]
  cases Assoc.find s.tow.chans ch <;> exact ⟨rfl, rfl⟩

theorem execMemCorrSummary_due (h : s.tow.sumDue ≤ s.up) : ∃ t, exec .memCorrSummary s = .next t ∧ SameStores (summedUp s) t := by
  show ∃ t, execMemCorrSummary s = .next t ∧ _
  unfold execMemCorrSummary
  rw [if_neg (Nat.not_lt.mpr h)]
  refine ⟨_, rfl, ?_⟩
  dsimp only
  split
  · exact .refl _
  · exact record_sameStores (s := summedUp s) (by decide)

theorem reports_maintained (s : State) (ch : Nat) :
    (s.tow.sumDue ≤ s.up → ∃ t, exec .memCorrSummary s = .next t ∧ s.up < t.tow.sumDue ∧ (t.chan ch).sum1 = 0 ∧ (t.chan ch).sum2 = 0) ∧
    (∀ dq, ch < 42 → dq < 32 → 10 ≤ (s.chan ch).hotRun dq (s.up / 1000000000) → dq ∉ (s.chan ch).dqHot →
      ∃ t, exec (.memDqDegraded ch dq) s = .next t ∧ dq ∈ (t.chan ch).dqHot) := by
  refine ⟨fun h => ?_, fun dq hc hd hh hn => ?_⟩
  · obtain ⟨t, he, ht⟩ := execMemCorrSummary_due h
    exact ⟨t, he, by rw [ht.1]; exact lt_nextDue _ _ (by decide), by rw [ht.chan]; exact summedUp_chan⟩
  · have he : exec (.memDqDegraded ch dq) s =
        .next (record 0x2404 (dieMem (ch / 7)) ch [] (s.setChan ch { s.chan ch with dqHot := (s.chan ch).dqHot ++ [dq] })) := by
      show execMemDqDegraded ch dq s = _
      simp [execMemDqDegraded, Nat.not_le.mpr hc, Nat.not_le.mpr hd, Nat.not_lt.mpr hh, hn]
    exact ⟨_, he, by rw [(record_sameStores (by decide)).chan, State.chan_setChan]; simp⟩

end

/-- Settles O24, one lemma per event. -/
theorem towerMaintenance : Obligations.TowerMaintenance := by
  refine ⟨frames_maintained, fun s upset => ⟨fun ch hd hst hn hs hc hw => execTowerPatrolScrub_due hd hst hn hs hc hw,
    fun psq bank hp hb hg hd => execScratchpadScrub_due hp hb hg hd, execHalyardSramScrub_due, fun ch granule x hx hd hr => execDemandScrub_found hx hd hr⟩,
    fun s ch hc hst hu => retrain_maintained hc hst hu, reports_maintained⟩

end Sys2Proof.Machine
end
